-- ==== Sys2Proof/Word.lean ====
section
/-! DEFINITION. The word types of the MGN-5120 and their plainest arithmetic. -/

namespace Sys2Proof

/-- One byte. -/
abbrev Byte := BitVec 8

/-- The contents of a register; a 32-bit register uses bits [31:0]. -/
abbrev Word := BitVec 64

/-- Bits `[lo + w - 1 : lo]` of a register as a number. -/
def getBits (v : Word) (lo w : Nat) : Nat := (v.toNat >>> lo) % 2 ^ w

/-- A register whose bits `[lo + w - 1 : lo]` are replaced by `x` (taken modulo `2 ^ w`). -/
def putBits (v : Word) (lo w x : Nat) : Word :=
  let m : Word := BitVec.ofNat 64 ((2 ^ w - 1) <<< lo)
  (v &&& ~~~m) ||| (BitVec.ofNat 64 ((x % 2 ^ w) <<< lo))

/-- A mask with bits `[lo + w - 1 : lo]` set. -/
def maskBits (lo w : Nat) : Word := BitVec.ofNat 64 ((2 ^ w - 1) <<< lo)

/-- A Boolean as a number. -/
def b2n (b : Bool) : Nat := if b then 1 else 0

end Sys2Proof
end

