-- ==== Sys2Proof/Syntax.lean ====
section
/-! DEFINITION. The commands of the MGN-5120: one constructor of `Instr` per row of spec/opcode_table.json,
with the operands each row's rule names. -/

namespace Sys2Proof

/-- Request and completion types of a TLP (R113, R247). -/
inductive TlpKind where
  | mrd | mrdlk | mwr | dmwr | iord | iowr | cfgrd0 | cfgwr0 | cfgrd1 | cfgwr1
  | fetchAdd | swap | cas | xlatReq | pageReq | msg | cpl | otherNp | otherP
  deriving DecidableEq, Repr

/-- Routing of a message (R113). -/
inductive MsgRoute where
  | toRoot | byAddr | byId | broadcast | terminate
  deriving DecidableEq, Repr

/-- Completion status of PCI Express Base 7.0. -/
inductive CplStatus where
  | sc | ur | rrs | ca
  deriving DecidableEq, Repr

/-- A TLP as the header parse of R110 presents it, with its payload. `hdr` counts the bytes of its header with prefixes or OHC; `head` is these
bytes and `trailer` those after the payload as they were received (R141), and `head` is empty where the device forms the TLP. `last` is the Last
bit of a Page Request (R295). -/
structure Tlp where
  kind : TlpKind
  route : MsgRoute := .toRoot
  msgCode : BitVec 8 := 0
  addr : BitVec 64 := 0
  atype : BitVec 2 := 0
  reqId : BitVec 16 := 0
  tag : BitVec 14 := 0
  destId : BitVec 16 := 0
  reg : BitVec 12 := 0
  be : BitVec 4 := 0xF
  tc : Fin 8 := 0
  ro : Bool := false
  ido : Bool := false
  ep : Bool := false
  td : Bool := false
  pasid : Option (BitVec 20) := none
  pmr : Bool := false
  len : Nat := 0
  payload : List Byte := []
  hdr : Nat := 16
  head : List Byte := []
  trailer : List Byte := []
  cplId : BitVec 16 := 0
  status : CplStatus := .sc
  byteCount : Nat := 0
  lowerAddr : BitVec 7 := 0
  last : Bool := false
  deriving DecidableEq, Repr

/-- The Nerup TLP header of R200. `pairSeq` is present when TWIN is set. -/
structure Nth where
  ntype : BitVec 4 := 1
  vc : Fin 8 := 0
  moved : Bool := false
  srcMember : Fin 16
  dstMember : Fin 16
  dest : BitVec 10
  bucket : Fin 4096
  verdict : BitVec 2 := 0
  hallPart : Fin 1024
  twin : Option (BitVec 24) := none
  locked : Bool := false
  shared : Bool := false
  cplId : BitVec 16 := 0
  hops : Fin 16 := 0
  deriving DecidableEq, Repr

/-- The fields of a received Hall control message that every message carries (R202), the port it came in on, and its control flit's SEQ
and whether its check held (R206). -/
structure MsgHdr where
  port : Fin 512
  src : Fin 16
  hallId : BitVec 16
  epoch : BitVec 32 := 0
  tag : BitVec 16 := 0
  hops : Fin 16 := 0
  seq : BitVec 10 := 0
  good : Bool := true
  deriving DecidableEq, Repr

/-- How the flits of a segment came in (R200, R206): the SEQs of control flits that lie among its data flits, each of which is a command of its
own after it, and, where a flit of it fails its check, how many of its flits, those among them included, were accepted before that one. -/
structure SegRx where
  ctl : List (BitVec 10) := []
  bad : Option Nat := none
  deriving DecidableEq, Repr

/-- A control message as R202 lays it out. -/
structure CtlMsg where
  mtype : BitVec 8
  src : Fin 16
  dst : Fin 16
  bcast : Bool := false
  hops : Fin 16 := 0
  epoch : BitVec 32 := 0
  tag : BitVec 16 := 0
  hallId : BitVec 16
  payload : List Byte := []
  deriving DecidableEq, Repr

/-- The spaces a memory-mapped access can name (R404, R427): management PF BAR0, its BAR2 with the MSI-X table and PBA, and a Stall's BAR0. -/
inductive Bar where
  | mgmt
  | mgmtMsix
  | stall (s : Fin 1024)
  deriving DecidableEq, Repr

/-- The doors through which a register access can come (R405, R400). -/
inductive Door where
  | mgmtPf | i3c | debug | controller
  deriving DecidableEq, Repr

/-- The virtual bridge a host configuration write names (R122): the USP's or virtual DSP `v`'s. -/
inductive BridgeFn where
  | usp
  | dsp (v : Fin 256)
  deriving DecidableEq, Repr

/-- What happens at the pins of the JTAG port (R443): a TCK cycle with TMS and TDI, or TRST_N low. -/
inductive JtagPins where
  | tck (tms tdi : Bool)
  | trst
  deriving DecidableEq, Repr

/-- What a debug port access names (R254): a register or a chunk of a Floor cell; or the pins of its TAPs (R6, R443). -/
inductive DbgTarget where
  | reg (off : BitVec 26) (wide : Bool)
  | chunk (cell : Fin 393216) (k : Fin 4)
  | pins (p : JtagPins)
  deriving DecidableEq, Repr

/-- How long PERST_IN_N stayed low (R387): under 20 ns, 20 ns to under 1 µs, 1 µs or more. -/
inductive LowTime where
  | glitch | short | long
  deriving DecidableEq, Repr

/-- The strap pins (R387); `margin` says that a strap changed inside its setup or hold time (R446). -/
structure Straps where
  roleW : Bool
  roleE : Bool
  bootSrc : Fin 4
  testMode : Bool
  margin : Bool := false
  deriving DecidableEq, Repr

/-- The scheduler parameter registers of R188. -/
inductive SchedReg where
  | qDrr (q : Fin 8) | qShape (q : Fin 8) | gDrr (g : Fin 8) | portShape
  deriving DecidableEq, Repr

/-- What a margining report command asks for (R55). -/
inductive MarginReport where
  | capabilities | voltageSteps | timingSteps | maxTimingOffset | maxVoltageOffset | samplingRateVoltage | samplingRateTiming
  | sampleCount | maxLanes
  deriving DecidableEq, Repr

/-- A lane margining command (R55). -/
inductive MarginCmd where
  | report (what : MarginReport)
  | timing (right : Bool) (step : Fin 64)
  | voltage (up : Bool) (step : Fin 128)
  | setErrorLimit (n : Fin 64)
  | clearLog
  | stop
  deriving DecidableEq, Repr

/-- What triggered containment at a DSP (R347). -/
inductive DpcCause where
  | uncorrectable | errNonFatal | errFatal | software
  deriving DecidableEq, Repr

/-- A PRG Response code (R295). -/
inductive PrgCode where
  | success | invalid | failure
  deriving DecidableEq, Repr

/-- Which read of the management PF timed out (R331, R418). -/
inductive MgmtRead where
  | fold (h : Fin 2) | tallyList
  deriving DecidableEq, Repr

/-- What a receiver finds wrong as a TLP comes in: by lane of the port, counted from its lowest, the code violations, disparity errors and
invalid sync headers met while it came (R44-R46), and the lanes out of alignment (R54); and that a check fails, the LCRC at its end or that of
a later Flit, with the payload bytes that had come before it (R128). -/
structure RxErr where
  code : List Nat := []
  skew : BitVec 16 := 0
  badEnd : Option Nat := none
  deriving DecidableEq, Repr

/-- What a Row's receivers have counted in a condemnation window, by Row lane index with the spare's at 16: FEC symbols corrected (R47),
code violations, disparity errors and invalid sync headers that no TLP brought (R44-R46), and errors that a locked pattern checker saw (R71). -/
structure RowErrs where
  fec : List Nat := []
  code : List Nat := []
  prbs : List Nat := []
  deriving DecidableEq, Repr

/-- The commands. Each constructor is one row of the opcode table; its docstring names the row's rule. -/
inductive Instr where
  /-- REGISTER_WRITE, R7. -/
  | registerWrite (bar : Bar) (off : BitVec 26) (wide : Bool) (v : BitVec 64)
  /-- MISALIGNED_REGISTER_ACCESS, R9: an access of `bytes` bytes at `off` that is not aligned 32 or 64 bits. -/
  | misalignedRegisterAccess (bar : Bar) (off : BitVec 26) (bytes : Nat) (write : Bool)
  /-- STALLED_ACCESS_COMPLETE, R21: the access in management request slot `slot`. -/
  | stalledAccessComplete (slot : Fin 4)
  /-- TLP_INGRESS, R113. `shared` says that the sender used shared credits (R155 item 2). -/
  | tlpIngress (p : Fin 512) (t : Tlp) (shared : Bool) (rx : RxErr)
  /-- PORTER_REQUEST_INGRESS, R17: the oldest request waiting at Porter `n`'s core port. -/
  | porterRequestIngress (n : Fin 64)
  /-- FABRIC_TLP_ARRIVAL, R116: a segment that begins at byte `pos` of the body of a data flit with sequence number `seq`; `rx` says
  how its flits came in. -/
  | fabricTlpArrival (p : Fin 512) (seq : BitVec 10) (pos : Fin 236) (rx : SegRx) (nth : Nth) (t : Tlp)
  /-- ARBITRATION_DECISION, R167, at output `o` of half `h`: 0-15 Rows, 16-19 Porter clusters, 20 local functions. -/
  | arbitrationDecision (h : Fin 2) (o : Fin 21) (chunksReady : Bool)
  /-- DEBUG_PORT_ACCESS, R171: `busy` says that a TLP is in transfer, `inFlight` how many bank operations are. -/
  | debugPortAccess (t : DbgTarget) (write : Bool) (v : BitVec 512) (busy : Bool) (inFlight : Fin 5)
  /-- EGRESS_SCHEDULE, R179, at egress point `e` (0-511 ports, 512 and 513 PFs, 514-577 Porters). -/
  | egressSchedule (e : Fin 578)
  /-- DL_DOWN, R24. -/
  | dlDown (p : Fin 512)
  /-- PURGE_DONE, R159. -/
  | purgeDone (p : Fin 512)
  /-- BLOCK_LOCK_LOST, R46. -/
  | blockLockLost (r : Fin 32) (m : Fin 17)
  /-- EQ_PARTNER_REQUEST, R49: coefficient magnitudes of the request, and whether the partner's receiver asks for precoding (R48). -/
  | eqPartnerRequest (r : Fin 32) (m : Fin 17) (cM2 cM1 c0 cP1 : BitVec 6) (precode : Bool)
  /-- EQ_EVALUATION_DONE, R50: the figure of merit of the request just evaluated, or its rejection. -/
  | eqEvaluationDone (r : Fin 32) (m : Fin 17) (fom : Nat) (rejected : Bool)
  /-- ROW_SPLIT_WRITE, R39. -/
  | rowSplitWrite (r : Fin 32) (v : BitVec 32)
  /-- SPARE_OFFER_SEND, R61. -/
  | spareOfferSend (r : Fin 32)
  /-- SPARE_OFFER, R61. -/
  | spareOffer (r : Fin 32) (magic cap : BitVec 8)
  /-- SPARE_ACCEPT, R61. -/
  | spareAccept (r : Fin 32) (magic cap : BitVec 8)
  /-- SPARE_NEGOTIATION_TIMEOUT, R61. -/
  | spareNegotiationTimeout (r : Fin 32)
  /-- SPARE_READY, R63. -/
  | spareReady (r : Fin 32)
  /-- SPARE_UNFIT, R63. -/
  | spareUnfit (r : Fin 32)
  /-- CONDEMNATION_WINDOW, R64: what the Row's receivers counted in the window. -/
  | condemnationWindow (r : Fin 32) (e : RowErrs)
  /-- LANE_LOCK_LOSS, R64. -/
  | laneLockLoss (r : Fin 32) (m : Fin 16)
  /-- SPARE_REQ, R65; `flit` is the sequence number of the first Flit the device mirrors. -/
  | spareReq (r : Fin 32) (lane : Fin 16) (flit : BitVec 10)
  /-- SPARE_ACK, R65. -/
  | spareAck (r : Fin 32) (lane : Fin 16) (seq : BitVec 10)
  /-- SPARE_NAK, R66. -/
  | spareNak (r : Fin 32) (lane : Fin 16)
  /-- SPARE_SUBSTITUTION, R65. -/
  | spareSubstitution (r : Fin 32)
  /-- ROW_SPARE_FORCE, R69. -/
  | rowSpareForce (r : Fin 32) (lane : Fin 16)
  /-- LANE_PRBS_CTL_WRITE, R70. -/
  | lanePrbsCtlWrite (r : Fin 32) (m : Fin 17) (v : BitVec 32)
  /-- PRBS_CLEAR, R71. -/
  | prbsClear (r : Fin 32) (m : Fin 17)
  /-- PRBS_LOCK, R71. -/
  | prbsLock (r : Fin 32) (m : Fin 17)
  /-- PRBS_LOCK_LOSS, R71. `errs` is the errors counted since the last PRBS event of the lane. -/
  | prbsLockLoss (r : Fin 32) (m : Fin 17) (errs : Nat)
  /-- PRBS_INJ_ONE, R72. -/
  | prbsInjOne (r : Fin 32) (m : Fin 17)
  /-- PRBS_PERIODIC_INJECT, R72. -/
  | prbsPeriodicInject (r : Fin 32) (m : Fin 17)
  /-- PORT_ENABLE, R75: a write of PORT_CTL that sets EN. -/
  | portEnable (p : Fin 512) (v : BitVec 32)
  /-- PORT_DISABLE, R76: a write of PORT_CTL that clears EN. -/
  | portDisable (p : Fin 512) (v : BitVec 32)
  /-- PART_CTL_WRITE, R77. -/
  | partCtlWrite (q : Fin 128) (v : BitVec 32)
  /-- PARTITION_RESET, R80: PART_CTL.RESET written with 1. -/
  | partitionReset (q : Fin 128)
  /-- USP_HOT_RESET, R80. -/
  | uspHotReset (p : Fin 512)
  /-- SECONDARY_BUS_RESET, R450: Secondary Bus Reset of a bridge of partition `q` written. -/
  | secondaryBusReset (q : Fin 128) (f : BridgeFn) (set : Bool)
  /-- SVC_CTL_WRITE, R108. -/
  | svcCtlWrite (v : BitVec 32)
  /-- L0S_ENTRY, R88. -/
  | l0sEntry (p : Fin 512)
  /-- ASPM_L1_REQUEST, R88. -/
  | aspmL1Request (p : Fin 512)
  /-- L1_REQUEST_RECEIVED, R88; `pm` says that the partner asks for PCI-PM L1 (R87). -/
  | l1RequestReceived (p : Fin 512) (pm : Bool)
  /-- L0P_NARROW, R89. -/
  | l0pNarrow (p : Fin 512)
  /-- L0P_WIDEN, R89. -/
  | l0pWiden (p : Fin 512)
  /-- SIGNBOARD_FRAME, R90: the bits sampled from SB_DIN in the frame, in the order of the shift periods. -/
  | signboardFrame (h : Fin 2) (din : List Bool)
  /-- CHAIN_FAULT, R93. -/
  | chainFault (h : Fin 2)
  /-- PRESENCE_CHANGE, R96: the debounced PRSNT_N. -/
  | presenceChange (p : Fin 512) (present : Bool)
  /-- ATTENTION_BUTTON_PRESSED, R96. -/
  | attentionButtonPressed (p : Fin 512)
  /-- MRL_SENSOR_CHANGE, R96. -/
  | mrlSensorChange (p : Fin 512) (isOpen : Bool)
  /-- PWRFLT_CHANGE, R96. -/
  | pwrfltChange (p : Fin 512) (fault : Bool)
  /-- SB_CTL_WRITE, R97. -/
  | sbCtlWrite (h : Fin 2) (v : BitVec 32)
  /-- POWER_CONTROLLER_ON, R99. -/
  | powerControllerOn (p : Fin 512)
  /-- POWER_CONTROLLER_OFF, R105. -/
  | powerControllerOff (p : Fin 512)
  /-- INDICATOR_CONTROL, R99: Power and Attention Indicator Control (1 on, 2 blink, 3 off). -/
  | indicatorControl (p : Fin 512) (power attn : BitVec 2)
  /-- SLOT_CFG_WRITE, R107. -/
  | slotCfgWrite (p : Fin 512) (v : BitVec 64)
  /-- COOLING_EXPIRED, R104. -/
  | coolingExpired (p : Fin 512)
  /-- PRESENCE_DEBOUNCE_DONE, R104. -/
  | presenceDebounceDone (p : Fin 512) (present : Bool)
  /-- SLOT_POWER_VALID, R105. -/
  | slotPowerValid (p : Fin 512)
  /-- PERST_RELEASE, R105. -/
  | perstRelease (p : Fin 512)
  /-- POWER_OFF_DONE, R105. -/
  | powerOffDone (p : Fin 512)
  /-- DPC_TRIGGER, R347. -/
  | dpcTrigger (p : Fin 512) (c : DpcCause)
  /-- DPC_RELEASE, R347. -/
  | dpcRelease (p : Fin 512)
  /-- HOST_BRIDGE_WRITE, R122: dword offset `off`, byte enables and value. -/
  | hostBridgeWrite (q : Fin 128) (f : BridgeFn) (off : BitVec 12) (be : BitVec 4) (v : BitVec 32)
  /-- BRIDGE_WRITE_COMPLETE, R122. -/
  | bridgeWriteComplete (q : Fin 128)
  /-- WIN_COMMIT, R124. -/
  | winCommit
  /-- HELD_COMMIT_APPLY, R125. -/
  | heldCommitApply
  /-- COMMIT_COPY_DONE, R124. -/
  | commitCopyDone
  /-- HASH_SEED_WRITE, R132. -/
  | hashSeedWrite (v : BitVec 32)
  /-- BUCKET_PATH_WRITE, R133. -/
  | bucketPathWrite (b : Fin 4096) (path : Fin 16)
  /-- BUCKET_REPIN, R133. -/
  | bucketRepin (b : Fin 4096)
  /-- PITCH_FENCE, R136. -/
  | pitchFence (c : Fin 576)
  /-- FENCE_DONE, R136. -/
  | fenceDone (c : Fin 576)
  /-- SCRUB_ROW, R149: bank `b`, the next chunk row; `upset` symbol errors are found in the row's chunk beside those the model holds. -/
  | scrubRow (b : Fin 512) (upset : Nat)
  /-- LINK_MEMORY_SWEEP_DONE, R148: the queue `q` of egress point `e` that broke, how many TLPs its list held before the break, the single-bit
  errors corrected in link memory and cell state table, and a cell whose cell state table entry was uncorrectable. -/
  | linkMemorySweepDone (e : Fin 578) (q : Fin 9) (pos single : Nat) (badState : Option (Fin 393216))
  /-- RETIRE_WINDOW, R150. -/
  | retireWindow (b : Fin 512)
  /-- BANK_RETIRE_COMMAND, R150. -/
  | bankRetireCommand (b : Fin 512)
  /-- BANK_RETIRED, R151. -/
  | bankRetired (b : Fin 512)
  /-- RESERVATION_COVERED, R153. -/
  | reservationCovered (i : Fin 576)
  /-- GROUP_CTL_WRITE, R145: `none` names FLOOR_RSV_GROUPS. -/
  | groupCtlWrite (g : Option (Fin 32)) (v : BitVec 32)
  /-- ESCAPE_MOVE, R158. -/
  | escapeMove (p : Fin 512) (q : Fin 8)
  /-- WIPE_ALL, R162. -/
  | wipeAll
  /-- FLOOR_WIPED, R161. -/
  | floorWiped
  /-- TOKEN_REFILL, R182. -/
  | tokenRefill
  /-- GATE_CHANGE, R184. -/
  | gateChange (p : Fin 512)
  /-- GATE_ENABLE, R186. -/
  | gateEnable (p : Fin 512)
  /-- GATE_SWITCH, R186. -/
  | gateSwitch (p : Fin 512)
  /-- GATE_SWITCH_TAKEOVER, R186. -/
  | gateSwitchTakeover (p : Fin 512)
  /-- GATE_STUCK, R189. -/
  | gateStuck (p : Fin 512) (q : Fin 8)
  /-- SCHEDULER_PARAMETER_WRITE, R188. -/
  | schedulerParameterWrite (p : Fin 512) (r : SchedReg) (v : BitVec 64)
  /-- PENDING_PARAMETERS_APPLY, R188. -/
  | pendingParametersApply (p : Fin 512)
  /-- HALL_ENABLE, R192: a write of HALL_CTL that sets EN. -/
  | hallEnable (v : BitVec 32)
  /-- HALL_DISABLE, R192: a write of HALL_CTL that clears EN. -/
  | hallDisable (v : BitVec 32)
  /-- MASTER_CLAIM_TIMEOUT, R193. -/
  | masterClaimTimeout
  /-- MASTER_CLAIM, R194. -/
  | masterClaim (m : MsgHdr)
  /-- CLAIM_ACK, R194. -/
  | claimAck (m : MsgHdr) (recEpoch : BitVec 32) (recorded applied : Bool) (held : BitVec 16)
  /-- CLAIM_COLLECTION_DONE, R194. -/
  | claimCollectionDone
  /-- HEARTBEAT_SEND, R195. -/
  | heartbeatSend
  /-- HEARTBEAT, R195. -/
  | heartbeat (m : MsgHdr) (members : BitVec 16)
  /-- NERUP_LINK_TRAINED, R196: the link reached L0; `proto` says that the partner selected the Nerup protocol. -/
  | nerupLinkTrained (p : Fin 512) (rate : Fin 7) (width : Fin 17) (flit proto : Bool)
  /-- HELLO, R198. -/
  | hello (m : MsgHdr) (peerPort : Fin 512) (reset current : Bool)
  /-- NERUP_INIT_FLIT, R197: the credit counter it carries. -/
  | nerupInitFlit (p : Fin 512) (vc : Fin 16) (kind : Fin 8) (crd : BitVec 16)
  /-- NERUP_FLIT_ACK, R206: ACK_SEQ and the credit counter of a received link header. -/
  | nerupFlitAck (p : Fin 512) (ack : BitVec 10) (vc : Fin 16) (kind : Fin 8) (crd : BitVec 16)
  /-- NERUP_NAK, R206: the acknowledgement and the credit counter of a received link header with NAK set. -/
  | nerupNak (p : Fin 512) (ack : BitVec 10) (vc : Fin 16) (kind : Fin 8) (crd : BitVec 16)
  /-- REPLAY_TIMEOUT, R206. -/
  | replayTimeout (p : Fin 512)
  /-- RECOVERY_LIMIT_EXPIRED, R207. -/
  | recoveryLimitExpired (p : Fin 512)
  /-- FLIT_SILENCE_EXPIRED, R207. -/
  | flitSilenceExpired (p : Fin 512)
  /-- FAILOVER_QUERY, R208: the addressee's and the sender's port. -/
  | failoverQuery (m : MsgHdr) (p : Fin 512) (peerPort : Fin 512)
  /-- FAILOVER_REPLY, R208, R211: the sender's port and its frozen SEQ. -/
  | failoverReply (m : MsgHdr) (p : Fin 512) (seq : BitVec 10)
  /-- FAILOVER_WAIT_EXPIRED, R209. -/
  | failoverWaitExpired (p : Fin 512)
  /-- CONTROL_MESSAGE_RELAY, R27: a control message with its flit's SEQ and whether its check held. -/
  | controlMessageRelay (p : Fin 512) (seq : BitVec 10) (good : Bool) (m : CtlMsg)
  /-- LINK_STATE, R210. -/
  | linkState (m : MsgHdr) (port : Fin 512) (st : Fin 8) (peer : Fin 16) (peerPort : Fin 512)
  /-- EDIT, R213. -/
  | edit (m : MsgHdr) (hallPart : Fin 1024) (f : BridgeFn) (off : BitVec 12) (be : BitVec 4) (v : BitVec 32)
  /-- EDIT_DONE, R213. -/
  | editDone (m : MsgHdr)
  /-- ROUTE_PUSH, R213: TABLE, byte offset and data. -/
  | routePush (m : MsgHdr) (table : BitVec 8) (off : BitVec 24) (data : List Byte)
  /-- STAGE, R213: the CRC-32C expected of the addressee's staged tables. -/
  | stage (m : MsgHdr) (segments crc : BitVec 32)
  /-- STAGE_ACK, R213. -/
  | stageAck (m : MsgHdr) (crc : BitVec 32)
  /-- PREPARE, R213. -/
  | prepare (m : MsgHdr)
  /-- PREPARE_ACK, R213. -/
  | prepareAck (m : MsgHdr) (code : BitVec 8)
  /-- COMMIT, R213. -/
  | hallCommit (m : MsgHdr)
  /-- COMMIT_ACK, R213. -/
  | hallCommitAck (m : MsgHdr)
  /-- APPLY, R213. -/
  | hallApply (m : MsgHdr)
  /-- APPLY_ACK, R213. -/
  | hallApplyAck (m : MsgHdr)
  /-- ABORT, R214. -/
  | hallAbort (m : MsgHdr)
  /-- ABORT_ACK, R214. -/
  | hallAbortAck (m : MsgHdr)
  /-- PHASE_TIMEOUT, R214. -/
  | phaseTimeout
  /-- TABLE_REQ, R215. -/
  | tableReq (m : MsgHdr)
  /-- LOCK_REQ, R217. -/
  | lockReq (m : MsgHdr) (domain : Fin 16) (port : Fin 512)
  /-- LOCK_ARBITRATION, R217. -/
  | lockArbitration
  /-- LOCK_GRANT, R218. -/
  | lockGrant (m : MsgHdr) (domain : Fin 16) (port : Fin 512)
  /-- LOCK_BUSY, R218. -/
  | lockBusy (m : MsgHdr) (domain : Fin 16) (port : Fin 512)
  /-- LOCK_RETRY, R218. -/
  | lockRetry (p : Fin 512)
  /-- LOCK_RELEASE, R218. -/
  | lockRelease (m : MsgHdr) (domain : Fin 16) (port : Fin 512)
  /-- TWIN_CHECK_SEND, R229. -/
  | twinCheckSend (p : Fin 512)
  /-- TWIN_CHECK, R229. -/
  | twinCheck (m : MsgHdr) (crc : BitVec 32)
  /-- GAP_WAIT_EXPIRED, R238. -/
  | gapWaitExpired (src : Fin 16) (b : Fin 4096)
  /-- STREAM_RESET, R239. -/
  | streamReset (m : MsgHdr) (who : Fin 16)
  /-- STREAM_RESET_ACK, R239. -/
  | streamResetAck (m : MsgHdr) (who : Fin 16)
  /-- STREAM_RESET_TIMEOUT, R239. -/
  | streamResetTimeout
  /-- SEAL_WRITE, R252: word 0 is PITCH_SEAL, 1 and 2 are WIN_SEAL[0] and [1]. -/
  | sealWrite (k : Fin 3) (v : BitVec 64)
  /-- DOORBELL_POLL, R262. -/
  | doorbellPoll (n : Fin 64) (s : Fin 1024)
  /-- POLL_COMPLETE, R262: the record's eight PI values, or a failure. -/
  | pollComplete (n : Fin 64) (s : Fin 1024) (ok : Bool) (pis : List (BitVec 16))
  /-- PREEMPTION_DONE, R303. -/
  | preemptionDone (n : Fin 64)
  /-- DESCRIPTOR_FETCH, R263. -/
  | descriptorFetch (n : Fin 64)
  /-- DESCRIPTOR_READ_COMPLETE, R263: the 64-byte slots read, or a failure. -/
  | descriptorReadComplete (n : Fin 64) (ok : Bool) (slots : List (BitVec 512))
  /-- COPY, R265. -/
  | porterCopy (n : Fin 64)
  /-- FILL, R265. -/
  | porterFill (n : Fin 64)
  /-- INLINE, R266. -/
  | porterInline (n : Fin 64)
  /-- FENCE, R268. -/
  | porterFence (n : Fin 64)
  /-- NOTIFY, R265. -/
  | porterNotify (n : Fin 64)
  /-- LEDGER_SYNC, R330. -/
  | ledgerSync (n : Fin 64)
  /-- BAD_OPCODE, R264. -/
  | badOpcode (n : Fin 64)
  /-- DATA_READ_ISSUE, R272. -/
  | dataReadIssue (n : Fin 64)
  /-- PORTER_COMPLETION, R273. -/
  | porterCompletion (n : Fin 64) (t : Tlp)
  /-- COMPLETION_TIMEOUT, R274: the request in tag slot `slot`. -/
  | completionTimeout (n : Fin 64) (slot : Fin 512)
  /-- QUARANTINE_END, R274. -/
  | quarantineEnd (n : Fin 64) (slot : Fin 512)
  /-- FLUSH_READ_COMPLETE, R277. -/
  | flushReadComplete (n : Fin 64) (slot : Fin 512) (ok : Bool)
  /-- COMPLETION_RECORD, R276. -/
  | completionRecord (n : Fin 64)
  /-- RING_RESUME, R279. -/
  | ringResume (s : Fin 1024) (r : Fin 8)
  /-- RING_ENABLE, R280. -/
  | ringEnable (s : Fin 1024) (r : Fin 8)
  /-- RING_DISABLE, R280. -/
  | ringDisable (s : Fin 1024) (r : Fin 8)
  /-- RING_STOPPED, R280. -/
  | ringStopped (s : Fin 1024) (r : Fin 8)
  /-- STALL_XLAT_WRITE, R284. -/
  | stallXlatWrite (s : Fin 1024) (v : BitVec 64)
  /-- WALK_READ_COMPLETE, R286: the entry read for walk `w` of half `h`, or a failure. -/
  | walkReadComplete (h : Fin 2) (w : Fin 64) (ok : Bool) (entry : BitVec 64)
  /-- ATS_COMPLETION, R294: the Translation Completion of request `w` of half `h`; `sizeLog2` is the range in bytes. -/
  | atsCompletion (h : Fin 2) (w : Fin 64) (ok r wr u : Bool) (addr : BitVec 64) (sizeLog2 : Nat)
  /-- PRG_RESPONSE, R295. -/
  | prgResponse (s : Fin 1024) (prg : BitVec 9) (c : PrgCode)
  /-- FAULT_RECORD_WRITE, R300. -/
  | faultRecordWrite (h : Fin 2)
  /-- FQ_CI_WRITE, R300. -/
  | fqCiWrite (h : Fin 2) (v : BitVec 32)
  /-- FQ_BASE_WRITE, R300. -/
  | fqBaseWrite (h : Fin 2) (v : BitVec 64)
  /-- FAULT_RESUME, R301. -/
  | faultResume (h : Fin 2) (s : Fin 1024) (r : Fin 8) (poll : Bool)
  /-- FAULT_ABORT, R301. -/
  | faultAbort (h : Fin 2) (s : Fin 1024) (r : Fin 8) (poll : Bool)
  /-- FAULT_WAIT_EXPIRED, R302. -/
  | faultWaitExpired (h : Fin 2) (s : Fin 1024) (r : Fin 8) (poll : Bool)
  /-- XLAT_INVALIDATE, R292. -/
  | xlatInvalidate (v : BitVec 32)
  /-- INVALIDATION_DONE, R292. -/
  | invalidationDone
  /-- ATS_INVALIDATION_REQUEST, R293. -/
  | atsInvalidationRequest (s : Fin 1024) (itag : Fin 32) (pasid : Option (BitVec 20)) (addr : BitVec 64) (sizeLog2 : Nat)
  /-- STALL_BIND_WRITE, R309. -/
  | stallBindWrite (s : Fin 1024) (v : BitVec 32)
  /-- STALL_TURN_END, R312. -/
  | stallTurnEnd (n : Fin 64)
  /-- STALL_SHARE_WRITE, R314. -/
  | stallShareWrite (s : Fin 1024) (v : BitVec 64)
  /-- MAILBOX_SEND, R315. -/
  | mailboxSend (s : Fin 1024) (len : BitVec 7)
  /-- MAILBOX_MGR_ACK, R315. -/
  | mailboxMgrAck (s : Fin 1024)
  /-- MAILBOX_MGR_SEND, R316. -/
  | mailboxMgrSend (s : Fin 1024) (len : BitVec 7)
  /-- MAILBOX_ACK, R316. -/
  | mailboxAck (s : Fin 1024)
  /-- MAILBOX_CLEAR, R317. -/
  | mailboxClear (s : Fin 1024)
  /-- STALL_BUS_MASTER_CLEAR, R318. -/
  | stallBusMasterClear (s : Fin 1024)
  /-- STALL_FLR, R318. -/
  | stallFlr (s : Fin 1024)
  /-- VF_DISABLE, R318: VF Enable and NumVFs as written. -/
  | vfDisable (vfEnable : Bool) (numVfs : BitVec 16)
  /-- PORTER_PF_FLR, R318. -/
  | porterPfFlr
  /-- FLR_COMPLETE, R321. -/
  | flrComplete (s : Fin 1024)
  /-- LEDGER_FOLD, R326. -/
  | ledgerFold (h : Fin 2)
  /-- LEDGER_FOLD_READ_COMPLETE, R326: the oldest outstanding fold read of half `h`; `writeOk` says the write was bound with ACTION 0. -/
  | ledgerFoldReadComplete (h : Fin 2) (ok : Bool) (data : BitVec 64) (writeOk : Bool)
  /-- LEDGER_PERIODIC_FLUSH, R328. -/
  | ledgerPeriodicFlush (c : Fin 256)
  /-- LEDGER_FLUSH, R328. -/
  | ledgerFlush (c : Fin 256)
  /-- LEDGER_FLUSH_DONE, R328. -/
  | ledgerFlushDone (c : Fin 256)
  /-- LEDGER_SWAP, R329. -/
  | ledgerSwap (c : Fin 256)
  /-- LEDGER_FAULT_CLEAR, R331. -/
  | ledgerFaultClear (c : Fin 256)
  /-- LEDGER_ENABLE, R332. -/
  | ledgerEnable (c : Fin 256) (v : BitVec 64)
  /-- LEDGER_TEARDOWN, R332. -/
  | ledgerTeardown (c : Fin 256)
  /-- PARITY_SWEEP, R341: block `b`; `upset` is the BAR0 offset of a word of the block that a particle has changed, in
  one bit or in two of it (`double`). -/
  | paritySweep (b : Fin 88) (upset : Option (BitVec 26)) (double : Bool)
  /-- INJECT_PARITY, R350: the offset's bits [27:2]. -/
  | injectParity (b : Fin 88) (off : BitVec 26)
  /-- INJECT_MEM_CORR, R350. -/
  | injectMemCorr (b : Fin 88)
  /-- INJECT_MEM_UNCORR, R350. -/
  | injectMemUncorr (b : Fin 88)
  /-- INJECT_SAFE, R350. -/
  | injectSafe (b : Fin 88)
  /-- TEST_MODE_DEASSERT, R387. -/
  | testModeDeassert
  /-- THERMAL_CONVERSION, R383: the reading in units of 0.25 °C, two's complement. -/
  | thermalConversion (h : Fin 2) (temp : BitVec 12)
  /-- PENDING_MSIX_SEND, R404: entry `e` is unmasked (`bme` false) or Bus Master Enable is set (`bme` true). -/
  | pendingMsixSend (e : Fin 16) (bme : Bool)
  /-- SLOT_POWER_TICK, R355: samples in the units of SPC_MEAS. -/
  | slotPowerTick (n : Fin 32) (vsense vin vout : BitVec 12)
  /-- BREAKER, R358. -/
  | breaker (n : Fin 32)
  /-- FAST_TRIP, R357. -/
  | fastTrip (n : Fin 32)
  /-- FET_HIGH_RDS, R359. -/
  | fetHighRds (n : Fin 32)
  /-- VIN_UV, R359. -/
  | vinUv (n : Fin 32)
  /-- DISCHARGE_END, R359. -/
  | dischargeEnd (n : Fin 32)
  /-- FET_SHORT, R361. -/
  | fetShort (n : Fin 32)
  /-- RESTART_HOLDOFF_END, R360. -/
  | restartHoldoffEnd (n : Fin 32)
  /-- SPC_CFG_WRITE, R353. -/
  | spcCfgWrite (n : Fin 32) (v : BitVec 64)
  /-- REFCLK_LOSS, R368. -/
  | refclkLoss (h : Fin 2)
  /-- REFCLK_RETURN, R368. -/
  | refclkReturn (h : Fin 2)
  /-- PLL_LOCK, R366. -/
  | pllLock (h : Fin 2)
  /-- DROOP_SAG, R371: sensor `i` reports level 1, or level 2. -/
  | droopSag (h : Fin 2) (i : Fin 32) (level2 : Bool)
  /-- DROOP_RECOVERY_STEP, R371. -/
  | droopRecoveryStep (h : Fin 2)
  /-- DROOP_CTL_WRITE, R372. -/
  | droopCtlWrite (h : Fin 2) (v : BitVec 32)
  /-- DOMAIN_POWER_ON, R378. -/
  | domainPowerOn (d : Fin 208)
  /-- DOMAIN_RAMP_START, R378. -/
  | domainRampStart (d : Fin 208)
  /-- DOMAIN_WAKE_DONE, R378. -/
  | domainWakeDone (d : Fin 208)
  /-- DOMAIN_POWER_OFF, R378. -/
  | domainPowerOff (d : Fin 208)
  /-- DOMAIN_OFF_DONE, R378. -/
  | domainOffDone (d : Fin 208)
  /-- DOMAIN_CLOCK_STOP, R376. -/
  | domainClockStop (d : Fin 208)
  /-- DOMAIN_CLOCK_START, R376. -/
  | domainClockStart (d : Fin 208)
  /-- PERST_IN_ASSERT, R387. -/
  | perstInAssert (t : LowTime)
  /-- PERST_IN_RELEASE, R387. -/
  | perstInRelease (s : Straps)
  /-- SUPPLY_FAULT, R438: a supply leaves its range; `vddIo` says it is VDD_IO. -/
  | supplyFault (vddIo : Bool)
  /-- FUSE_SHADOW_LOADED, R392. -/
  | fuseShadowLoaded (h : Fin 2) (ok : Bool)
  /-- HALF_CLAIM, R392: the strap vote; `answered` says that each half received a claim or an answer within 1 ms. -/
  | halfClaim (answered : Bool)
  /-- STANDOFF_VOTE, R393: whether each half could send its serial number, and whether both answers arrived. -/
  | standoffVote (sentW sentE answered : Bool)
  /-- HALF_HEARTBEAT, R394. -/
  | halfHeartbeat
  /-- HALF_HEARTBEAT_LOSS, R394: whether the other half answers the claim while its controller runs. -/
  | halfHeartbeatLoss (disputed : Bool)
  /-- SOFT_RESET, R388. -/
  | softReset
  /-- BLOCK_RESET, R389: the value of BLOCK written with BLOCK_GO. -/
  | blockReset (b : Fin 128)
  /-- BLOCK_RESET_DONE, R390. -/
  | blockResetDone
  /-- WIPE_DONE, R391. -/
  | wipeDone
  /-- BOOT_IMAGE_CHECKED, R396: the bytes of copy A and copy B (or of the one delivered copy), `none` where the source does not answer. -/
  | bootImageChecked (a b : Option (List Byte))
  /-- WRITE32, R397. -/
  | write32
  /-- WRITE64, R397. -/
  | write64
  /-- POLL32, R397. -/
  | poll32
  /-- POLL32_TIMEOUT, R398. -/
  | poll32Timeout
  /-- DELAY, R397. -/
  | delay
  /-- DELAY_EXPIRED, R397. -/
  | delayExpired
  /-- END, R397. -/
  | endRecord
  /-- BAD_RECORD, R397. -/
  | badRecord
  /-- LC_ARM, R401. -/
  | lcArm (d : Door) (target : BitVec 2)
  /-- LC_ARM_EXPIRED, R401. -/
  | lcArmExpired
  /-- LC_GO, R401. -/
  | lcGo (d : Door) (target : BitVec 2)
  /-- FUSE_BURN_DONE, R401. -/
  | fuseBurnDone
  /-- I3C_DYNAMIC_ADDRESS, R406: by ENTDAA or by SETDASA. -/
  | i3cDynamicAddress (entdaa : Bool) (adr a : BitVec 7)
  /-- I3C_PRIVATE_WRITE, R408. -/
  | i3cPrivateWrite (adr : BitVec 7) (ptr : Byte) (data : List Byte)
  /-- I3C_PRIVATE_READ, R408. -/
  | i3cPrivateRead (adr : BitVec 7) (n : Nat)
  /-- EVQ_DATA_READ, R412. -/
  | evqDataRead
  /-- DROP_REST, R415. -/
  | dropRest
  /-- EVQ_FLUSH, R415. -/
  | evqFlush
  /-- WINDOW_GO, R409. -/
  | windowGo (write wide : Bool)
  /-- WINDOW_ACCESS_DONE, R409. -/
  | windowAccessDone
  /-- IMAGE_START, R410. -/
  | imageStart
  /-- IMAGE_WINDOW_OPEN, R410. -/
  | imageWindowOpen
  /-- IMAGE_DATA, R410. -/
  | imageData (data : List Byte)
  /-- IMAGE_END, R410. -/
  | imageEnd
  /-- SNAPSHOT, R417. -/
  | snapshot
  /-- RELEASE, R417. -/
  | release
  /-- TALLY_NOW, R418. -/
  | tallyNow
  /-- TALLY_PASS, R418. -/
  | tallyPass
  /-- TIME_SET, R421. -/
  | timeSet (v : BitVec 64)
  /-- TIME_ALIGN, R421. -/
  | timeAlign
  /-- TIME_SOURCE_CHANGE, R422: the TIME_CTL value written. -/
  | timeSourceChange (v : BitVec 32)
  /-- PPS_EDGE, R423. -/
  | ppsEdge
  /-- PPS_LOST, R423. -/
  | ppsLost
  /-- PPS_OUT_PULSE, R423: the pulse starts, or ends 1 ms later. -/
  | ppsOutPulse (rise : Bool)
  /-- PTM_DIALOG, R424. -/
  | ptmDialog
  /-- PTM_DIALOG_COMPLETE, R424: master time at the request and the propagation delay, in ns. -/
  | ptmDialogComplete (master delay : BitVec 64)
  /-- PTM_FAIL, R424. -/
  | ptmFail
  /-- PTM_REQUEST, R424. -/
  | ptmRequest (p : Fin 512)
  /-- DL_UP, R40: trained width, rate code, Flit mode and the partner's initial credits (PH, PD, NPH, NPD, CplH, CplD, shared header, shared data). -/
  | dlUp (p : Fin 512) (width : Fin 17) (rate : Fin 7) (flit : Bool) (credits : List Nat)
  /-- RECOVERY_ENTRY, R68. -/
  | recoveryEntry (p : Fin 512) (rate : Option (Fin 7))
  /-- UPDATEFC, R158: credit of `kind` raised by `n`. -/
  | updateFc (p : Fin 512) (kind : Fin 8) (n : Nat)
  /-- ACK_DLLP, R136: an Ack, or a Nak, of sequence number `seq`; whether the DLLP's check holds. -/
  | ackDllp (p : Fin 512) (nak : Bool) (seq : BitVec 12) (good : Bool)
  /-- REPLAY_TIMER_TIMEOUT, R343. -/
  | replayTimerTimeout (p : Fin 512)
  /-- MARGINING_COMMAND, R55: `errs` is the count the margin sampler sees at the step. -/
  | marginingCommand (r : Fin 32) (m : Fin 17) (c : MarginCmd) (errs : Nat)
  /-- L0P_PARTNER_REQUEST, R89. -/
  | l0pPartnerRequest (p : Fin 512) (width : Fin 17)
  /-- DROOP_SAG_CLEAR, R371: sensor `i` stops reporting level 2, or every level. -/
  | droopSagClear (h : Fin 2) (i : Fin 32) (level2only : Bool)
  /-- SUPPLY_VALID, R386. -/
  | supplyValid
  /-- MGMT_PF_COMPLETION_TIMEOUT, R331. -/
  | mgmtPfCompletionTimeout (w : MgmtRead)
  /-- TALLY_LIST_READ_COMPLETE, R418: the list read for the current set, and whether its page write is bound. -/
  | tallyListReadComplete (ok : Bool) (list : List (BitVec 32)) (pageOk : Bool)
  deriving DecidableEq, Repr

end Sys2Proof
end

