-- ==== Sys2Proof/Config.lean ====
section
/-! DEFINITION. What the manual leaves open and each device fixes: the free values. No constant here has a body,
so nothing can be proved about the value of one beyond its type. -/

namespace Sys2Proof.Config

/-- The `n`th value that the manual leaves open (log 6). `State.free` counts the values taken. -/
opaque freeBits : Nat → BitVec 64

/-- Byte `pos` of the cells of the TLP bound as number `n` where neither the manual nor a link gives it: the header of a TLP that the device
forms, and what fills its last chunk (log 123). -/
opaque tlpByte (n pos : Nat) : Byte

/-- The SECDED code over the low 25 bits of a link memory entry (R142 does not give its matrix, log 123). -/
opaque secded : BitVec 25 → BitVec 7

/-- How many TLPs of a class the buffers of one Aisle direction hold (R12 gives no depth, log 124). -/
opaque aisleDepth (direction cls : Nat) : Nat

/-- How many words of the Aisle's buffers a TLP of so many bytes takes, counted in CDC_LOST (R375 gives no width, log 124). -/
opaque aisleWords (bytes : Nat) : Nat

/-- How many header credits the device advertises out of a pool of `n` cells (R154 bounds the split, log 11). -/
opaque hdrCredits : Nat → Nat

/-- The read-only bits that PCI Express Base 7.0, not the manual, gives the capability dword at byte offset `off` of a function of type
`ty` (log 13). -/
opaque cfgWord (ty off : Nat) : BitVec 32

/-- Where the translation cache looks for a page of a Stall, and the Ledger cache for a word of a context's bitmap (R289 and R325 give sets
and ways and no index, logs 16 and 29). -/
opaque xlatIndex (stall page : Nat) : Nat
opaque ledgerIndex (ctx word : Nat) : Nat

/-- How many data writes beyond the first may wait at a Porter's core port; R268 gives no bound (log 30). -/
opaque writeDepth : Nat

/-- How many cells the boundary-scan register of a die has; R443 names the pins that it covers and no length (log 105). -/
opaque boundaryCells : Nat

/-- The ingress port that holds a lock domain, at the member of a DSP that another member's MRdLk has locked: no Nerup header names it (log 116). -/
opaque lockPort (domain member : Nat) : BitVec 9

end Sys2Proof.Config
end

