-- ==== Sys2Proof/Machine/RegKind.lean ====
section
/-! DEFINITION. The register kinds of the register map (18_register_map.md) with their layout: offset, strides,
counts, width, the bits of each access type (R7) and the reset value (R427), and a name for every field of the
owning chapters' tables. An index pair `i`, `j` picks the element of an array of registers. -/

namespace Sys2Proof.Machine

/-- A kind of register: one line of the register map. -/
inductive RegKind where
  /-- `SVC_CTL`. -/
  | svcCtl
  /-- `XB_CTL`. -/
  | xbCtl
  /-- `XB_RESERVED`. -/
  | xbReserved
  /-- `XB_HINT_MISS`. -/
  | xbHintMiss
  /-- `XB_DEBUG_PREEMPT`. -/
  | xbDebugPreempt
  /-- `EVQ_STATUS`. -/
  | evqStatus
  /-- `EVQ_CMD`. -/
  | evqCmd
  /-- `EVQ_WM`. -/
  | evqWm
  /-- `EVQ_DROPPED`. -/
  | evqDropped
  /-- `EVQ_FLUSHED`. -/
  | evqFlushed
  /-- `FLT_STATUS`. -/
  | fltStatus
  /-- `ERR_STATUS`. -/
  | errStatus
  /-- `ERR_EN`. -/
  | errEn
  /-- `ERR_ROUTE`. -/
  | errRoute
  /-- `ERR_PARITY_LOG`. -/
  | errParityLog
  /-- `ERR_INJECT`. -/
  | errInject
  /-- `PORTER_SAFE_UNITS`. -/
  | porterSafeUnits
  /-- `MEM_CORR`. -/
  | memCorr
  /-- `MEM_UNCORR`. -/
  | memUncorr
  /-- `PART_CTL`. -/
  | partCtl
  /-- `SB_CTL`. -/
  | sbCtl
  /-- `LANE_STATUS`. -/
  | laneStatus
  /-- `LANE_EQ_CTL`. -/
  | laneEqCtl
  /-- `LANE_EQ_STATUS`. -/
  | laneEqStatus
  /-- `LANE_FEC_CORR`. -/
  | laneFecCorr
  /-- `LANE_CODE_ERR`. -/
  | laneCodeErr
  /-- `LANE_PRBS_CTL`. -/
  | lanePrbsCtl
  /-- `LANE_PRBS_ERR`. -/
  | lanePrbsErr
  /-- `LANE_PRBS_USER`. -/
  | lanePrbsUser
  /-- `PORT_CTL`. -/
  | portCtl
  /-- `PORT_STATUS`. -/
  | portStatus
  /-- `PORT_PM_CTL`. -/
  | portPmCtl
  /-- `SLOT_CFG`. -/
  | slotCfg
  /-- `SLOT_STATE`. -/
  | slotState
  /-- `NERUP_CTL`. -/
  | nerupCtl
  /-- `NERUP_STATUS`. -/
  | nerupStatus
  /-- `NERUP_REPLAY`. -/
  | nerupReplay
  /-- `NERUP_MOVED`. -/
  | nerupMoved
  /-- `NERUP_UNSURE`. -/
  | nerupUnsure
  /-- `ROW_SPLIT`. -/
  | rowSplit
  /-- `ROW_SPARE_CTL`. -/
  | rowSpareCtl
  /-- `ROW_SPARE_STATUS`. -/
  | rowSpareStatus
  /-- `ROW_CONDEMN`. -/
  | rowCondemn
  /-- `FLOOR_CTL`. -/
  | floorCtl
  /-- `ESCAPE_WAIT`. -/
  | escapeWait
  /-- `FLOOR_STATUS`. -/
  | floorStatus
  /-- `FLOOR_RSV_GROUPS`. -/
  | floorRsvGroups
  /-- `FLOOR_RETIRE`. -/
  | floorRetire
  /-- `FLOOR_CORR_CNT`. -/
  | floorCorrCnt
  /-- `FLOOR_UNCORR_CNT`. -/
  | floorUncorrCnt
  /-- `FLOOR_ERR_LOG`. -/
  | floorErrLog
  /-- `FLOOR_FREE`. -/
  | floorFree
  /-- `GROUP_CTL`. -/
  | groupCtl
  /-- `GROUP_STATUS`. -/
  | groupStatus
  /-- `FLOOR_BANK`. -/
  | floorBank
  /-- `POOL_CFG`. -/
  | poolCfg
  /-- `POOL_WM`. -/
  | poolWm
  /-- `POOL_STATUS`. -/
  | poolStatus
  /-- `P_DROP`. -/
  | pDrop
  /-- `CPL_DROP`. -/
  | cplDrop
  /-- `NP_UR`. -/
  | npUr
  /-- `ESC_MOVES`. -/
  | escMoves
  /-- `PSCH_CTL`. -/
  | pschCtl
  /-- `PSCH_PORT_SHAPE`. -/
  | pschPortShape
  /-- `PSCH_PORT_TOKENS`. -/
  | pschPortTokens
  /-- `PSCH_Q_DRR`. -/
  | pschQDrr
  /-- `PSCH_Q_SHAPE`. -/
  | pschQShape
  /-- `PSCH_Q_STATUS`. -/
  | pschQStatus
  /-- `PSCH_G_DRR`. -/
  | pschGDrr
  /-- `PSCH_G_STATUS`. -/
  | pschGStatus
  /-- `PSCH_TCMAP`. -/
  | pschTcmap
  /-- `GATE_CTL`. -/
  | gateCtl
  /-- `GATE_STATUS`. -/
  | gateStatus
  /-- `GATE_PARAM.BASE`. -/
  | gateBase
  /-- `GATE_PARAM.CYCLE`. -/
  | gateCycle
  /-- `GATE_PARAM.LEN`. -/
  | gateLen
  /-- `PSCH_PGRP`. -/
  | pschPgrp
  /-- `GATE_LIST`. -/
  | gateList
  /-- `Bucket`. -/
  | bucket
  /-- `FWD_CTL`. -/
  | fwdCtl
  /-- `HASH_SEED`. -/
  | hashSeed
  /-- `FWD_DROP_P`. -/
  | fwdDropP
  /-- `FWD_UR_NP`. -/
  | fwdUrNp
  /-- `PITCH_FENCE`. -/
  | pitchFence
  /-- `PORTER_CTL`. -/
  | porterCtl
  /-- `PORTER_STATUS`. -/
  | porterStatus
  /-- `CPL_TIMEOUT`. -/
  | cplTimeout
  /-- `UNEXP_CPL`. -/
  | unexpCpl
  /-- `BAD_CPL`. -/
  | badCpl
  /-- `POLLS`. -/
  | polls
  /-- `BYTES_RD`. -/
  | bytesRd
  /-- `BYTES_WR`. -/
  | bytesWr
  /-- `DESC_DONE`. -/
  | descDone
  /-- `STALE_CPL`. -/
  | staleCpl
  /-- `STALL_PRIV`. -/
  | stallPriv
  /-- `STALL_XLAT`. -/
  | stallXlat
  /-- `XLAT_CTL`. -/
  | xlatCtl
  /-- `FQ_BASE`. -/
  | fqBase
  /-- `FQ_PI`. -/
  | fqPi
  /-- `FQ_CI`. -/
  | fqCi
  /-- `XLAT_STATUS`. -/
  | xlatStatus
  /-- `XLAT_RESP`. -/
  | xlatResp
  /-- `XLAT_HITS`. -/
  | xlatHits
  /-- `XLAT_MISSES`. -/
  | xlatMisses
  /-- `XLAT_FAULTS`. -/
  | xlatFaults
  /-- `AUTO_ABORT`. -/
  | autoAbort
  /-- `RA_REFUSED`. -/
  | raRefused
  /-- `PREEMPTS`. -/
  | preempts
  /-- `UNEXP_PRG`. -/
  | unexpPrg
  /-- `XLAT_INV_CTL`. -/
  | xlatInvCtl
  /-- `XLAT_INV_ADDR`. -/
  | xlatInvAddr
  /-- `RING_SAVE`. -/
  | ringSave
  /-- `STALL_BIND`. -/
  | stallBind
  /-- `STALL_SHARE`. -/
  | stallShare
  /-- `STALL_SCHED`. -/
  | stallSched
  /-- `STALL_MGR_STATUS`. -/
  | stallMgrStatus
  /-- `MB_MGR OUT`. -/
  | mbMgrOut
  /-- `MB_MGR IN`. -/
  | mbMgrIn
  /-- `MB_MGR_CTL`. -/
  | mbMgrCtl
  /-- `LEDGER_CTX`. -/
  | ledgerCtx
  /-- `LEDGER_CTX.PAGE_BASE`. -/
  | ledgerPageBase
  /-- `LEDGER_CTX.PAGES`. -/
  | ledgerPages
  /-- `LEDGER_CTX.FLUSH_IV`. -/
  | ledgerFlushIv
  /-- `LEDGER_CTX.BITMAP_A`. -/
  | ledgerBitmapA
  /-- `LEDGER_CTX.BITMAP_B`. -/
  | ledgerBitmapB
  /-- `LEDGER_CTX.MARKS`. -/
  | ledgerMarks
  /-- `LEDGER_CMD`. -/
  | ledgerCmd
  /-- `MB_PENDING`. -/
  | mbPending
  /-- `MB_GLOBAL`. -/
  | mbGlobal
  /-- `Pitch`. -/
  | pitch
  /-- `PITCH_CHK`. -/
  | pitchChk
  /-- `PITCH_FAULT_CNT`. -/
  | pitchFaultCnt
  /-- `PART_DEFMAP`. -/
  | partDefmap
  /-- `PITCH_SEAL`. -/
  | pitchSeal
  /-- `WIN_SEAL`. -/
  | winSeal
  /-- `PITCH_FAULT_LOG`. -/
  | pitchFaultLog
  /-- `DBG_DENIED`. -/
  | dbgDenied
  /-- `SPC_CFG`. -/
  | spcCfg
  /-- `SPC_STATUS`. -/
  | spcStatus
  /-- `SPC_MEAS`. -/
  | spcMeas
  /-- `CLK_STATUS`. -/
  | clkStatus
  /-- `DROOP_CTL`. -/
  | droopCtl
  /-- `DROOP_STATUS`. -/
  | droopStatus
  /-- `THERM_STATUS`. -/
  | thermStatus
  /-- `THERM_CTL`. -/
  | thermCtl
  /-- `PWR_STATUS`. -/
  | pwrStatus
  /-- `DROOP_EVENTS`. -/
  | droopEvents
  /-- `CCLK_DIV5_CYC`. -/
  | cclkDiv5Cyc
  /-- `CCLK_DIV6_CYC`. -/
  | cclkDiv6Cyc
  /-- `CDC_LOST`. -/
  | cdcLost
  /-- `CLK_SRIS`. -/
  | clkSris
  /-- `DOMAIN_CTL`. -/
  | domainCtl
  /-- `DOMAIN_STATE`. -/
  | domainState
  /-- `HALL_CTL`. -/
  | hallCtl
  /-- `HALL_STATUS`. -/
  | hallStatus
  /-- `HALL_COMMIT_REC`. -/
  | hallCommitRec
  /-- `HALL_TIMERS`. -/
  | hallTimers
  /-- `HALL_MSG_DROP`. -/
  | hallMsgDrop
  /-- `LOOP_DROP`. -/
  | loopDrop
  /-- `LOCK_STATE`. -/
  | lockState
  /-- `TWIN_CTL`. -/
  | twinCtl
  /-- `TWIN_TIMERS`. -/
  | twinTimers
  /-- `TWIN_ROUTE`. -/
  | twinRoute
  /-- `TWIN_STATUS`. -/
  | twinStatus
  /-- `TWIN_HOLD`. -/
  | twinHold
  /-- `DUP_DROP`. -/
  | dupDrop
  /-- `GAP_SKIP`. -/
  | gapSkip
  /-- `LATE_DROP`. -/
  | lateDrop
  /-- `HOLD_FULL`. -/
  | holdFull
  /-- `TRANSIT_DROP`. -/
  | transitDrop
  /-- `TALLY_CTL`. -/
  | tallyCtl
  /-- `TALLY_STATUS`. -/
  | tallyStatus
  /-- `TALLY_SNAP_TIME`. -/
  | tallySnapTime
  /-- `TALLY_SET`. -/
  | tallySet
  /-- `TALLY_SET.LIST_ADDR`. -/
  | tallyListAddr
  /-- `TALLY_SET.PAGE_ADDR`. -/
  | tallyPageAddr
  /-- `TALLY_SET.SEQ`. -/
  | tallySeq
  /-- `TALLY_USER_EN`. -/
  | tallyUserEn
  /-- `TIME_CTL`. -/
  | timeCtl
  /-- `TIME_ADJ`. -/
  | timeAdj
  /-- `TIME_STATUS`. -/
  | timeStatus
  /-- `TIME_NOW`. -/
  | timeNow
  /-- `TIME_SET`. -/
  | timeSetReg
  /-- `TIME_INCR`. -/
  | timeIncr
  /-- `BASE_INCR`. -/
  | baseIncr
  /-- `RESET_CTL`. -/
  | resetCtl
  /-- `RESET_STATUS`. -/
  | resetStatus
  /-- `ROLE_STATUS`. -/
  | roleStatus
  /-- `BOOT_STATUS`. -/
  | bootStatus
  /-- `LC_STATE`. -/
  | lcState
  /-- `LC_CTL`. -/
  | lcCtl
  /-- `DIE_SERIAL`. -/
  | dieSerial
  /-- `LC_FUSE`. -/
  | lcFuse
  /-- `STALL_CTL`. -/
  | stallCtl
  /-- `DB_ADDR`. -/
  | dbAddr
  /-- `STALL_STATUS`. -/
  | stallStatus
  /-- `RING_BASE`. -/
  | ringBase
  /-- `CQ_BASE`. -/
  | cqBase
  /-- `RING_CTL`. -/
  | ringCtl
  /-- `RING_START`. -/
  | ringStart
  /-- `RING_STATUS`. -/
  | ringStatus
  /-- `Mailbox OUT`. -/
  | mbOut
  /-- `Mailbox IN`. -/
  | mbIn
  /-- `MB_CTL`. -/
  | mbCtl
  /-- `TALLY_PAGE`. -/
  | tallyPage
  deriving DecidableEq, Repr

/-- Every register kind, in the order of the register map. -/
def RegKind.all : List RegKind :=
  ([.svcCtl, .xbCtl, .xbReserved, .xbHintMiss, .xbDebugPreempt, .evqStatus, .evqCmd, .evqWm, .evqDropped, .evqFlushed, .fltStatus, .errStatus] : List RegKind) ++
  ([.errEn, .errRoute, .errParityLog, .errInject, .porterSafeUnits, .memCorr, .memUncorr, .partCtl, .sbCtl, .laneStatus, .laneEqCtl, .laneEqStatus] : List RegKind) ++
  ([.laneFecCorr, .laneCodeErr, .lanePrbsCtl, .lanePrbsErr, .lanePrbsUser, .portCtl, .portStatus, .portPmCtl, .slotCfg, .slotState, .nerupCtl, .nerupStatus] : List RegKind) ++
  ([.nerupReplay, .nerupMoved, .nerupUnsure, .rowSplit, .rowSpareCtl, .rowSpareStatus, .rowCondemn, .floorCtl, .escapeWait, .floorStatus, .floorRsvGroups, .floorRetire] : List RegKind) ++
  ([.floorCorrCnt, .floorUncorrCnt, .floorErrLog, .floorFree, .groupCtl, .groupStatus, .floorBank, .poolCfg, .poolWm, .poolStatus, .pDrop, .cplDrop] : List RegKind) ++
  ([.npUr, .escMoves, .pschCtl, .pschPortShape, .pschPortTokens, .pschQDrr, .pschQShape, .pschQStatus, .pschGDrr, .pschGStatus, .pschTcmap, .gateCtl] : List RegKind) ++
  ([.gateStatus, .gateBase, .gateCycle, .gateLen, .pschPgrp, .gateList, .bucket, .fwdCtl, .hashSeed, .fwdDropP, .fwdUrNp, .pitchFence] : List RegKind) ++
  ([.porterCtl, .porterStatus, .cplTimeout, .unexpCpl, .badCpl, .polls, .bytesRd, .bytesWr, .descDone, .staleCpl, .stallPriv, .stallXlat] : List RegKind) ++
  ([.xlatCtl, .fqBase, .fqPi, .fqCi, .xlatStatus, .xlatResp, .xlatHits, .xlatMisses, .xlatFaults, .autoAbort, .raRefused, .preempts] : List RegKind) ++
  ([.unexpPrg, .xlatInvCtl, .xlatInvAddr, .ringSave, .stallBind, .stallShare, .stallSched, .stallMgrStatus, .mbMgrOut, .mbMgrIn, .mbMgrCtl, .ledgerCtx] : List RegKind) ++
  ([.ledgerPageBase, .ledgerPages, .ledgerFlushIv, .ledgerBitmapA, .ledgerBitmapB, .ledgerMarks, .ledgerCmd, .mbPending, .mbGlobal, .pitch, .pitchChk, .pitchFaultCnt] : List RegKind) ++
  ([.partDefmap, .pitchSeal, .winSeal, .pitchFaultLog, .dbgDenied, .spcCfg, .spcStatus, .spcMeas, .clkStatus, .droopCtl, .droopStatus, .thermStatus] : List RegKind) ++
  ([.thermCtl, .pwrStatus, .droopEvents, .cclkDiv5Cyc, .cclkDiv6Cyc, .cdcLost, .clkSris, .domainCtl, .domainState, .hallCtl, .hallStatus, .hallCommitRec] : List RegKind) ++
  ([.hallTimers, .hallMsgDrop, .loopDrop, .lockState, .twinCtl, .twinTimers, .twinRoute, .twinStatus, .twinHold, .dupDrop, .gapSkip, .lateDrop] : List RegKind) ++
  ([.holdFull, .transitDrop, .tallyCtl, .tallyStatus, .tallySnapTime, .tallySet, .tallyListAddr, .tallyPageAddr, .tallySeq, .tallyUserEn, .timeCtl, .timeAdj] : List RegKind) ++
  ([.timeStatus, .timeNow, .timeSetReg, .timeIncr, .baseIncr, .resetCtl, .resetStatus, .roleStatus, .bootStatus, .lcState, .lcCtl, .dieSerial] : List RegKind) ++
  ([.lcFuse, .stallCtl, .dbAddr, .stallStatus, .ringBase, .cqBase, .ringCtl, .ringStart, .ringStatus, .mbOut, .mbIn, .mbCtl] : List RegKind) ++
  ([.tallyPage] : List RegKind)

/-- How the elements of a register array are placed: at the strides of its `RegInfo`; in the port slots, where `i`
is the port (R106); in the lane blocks, where `i` is the Row and `j` the lane and lane 16 has a block of its own
(R72); or in the BAR0 of Stall `i`. -/
inductive RegForm where
  | plain | portSlot | lane | stall
  deriving DecidableEq, Repr

/-- What the register map says of a register kind. `i` runs below `n1` with stride `s1`, `j` below `n2` with
stride `s2`. -/
structure RegInfo where
  base : Nat
  n1 : Nat := 1
  s1 : Nat := 0
  n2 : Nat := 1
  s2 : Nat := 0
  wide : Bool := false
  form : RegForm := .plain
  rw : Word := 0
  rws : Word := 0
  w1c : Word := 0
  w1s : Word := 0
  wo : Word := 0
  rsv : Word := 0
  reset : Word := 0
  counter : Bool := false
  deriving DecidableEq, Repr

/-- The register map. -/
def RegKind.info : RegKind → RegInfo
  | .svcCtl => { base := 0x1000, rw := 0xFFFF, w1c := 0x10000, rsv := 0xFFFE0000 }
  | .xbCtl => { base := 0x3000, rw := 0xFF, rsv := 0xFFFFFF00, reset := 0x10 }
  | .xbReserved => { base := 0x3008, wide := true, rsv := 0xFFFF000000000000, counter := true }
  | .xbHintMiss => { base := 0x3010, wide := true, rsv := 0xFFFF000000000000, counter := true }
  | .xbDebugPreempt => { base := 0x3018, wide := true, rsv := 0xFFFF000000000000, counter := true }
  | .evqStatus => { base := 0x4000, rsv := 0xFFFE0000 }
  | .evqCmd => { base := 0x4004, wo := 0x3, rsv := 0xFFFFFFFC }
  | .evqWm => { base := 0x4008, rw := 0x3F3F, rsv := 0xFFFFC0C0, reset := 0x2 }
  | .evqDropped => { base := 0x4010, wide := true, rsv := 0xFFFF000000000000, counter := true }
  | .evqFlushed => { base := 0x4018, wide := true, rsv := 0xFFFF000000000000, counter := true }
  | .fltStatus => { base := 0x7000, rws := 0x7F00, w1c := 0x8000, rsv := 0xFFFF00C0 }
  | .errStatus => { base := 0x8000, n1 := 88, s1 := 0x20, w1c := 0x2, rsv := 0xFFFFFF80 }
  | .errEn => { base := 0x8004, n1 := 88, s1 := 0x20, rw := 0xF, rsv := 0xFFFFFFF0, reset := 0xF }
  | .errRoute => { base := 0x8008, n1 := 88, s1 := 0x20, rw := 0x3F, rsv := 0xFFFFFFC0, reset := 0x20 }
  | .errParityLog => { base := 0x800C, n1 := 88, s1 := 0x20, rsv := 0x7C000000 }
  | .errInject => { base := 0x8010, n1 := 88, s1 := 0x20, wo := 0xFFFFFFCF, rsv := 0x30 }
  | .porterSafeUnits => { base := 0x89D8, n1 := 2, s1 := 0x20, wide := true, rsv := 0xFFFFFFFE00000000 }
  | .memCorr => { base := 0xA000, n1 := 88, s1 := 0x10, wide := true, rsv := 0xFFFF000000000000, counter := true }
  | .memUncorr => { base := 0xA008, n1 := 88, s1 := 0x10, wide := true, rsv := 0xFFFF000000000000, counter := true }
  | .partCtl => { base := 0x10000, n1 := 128, s1 := 0x10, rw := 0x3FF7FFD, w1c := 0x8000, wo := 0x2, rsv := 0xFC000000 }
  | .sbCtl => { base := 0x20000, n1 := 2, s1 := 0x40, rw := 0x3FFF, w1c := 0xC000, rsv := 0xFFFF0000, reset := 0x6 }
  | .laneStatus => { base := 0x1000000, n1 := 32, s1 := 0x20000, n2 := 17, s2 := 0x800, form := .lane, w1c := 0x80, rsv := 0xFFFF0E00 }
  | .laneEqCtl => { base := 0x1000010, n1 := 32, s1 := 0x20000, n2 := 17, s2 := 0x800, form := .lane, rw := 0x3FFF3F, rsv := 0xFFC000C0, reset := 0x201400 }
  | .laneEqStatus => { base := 0x1000014, n1 := 32, s1 := 0x20000, n2 := 17, s2 := 0x800, form := .lane, rsv := 0x80000000, reset := 0xF }
  | .laneFecCorr => { base := 0x1000020, n1 := 32, s1 := 0x20000, n2 := 17, s2 := 0x800, wide := true, form := .lane, rsv := 0xFFFF000000000000, counter := true }
  | .laneCodeErr => { base := 0x1000028, n1 := 32, s1 := 0x20000, n2 := 17, s2 := 0x800, wide := true, form := .lane, rsv := 0xFFFF000000000000, counter := true }
  | .lanePrbsCtl => { base := 0x1000040, n1 := 32, s1 := 0x20000, n2 := 17, s2 := 0x800, form := .lane, rw := 0x3E3F, wo := 0x140, rsv := 0xFFFFC000 }
  | .lanePrbsErr => { base := 0x1000048, n1 := 32, s1 := 0x20000, n2 := 17, s2 := 0x800, wide := true, form := .lane, rsv := 0xFFFF000000000000, counter := true }
  | .lanePrbsUser => { base := 0x1000058, n1 := 32, s1 := 0x20000, n2 := 17, s2 := 0x800, wide := true, form := .lane, rw := 0xFFFFFFFFFFFFFFFF }
  | .portCtl => { base := 0x1008000, n1 := 512, s1 := 0x1000, form := .portSlot, rw := 0x3FFFFF, w1c := 0x400000, rsv := 0xFF800000, reset := 0x180000 }
  | .portStatus => { base := 0x1008008, n1 := 512, s1 := 0x1000, form := .portSlot, rsv := 0xC000 }
  | .portPmCtl => { base := 0x1008010, n1 := 512, s1 := 0x1000, form := .portSlot, rw := 0xFFFF, rsv := 0xFFFF0000, reset := 0x1010 }
  | .slotCfg => { base := 0x1008040, n1 := 512, s1 := 0x1000, wide := true, form := .portSlot, rw := 0x3FF1FFFFFFF, rsv := 0xFFFFFC00E0000000, reset := 0x3E88 }
  | .slotState => { base := 0x1008048, n1 := 512, s1 := 0x1000, form := .portSlot }
  | .nerupCtl => { base := 0x1008100, n1 := 512, s1 := 0x1000, form := .portSlot, rw := 0x7FF, rsv := 0xFFFFF800, reset := 0xA4 }
  | .nerupStatus => { base := 0x1008108, n1 := 512, s1 := 0x1000, form := .portSlot, w1c := 0xF0000, rsv := 0xFFC00000 }
  | .nerupReplay => { base := 0x1008110, n1 := 512, s1 := 0x1000, wide := true, form := .portSlot, rsv := 0xFFFF000000000000, counter := true }
  | .nerupMoved => { base := 0x1008118, n1 := 512, s1 := 0x1000, wide := true, form := .portSlot, rsv := 0xFFFF000000000000, counter := true }
  | .nerupUnsure => { base := 0x1008120, n1 := 512, s1 := 0x1000, wide := true, form := .portSlot, rsv := 0xFFFF000000000000, counter := true }
  | .rowSplit => { base := 0x1018000, n1 := 32, s1 := 0x20000, rw := 0x7FFF, w1c := 0x10000, rsv := 0xFFFE8000 }
  | .rowSpareCtl => { base := 0x1018010, n1 := 32, s1 := 0x20000, rw := 0x3FF, wo := 0x400, rsv := 0xFFFFF800, reset := 0x20 }
  | .rowSpareStatus => { base := 0x1018014, n1 := 32, s1 := 0x20000, w1c := 0x3C000, rsv := 0xFFFC0000 }
  | .rowCondemn => { base := 0x1018018, n1 := 32, s1 := 0x20000, rw := 0xFFFFFF, rsv := 0xFF000000, reset := 0xA0800 }
  | .floorCtl => { base := 0x1800000, rw := 0x1FC, wo := 0x1, rsv := 0xFFFFFE00, reset := 0xAC }
  | .escapeWait => { base := 0x1800008, rw := 0xFFFF, rsv := 0xFFFF0000, reset := 0x14 }
  | .floorStatus => { base := 0x1800010, w1c := 0x79, rsv := 0xFFFFFF80 }
  | .floorRsvGroups => { base := 0x1800018, rw := 0xFFFFFFFF, reset := 0xFFFFFFFF }
  | .floorRetire => { base := 0x1800020, rw := 0xFFFFFF, rsv := 0xFF000000, reset := 0xA0400 }
  | .floorCorrCnt => { base := 0x1800028, wide := true, rsv := 0xFFFF000000000000, counter := true }
  | .floorUncorrCnt => { base := 0x1800030, wide := true, rsv := 0xFFFF000000000000, counter := true }
  | .floorErrLog => { base := 0x1800038, w1c := 0x80000000, rsv := 0x7F800000 }
  | .floorFree => { base := 0x1800040, n1 := 2, s1 := 0x8, rsv := 0xFFFC0000 }
  | .groupCtl => { base := 0x1810000, n1 := 32, s1 := 0x40, rw := 0x1, rsv := 0xFFFFFFFE, reset := 0x1 }
  | .groupStatus => { base := 0x1810008, n1 := 32, s1 := 0x40, wide := true, rws := 0x1F00000000, rsv := 0xFFFFFFC08000C000 }
  | .floorBank => { base := 0x1820000, n1 := 512, s1 := 0x10, wide := true, w1c := 0x1000000000000, wo := 0x2000000000000, rsv := 0xFFFC000000000000 }
  | .poolCfg => { base := 0x1900000, n1 := 576, s1 := 0x100, n2 := 8, s2 := 0x20, wide := true, rw := 0xFFFFFFFFFFF, rsv := 0xFFFFF00000000000, reset := 0x8004004030 }
  | .poolWm => { base := 0x1900008, n1 := 576, s1 := 0x100, n2 := 8, s2 := 0x20, rw := 0xFFFFFFF, rsv := 0xF0000000, reset := 0x6001C0 }
  | .poolStatus => { base := 0x1900010, n1 := 576, s1 := 0x100, n2 := 8, s2 := 0x20, wide := true, rsv := 0xFFFFFFFFC0000000 }
  | .pDrop => { base := 0x1A00000, n1 := 578, s1 := 0x20, wide := true, rsv := 0xFFFF000000000000, counter := true }
  | .cplDrop => { base := 0x1A00008, n1 := 578, s1 := 0x20, wide := true, rsv := 0xFFFF000000000000, counter := true }
  | .npUr => { base := 0x1A00010, n1 := 578, s1 := 0x20, wide := true, rsv := 0xFFFF000000000000, counter := true }
  | .escMoves => { base := 0x1A00018, n1 := 578, s1 := 0x20, wide := true, rsv := 0xFFFF000000000000, counter := true }
  | .pschCtl => { base := 0x1C00000, n1 := 512, s1 := 0x800, w1c := 0x2, rsv := 0xFFFC }
  | .pschPortShape => { base := 0x1C00008, n1 := 512, s1 := 0x800, wide := true, rw := 0x3FFFFFFFFFF, rsv := 0xFFFFFC0000000000, reset := 0x2000000000 }
  | .pschPortTokens => { base := 0x1C00010, n1 := 512, s1 := 0x800, wide := true, rsv := 0xFFFFFFFFFFC00000, reset := 0x10000 }
  | .pschQDrr => { base := 0x1C00100, n1 := 512, s1 := 0x800, n2 := 8, s2 := 0x20, rw := 0x7FFFFF, rsv := 0xFF800000, reset := 0x1000 }
  | .pschQShape => { base := 0x1C00108, n1 := 512, s1 := 0x800, n2 := 8, s2 := 0x20, wide := true, rw := 0x3FFFFFFFFFF, rsv := 0xFFFFFC0000000000, reset := 0x2000000000 }
  | .pschQStatus => { base := 0x1C00110, n1 := 512, s1 := 0x800, n2 := 8, s2 := 0x20, wide := true, rsv := 0xFFFFFC0000000000, reset := 0x400000000 }
  | .pschGDrr => { base := 0x1C00200, n1 := 512, s1 := 0x800, n2 := 8, s2 := 0x10, rw := 0xFF, rsv := 0xFFFFFF00, reset := 0x1 }
  | .pschGStatus => { base := 0x1C00208, n1 := 512, s1 := 0x800, n2 := 8, s2 := 0x10, rsv := 0xFFFFFE00 }
  | .pschTcmap => { base := 0x1C00280, n1 := 512, s1 := 0x800, n2 := 8, s2 := 0x4, rw := 0xFFFFFF, rsv := 0xFF000000, reset := 0xFAC688 }
  | .gateCtl => { base := 0x1C002C0, n1 := 512, s1 := 0x800, rw := 0xFFF07, wo := 0x8, rsv := 0xFFF000C0, reset := 0x76002 }
  | .gateStatus => { base := 0x1C002C8, n1 := 512, s1 := 0x800, w1c := 0x40, rsv := 0xFFFF0080, reset := 0xFF00 }
  | .gateBase => { base := 0x1C002D0, n1 := 512, s1 := 0x800, n2 := 2, s2 := 0x18, wide := true, rw := 0xFFFFFFFFFFFFFFFF }
  | .gateCycle => { base := 0x1C002D8, n1 := 512, s1 := 0x800, n2 := 2, s2 := 0x18, rw := 0xFFFFFFFF, reset := 0x3D09 }
  | .gateLen => { base := 0x1C002DC, n1 := 512, s1 := 0x800, n2 := 2, s2 := 0x18, rw := 0x7F, rsv := 0xFFFFFF80, reset := 0x1 }
  | .pschPgrp => { base := 0x1C00400, n1 := 512, s1 := 0x800, n2 := 128, s2 := 0x4, rw := 0x77777777, rsv := 0x88888888 }
  | .gateList => { base := 0x1C00600, n1 := 512, s1 := 0x800, n2 := 128, s2 := 0x4, rw := 0xFFFFFFFF, reset := 0x1FF }
  | .bucket => { base := 0x1DF0000, n1 := 4096, s1 := 0x8, wide := true, rw := 0xF, rsv := 0xFFFFFFE00000FC00 }
  | .fwdCtl => { base := 0x1FF0000, rw := 0x2, w1c := 0x10, wo := 0x1, rsv := 0xFFE0, reset := 0x2 }
  | .hashSeed => { base := 0x1FF0008, rw := 0xFFFFFFFF, reset := 0xFFFFFFFF }
  | .fwdDropP => { base := 0x1FF0010, wide := true, rsv := 0xFFFF000000000000, counter := true }
  | .fwdUrNp => { base := 0x1FF0018, wide := true, rsv := 0xFFFF000000000000, counter := true }
  | .pitchFence => { base := 0x1FF8000, n1 := 576, s1 := 0x8, wo := 0x1, rsv := 0xFFFFFFFC, reset := 0x2 }
  | .porterCtl => { base := 0x2000000, n1 := 64, s1 := 0x100, rw := 0xFFFFFFF, rsv := 0xF0000000, reset := 0x1001405 }
  | .porterStatus => { base := 0x2000008, n1 := 64, s1 := 0x100, rsv := 0xFC000000 }
  | .cplTimeout => { base := 0x2000010, n1 := 64, s1 := 0x100, wide := true, rsv := 0xFFFF000000000000, counter := true }
  | .unexpCpl => { base := 0x2000018, n1 := 64, s1 := 0x100, wide := true, rsv := 0xFFFF000000000000, counter := true }
  | .badCpl => { base := 0x2000020, n1 := 64, s1 := 0x100, wide := true, rsv := 0xFFFF000000000000, counter := true }
  | .polls => { base := 0x2000028, n1 := 64, s1 := 0x100, wide := true, rsv := 0xFFFF000000000000, counter := true }
  | .bytesRd => { base := 0x2000030, n1 := 64, s1 := 0x100, wide := true, rsv := 0xFFFF000000000000, counter := true }
  | .bytesWr => { base := 0x2000038, n1 := 64, s1 := 0x100, wide := true, rsv := 0xFFFF000000000000, counter := true }
  | .descDone => { base := 0x2000040, n1 := 64, s1 := 0x100, wide := true, rsv := 0xFFFF000000000000, counter := true }
  | .staleCpl => { base := 0x2000048, n1 := 64, s1 := 0x100, wide := true, rsv := 0xFFFF000000000000, counter := true }
  | .stallPriv => { base := 0x2010000, n1 := 16, s1 := 0x8, wide := true, rw := 0xFFFFFFFFFFFFFFFF }
  | .stallXlat => { base := 0x2020000, n1 := 1024, s1 := 0x10, wide := true, rw := 0xFFFFFFFFFF00F, rsv := 0xFFF0000000000FF0, reset := 0x8 }
  | .xlatCtl => { base := 0x2030000, n1 := 2, s1 := 0x100, rw := 0xFFFF, rsv := 0xFFFF0000, reset := 0x4064 }
  | .fqBase => { base := 0x2030008, n1 := 2, s1 := 0x100, wide := true, rw := 0xFFFFFFFFFFFFF000, rsv := 0xFFF }
  | .fqPi => { base := 0x2030010, n1 := 2, s1 := 0x100, rsv := 0xFFFFF000 }
  | .fqCi => { base := 0x2030014, n1 := 2, s1 := 0x100, rw := 0xFFF, rsv := 0xFFFFF000 }
  | .xlatStatus => { base := 0x2030018, n1 := 2, s1 := 0x100, w1c := 0x3, rsv := 0xFFFE0000 }
  | .xlatResp => { base := 0x2030020, n1 := 2, s1 := 0x100, wo := 0x7FFF, rsv := 0xFFFF8000 }
  | .xlatHits => { base := 0x2030040, n1 := 2, s1 := 0x100, wide := true, rsv := 0xFFFF000000000000, counter := true }
  | .xlatMisses => { base := 0x2030048, n1 := 2, s1 := 0x100, wide := true, rsv := 0xFFFF000000000000, counter := true }
  | .xlatFaults => { base := 0x2030050, n1 := 2, s1 := 0x100, wide := true, rsv := 0xFFFF000000000000, counter := true }
  | .autoAbort => { base := 0x2030058, n1 := 2, s1 := 0x100, wide := true, rsv := 0xFFFF000000000000, counter := true }
  | .raRefused => { base := 0x2030060, n1 := 2, s1 := 0x100, wide := true, rsv := 0xFFFF000000000000, counter := true }
  | .preempts => { base := 0x2030068, n1 := 2, s1 := 0x100, wide := true, rsv := 0xFFFF000000000000, counter := true }
  | .unexpPrg => { base := 0x2030070, n1 := 2, s1 := 0x100, wide := true, rsv := 0xFFFF000000000000, counter := true }
  | .xlatInvCtl => { base := 0x2030400, w1c := 0x80000, wo := 0x3FFFF, rsv := 0xFFF00000 }
  | .xlatInvAddr => { base := 0x2030408, wide := true, rw := 0xFFFFFFFFFFFFF000, rsv := 0xFFF }
  | .ringSave => { base := 0x2040000, n1 := 1024, s1 := 0x80, n2 := 8, s2 := 0x10, wide := true, rsv := 0xFFF8000000000000 }
  | .stallBind => { base := 0x2060000, n1 := 1024, s1 := 0x20, rw := 0x7F, rsv := 0xFFFFFF80 }
  | .stallShare => { base := 0x2060008, n1 := 1024, s1 := 0x20, wide := true, rw := 0x3FFFFFFFFFFFF, rsv := 0xFFFC000000000000, reset := 0x200000000010 }
  | .stallSched => { base := 0x2060010, n1 := 1024, s1 := 0x20, wide := true, rsv := 0xFFFFC00000000000, reset := 0x4000000000 }
  | .stallMgrStatus => { base := 0x2060018, n1 := 1024, s1 := 0x20, w1c := 0x20000, rsv := 0xFFFC0000 }
  | .mbMgrOut => { base := 0x2080000, n1 := 1024, s1 := 0x400, n2 := 64, s2 := 0x4 }
  | .mbMgrIn => { base := 0x2080100, n1 := 1024, s1 := 0x400, n2 := 64, s2 := 0x4, rw := 0xFFFFFFFF }
  | .mbMgrCtl => { base := 0x2080200, n1 := 1024, s1 := 0x400, rw := 0xFE, w1c := 0x140000, wo := 0x80401, rsv := 0xFFE00000, reset := 0x2 }
  | .ledgerCtx => { base := 0x2180000, n1 := 256, s1 := 0x40, wide := true, rw := 0xFFFFFFFFFFFFFFFF }
  | .ledgerPageBase => { base := 0x2180008, n1 := 256, s1 := 0x40, wide := true, rw := 0xFFFFFFFFFFFFF, rsv := 0xFFF0000000000000 }
  | .ledgerPages => { base := 0x2180010, n1 := 256, s1 := 0x40, rw := 0xFFFFFFFF }
  | .ledgerFlushIv => { base := 0x2180014, n1 := 256, s1 := 0x40, rw := 0x1FFFF, rsv := 0xFFFE0000, reset := 0x3E8 }
  | .ledgerBitmapA => { base := 0x2180018, n1 := 256, s1 := 0x40, wide := true, rw := 0xFFFFFFFFFFFFF000, rsv := 0xFFF }
  | .ledgerBitmapB => { base := 0x2180020, n1 := 256, s1 := 0x40, wide := true, rw := 0xFFFFFFFFFFFFF000, rsv := 0xFFF }
  | .ledgerMarks => { base := 0x2180030, n1 := 256, s1 := 0x40, wide := true, rsv := 0xFFFF000000000000, counter := true }
  | .ledgerCmd => { base := 0x2180028, n1 := 256, s1 := 0x40, w1c := 0x1E0, wo := 0x3, rsv := 0xFFFFF800, reset := 0xC }
  | .mbPending => { base := 0x2188000, n1 := 16, s1 := 0x8, wide := true, w1c := 0xFFFFFFFFFFFFFFFF }
  | .mbGlobal => { base := 0x2188080, rw := 0xF, rsv := 0xFFFFFFF0 }
  | .pitch => { base := 0x2800000, n1 := 64, s1 := 0x4000, n2 := 4096, s2 := 0x4, rw := 0xFF03FF, rsv := 0xFF00FC00 }
  | .pitchChk => { base := 0x2900000, n1 := 576, s1 := 0x8, rw := 0x7F, w1c := 0x100, rsv := 0xFFFFFE80 }
  | .pitchFaultCnt => { base := 0x2910000, n1 := 576, s1 := 0x8, wide := true, rsv := 0xFFFF000000000000, counter := true }
  | .partDefmap => { base := 0x2920000, n1 := 128, s1 := 0x4, rw := 0xFF03FF, rsv := 0xFF00FC00 }
  | .pitchSeal => { base := 0x2930000, wide := true, w1s := 0xFFFFFFFFFFFFFFFF }
  | .winSeal => { base := 0x2930008, n1 := 2, s1 := 0x8, wide := true, w1s := 0xFFFFFFFFFFFFFFFF }
  | .pitchFaultLog => { base := 0x2930020, wide := true, w1c := 0x8000000000000000, rsv := 0x7FFFFFC000000000 }
  | .dbgDenied => { base := 0x2930028, wide := true, w1c := 0x8000000000000000, rsv := 0x7FFF000000000000 }
  | .spcCfg => { base := 0x3000000, n1 := 32, s1 := 0x100, wide := true, rw := 0x3FFFFFFFFFFF1F, rsv := 0xFFC00000000000E0, reset := 0x6501400643200 }
  | .spcStatus => { base := 0x3000008, n1 := 32, s1 := 0x100, w1c := 0x1F80000, rsv := 0xFE000000 }
  | .spcMeas => { base := 0x3000010, n1 := 32, s1 := 0x100, wide := true, rsv := 0xF000F000F000F000 }
  | .clkStatus => { base := 0x3080000, n1 := 2, s1 := 0x40, w1c := 0x1C2, rsv := 0xFF00FE00, reset := 0x20 }
  | .droopCtl => { base := 0x3080008, n1 := 2, s1 := 0x40, rw := 0x3FFFFFF, rsv := 0xFC000000, reset := 0x14878C }
  | .droopStatus => { base := 0x3080010, n1 := 2, s1 := 0x40, wide := true }
  | .thermStatus => { base := 0x3080018, n1 := 2, s1 := 0x40, rsv := 0xFFFFE000 }
  | .thermCtl => { base := 0x3080080, rw := 0xFF, rsv := 0xFFFFFF00, reset := 0x69 }
  | .pwrStatus => { base := 0x3080088, w1c := 0x1, rsv := 0xFFFFFE00 }
  | .droopEvents => { base := 0x3080100, n1 := 2, s1 := 0x40, wide := true, rsv := 0xFFFF000000000000, counter := true }
  | .cclkDiv5Cyc => { base := 0x3080108, n1 := 2, s1 := 0x40, wide := true, rsv := 0xFFFF000000000000, counter := true }
  | .cclkDiv6Cyc => { base := 0x3080110, n1 := 2, s1 := 0x40, wide := true, rsv := 0xFFFF000000000000, counter := true }
  | .cdcLost => { base := 0x3080118, n1 := 2, s1 := 0x40, wide := true, rsv := 0xFFFF000000000000, counter := true }
  | .clkSris => { base := 0x3080200, n1 := 8, s1 := 0x8, wide := true, rw := 0xFFFFFFFFFFFFFFFF }
  | .domainCtl => { base := 0x3081000, n1 := 208, s1 := 0x8, rws := 0x3, rsv := 0xFFFFFFFC, reset := 0x2 }
  | .domainState => { base := 0x3081800, n1 := 208, s1 := 0x8, rsv := 0xFFFFFFC0, reset := 0x8 }
  | .hallCtl => { base := 0x3100000, rw := 0x1FFFFFFF, w1c := 0x20000000, rsv := 0xC0000000 }
  | .hallStatus => { base := 0x3100008, wide := true, w1c := 0x400020000000000, rsv := 0xF800000000000000 }
  | .hallCommitRec => { base := 0x3100010, wide := true, rws := 0x1FFFFFFFF, rsv := 0xFFFFFFFE00000000 }
  | .hallTimers => { base := 0x3100018, rw := 0xFFFFFFFF, reset := 0x1414050A }
  | .hallMsgDrop => { base := 0x3100020, wide := true, rsv := 0xFFFF000000000000, counter := true }
  | .loopDrop => { base := 0x3100028, wide := true, rsv := 0xFFFF000000000000, counter := true }
  | .lockState => { base := 0x3100800, n1 := 16, s1 := 0x8, rsv := 0xFFFFC000 }
  | .twinCtl => { base := 0x3101000, rw := 0x3FFFF, w1c := 0x40000, rsv := 0xFFF80000 }
  | .twinTimers => { base := 0x3101008, rw := 0xFFFF, rsv := 0xFFFF0000, reset := 0x64 }
  | .twinRoute => { base := 0x3101010, wide := true, rw := 0x7FFFFFFFFF, rsv := 0xFFFFFF8000000000 }
  | .twinStatus => { base := 0x3101018, w1c := 0x4, rsv := 0xFFC00000 }
  | .twinHold => { base := 0x3101020, n1 := 2, s1 := 0x8, rw := 0xFFFF, rsv := 0xFFFF0000, reset := 0x1000 }
  | .dupDrop => { base := 0x3101040, wide := true, rsv := 0xFFFF000000000000, counter := true }
  | .gapSkip => { base := 0x3101048, wide := true, rsv := 0xFFFF000000000000, counter := true }
  | .lateDrop => { base := 0x3101050, wide := true, rsv := 0xFFFF000000000000, counter := true }
  | .holdFull => { base := 0x3101058, wide := true, rsv := 0xFFFF000000000000, counter := true }
  | .transitDrop => { base := 0x3101060, wide := true, rsv := 0xFFFF000000000000, counter := true }
  | .tallyCtl => { base := 0x3180000, rw := 0xFFFF21, wo := 0xE, rsv := 0xFF000080, reset := 0x6420 }
  | .tallyStatus => { base := 0x3180008, w1c := 0xFFFF0001, rsv := 0xFFFE }
  | .tallySnapTime => { base := 0x3180010, wide := true }
  | .tallySet => { base := 0x3180100, n1 := 16, s1 := 0x20, rw := 0x3FF, rsv := 0xFFFFFC00 }
  | .tallyListAddr => { base := 0x3180108, n1 := 16, s1 := 0x20, wide := true, rw := 0xFFFFFFFFFFFFFFFC, rsv := 0x3 }
  | .tallyPageAddr => { base := 0x3180110, n1 := 16, s1 := 0x20, wide := true, rw := 0xFFFFFFFFFFFFF000, rsv := 0xFFF }
  | .tallySeq => { base := 0x3180118, n1 := 16, s1 := 0x20, wide := true }
  | .tallyUserEn => { base := 0x3180400, n1 := 16, s1 := 0x8, wide := true, rw := 0xFFFFFFFFFFFFFFFF }
  | .timeCtl => { base := 0x3181000, rw := 0x1FFFFF, rsv := 0xFFE00000, reset := 0x14000 }
  | .timeAdj => { base := 0x3181008, rw := 0xFFFFFF, rsv := 0xFF000000, reset := 0x3E8 }
  | .timeStatus => { base := 0x3181010, wide := true, w1c := 0xE, rsv := 0xFFFFFFF0 }
  | .timeNow => { base := 0x3181018, wide := true }
  | .timeSetReg => { base := 0x3181020, wide := true, wo := 0xFFFFFFFFFFFFFFFF }
  | .timeIncr => { base := 0x3181028, wide := true, reset := 0x800000000 }
  | .baseIncr => { base := 0x3181030, wide := true, reset := 0x800000000 }
  | .resetCtl => { base := 0x3200000, rw := 0xFE, wo := 0x101, rsv := 0xFFFFFE00 }
  | .resetStatus => { base := 0x3200008, rws := 0xFFFF0000, w1c := 0x20, rsv := 0xFFC0 }
  | .roleStatus => { base := 0x3200010, w1c := 0x100, rsv := 0xFFFFFE00 }
  | .bootStatus => { base := 0x3200018, wide := true }
  | .lcState => { base := 0x3200100, rsv := 0xFFFFFF00 }
  | .lcCtl => { base := 0x3200108, rw := 0x3, w1c := 0x40, wo := 0xC, rsv := 0xFFFFFF80 }
  | .dieSerial => { base := 0x3201000, n1 := 2, s1 := 0x8, wide := true }
  | .lcFuse => { base := 0x3201010, n1 := 2, s1 := 0x8, rsv := 0xFFFFF8F8 }
  | .stallCtl => { base := 0x0, n1 := 1024, s1 := 0x0, form := .stall, rw := 0x7F, rsv := 0xFFFFFF80, reset := 0x20 }
  | .dbAddr => { base := 0x8, n1 := 1024, s1 := 0x0, wide := true, form := .stall, rw := 0xFFFFFFFFFFFFFFC0, rsv := 0x3F }
  | .stallStatus => { base := 0x10, n1 := 1024, s1 := 0x0, form := .stall, w1c := 0x2, rsv := 0xFFFFFC00 }
  | .ringBase => { base := 0x100, n1 := 1024, s1 := 0x0, n2 := 8, s2 := 0x40, wide := true, form := .stall, rw := 0xFFFFFFFFFFFFF000, rsv := 0xFFF }
  | .cqBase => { base := 0x108, n1 := 1024, s1 := 0x0, n2 := 8, s2 := 0x40, wide := true, form := .stall, rw := 0xFFFFFFFFFFFFF000, rsv := 0xFFF }
  | .ringCtl => { base := 0x110, n1 := 1024, s1 := 0x0, n2 := 8, s2 := 0x40, wide := true, form := .stall, rw := 0xFFFFF0001FFFF, wo := 0x20000, rsv := 0xFFF00000FFFC0000, reset := 0x8 }
  | .ringStart => { base := 0x118, n1 := 1024, s1 := 0x0, n2 := 8, s2 := 0x40, form := .stall, rw := 0xFFFF, rsv := 0xFFFF0000 }
  | .ringStatus => { base := 0x120, n1 := 1024, s1 := 0x0, n2 := 8, s2 := 0x40, wide := true, form := .stall, rsv := 0xFFFF0000F0000000, reset := 0x80000 }
  | .mbOut => { base := 0x1000, n1 := 1024, s1 := 0x0, n2 := 64, s2 := 0x4, form := .stall, rw := 0xFFFFFFFF }
  | .mbIn => { base := 0x1100, n1 := 1024, s1 := 0x0, n2 := 64, s2 := 0x4, form := .stall }
  | .mbCtl => { base := 0x1200, n1 := 1024, s1 := 0x0, form := .stall, rw := 0x3C00FE, wo := 0x401, rsv := 0xFFC00000, reset := 0x2 }
  | .tallyPage => { base := 0x1800, n1 := 1024, s1 := 0x0, wide := true, form := .stall, rw := 0xFFFFFFFFFFFFF001, w1c := 0x4, rsv := 0xFF8 }

/-- A field of a register: its kind, its lowest bit and its width. -/
structure Fld where
  kind : RegKind
  lo : Nat
  w : Nat
  deriving DecidableEq, Repr

/-- `SVC_CTL.MGMT_EN` [0], RW. -/
def F.SVC_CTL_MGMT_EN : Fld := ⟨.svcCtl, 0, 1⟩
/-- `SVC_CTL.MGMT_PART` [7:1], RW. -/
def F.SVC_CTL_MGMT_PART : Fld := ⟨.svcCtl, 1, 7⟩
/-- `SVC_CTL.PORTER_EN` [8], RW. -/
def F.SVC_CTL_PORTER_EN : Fld := ⟨.svcCtl, 8, 1⟩
/-- `SVC_CTL.PORTER_PART` [15:9], RW. -/
def F.SVC_CTL_PORTER_PART : Fld := ⟨.svcCtl, 9, 7⟩
/-- `SVC_CTL.SVC_CFG_ERR` [16], W1C. -/
def F.SVC_CTL_SVC_CFG_ERR : Fld := ⟨.svcCtl, 16, 1⟩
/-- `XB_CTL.N` [7:0], RW. -/
def F.XB_CTL_N : Fld := ⟨.xbCtl, 0, 8⟩
/-- `XB_RESERVED.COUNT` [47:0], RO. -/
def F.XB_RESERVED_COUNT : Fld := ⟨.xbReserved, 0, 48⟩
/-- `XB_HINT_MISS.COUNT` [47:0], RO. -/
def F.XB_HINT_MISS_COUNT : Fld := ⟨.xbHintMiss, 0, 48⟩
/-- `XB_DEBUG_PREEMPT.COUNT` [47:0], RO. -/
def F.XB_DEBUG_PREEMPT_COUNT : Fld := ⟨.xbDebugPreempt, 0, 48⟩
/-- `EVQ_STATUS.OCCUPANCY` [5:0], RO. -/
def F.EVQ_STATUS_OCCUPANCY : Fld := ⟨.evqStatus, 0, 6⟩
/-- `EVQ_STATUS.ALERT` [6], RO. -/
def F.EVQ_STATUS_ALERT : Fld := ⟨.evqStatus, 6, 1⟩
/-- `EVQ_STATUS.CURRENT` [7], RO. -/
def F.EVQ_STATUS_CURRENT : Fld := ⟨.evqStatus, 7, 1⟩
/-- `EVQ_STATUS.BACKLOG` [16:8], RO. -/
def F.EVQ_STATUS_BACKLOG : Fld := ⟨.evqStatus, 8, 9⟩
/-- `EVQ_CMD.DROP_REST` [0], WO. -/
def F.EVQ_CMD_DROP_REST : Fld := ⟨.evqCmd, 0, 1⟩
/-- `EVQ_CMD.FLUSH` [1], WO. -/
def F.EVQ_CMD_FLUSH : Fld := ⟨.evqCmd, 1, 1⟩
/-- `EVQ_WM.HIGH` [5:0], RW. -/
def F.EVQ_WM_HIGH : Fld := ⟨.evqWm, 0, 6⟩
/-- `EVQ_WM.LOW` [13:8], RW. -/
def F.EVQ_WM_LOW : Fld := ⟨.evqWm, 8, 6⟩
/-- `EVQ_DROPPED.COUNT` [47:0], RO. -/
def F.EVQ_DROPPED_COUNT : Fld := ⟨.evqDropped, 0, 48⟩
/-- `EVQ_FLUSHED.COUNT` [47:0], RO. -/
def F.EVQ_FLUSHED_COUNT : Fld := ⟨.evqFlushed, 0, 48⟩
/-- `FLT_STATUS.ASSERTED` [0], RO. -/
def F.FLT_STATUS_ASSERTED : Fld := ⟨.fltStatus, 0, 1⟩
/-- `FLT_STATUS.BLOCK_SAFE` [1], RO. -/
def F.FLT_STATUS_BLOCK_SAFE : Fld := ⟨.fltStatus, 1, 1⟩
/-- `FLT_STATUS.STANDOFF` [2], RO. -/
def F.FLT_STATUS_STANDOFF : Fld := ⟨.fltStatus, 2, 1⟩
/-- `FLT_STATUS.THERM_TRIP` [3], RO. -/
def F.FLT_STATUS_THERM_TRIP : Fld := ⟨.fltStatus, 3, 1⟩
/-- `FLT_STATUS.DEVICE_SAFE` [4], RO. -/
def F.FLT_STATUS_DEVICE_SAFE : Fld := ⟨.fltStatus, 4, 1⟩
/-- `FLT_STATUS.CTRL_BOTH` [5], RO. -/
def F.FLT_STATUS_CTRL_BOTH : Fld := ⟨.fltStatus, 5, 1⟩
/-- `FLT_STATUS.FIRST_BLOCK` [14:8], RWS. -/
def F.FLT_STATUS_FIRST_BLOCK : Fld := ⟨.fltStatus, 8, 7⟩
/-- `FLT_STATUS.FIRST_VALID` [15], W1C. -/
def F.FLT_STATUS_FIRST_VALID : Fld := ⟨.fltStatus, 15, 1⟩
/-- `ERR_STATUS.EVENT` [0], RO. -/
def F.ERR_STATUS_EVENT : Fld := ⟨.errStatus, 0, 1⟩
/-- `ERR_STATUS.INT_ERR` [1], W1C. -/
def F.ERR_STATUS_INT_ERR : Fld := ⟨.errStatus, 1, 1⟩
/-- `ERR_STATUS.SAFE` [2], RO. -/
def F.ERR_STATUS_SAFE : Fld := ⟨.errStatus, 2, 1⟩
/-- `ERR_STATUS.SAFE_CAUSE` [5:3], RO. -/
def F.ERR_STATUS_SAFE_CAUSE : Fld := ⟨.errStatus, 3, 3⟩
/-- `ERR_STATUS.SIGNALLED` [6], RO. -/
def F.ERR_STATUS_SIGNALLED : Fld := ⟨.errStatus, 6, 1⟩
/-- `ERR_EN.EVENT_EN` [0], RW. -/
def F.ERR_EN_EVENT_EN : Fld := ⟨.errEn, 0, 1⟩
/-- `ERR_EN.INT_ERR_EN` [1], RW. -/
def F.ERR_EN_INT_ERR_EN : Fld := ⟨.errEn, 1, 1⟩
/-- `ERR_EN.SAFE_EN` [2], RW. -/
def F.ERR_EN_SAFE_EN : Fld := ⟨.errEn, 2, 1⟩
/-- `ERR_EN.FLT_EN` [3], RW. -/
def F.ERR_EN_FLT_EN : Fld := ⟨.errEn, 3, 1⟩
/-- `ERR_ROUTE.VEC` [3:0], RW. -/
def F.ERR_ROUTE_VEC : Fld := ⟨.errRoute, 0, 4⟩
/-- `ERR_ROUTE.MSIX` [4], RW. -/
def F.ERR_ROUTE_MSIX : Fld := ⟨.errRoute, 4, 1⟩
/-- `ERR_ROUTE.CTRL` [5], RW. -/
def F.ERR_ROUTE_CTRL : Fld := ⟨.errRoute, 5, 1⟩
/-- `ERR_PARITY_LOG.OFFSET` [25:0], RO. -/
def F.ERR_PARITY_LOG_OFFSET : Fld := ⟨.errParityLog, 0, 26⟩
/-- `ERR_PARITY_LOG.VALID` [31], RO. -/
def F.ERR_PARITY_LOG_VALID : Fld := ⟨.errParityLog, 31, 1⟩
/-- `ERR_INJECT.PARITY` [0], WO. -/
def F.ERR_INJECT_PARITY : Fld := ⟨.errInject, 0, 1⟩
/-- `ERR_INJECT.MEM_CORR` [1], WO. -/
def F.ERR_INJECT_MEM_CORR : Fld := ⟨.errInject, 1, 1⟩
/-- `ERR_INJECT.MEM_UNCORR` [2], WO. -/
def F.ERR_INJECT_MEM_UNCORR : Fld := ⟨.errInject, 2, 1⟩
/-- `ERR_INJECT.SAFE` [3], WO. -/
def F.ERR_INJECT_SAFE : Fld := ⟨.errInject, 3, 1⟩
/-- `ERR_INJECT.OFFSET` [31:6], WO. -/
def F.ERR_INJECT_OFFSET : Fld := ⟨.errInject, 6, 26⟩
/-- `PORTER_SAFE_UNITS.PORTER` [31:0], RO. -/
def F.PORTER_SAFE_UNITS_PORTER : Fld := ⟨.porterSafeUnits, 0, 32⟩
/-- `PORTER_SAFE_UNITS.LEDGER` [32], RO. -/
def F.PORTER_SAFE_UNITS_LEDGER : Fld := ⟨.porterSafeUnits, 32, 1⟩
/-- `MEM_CORR.COUNT` [47:0], RO. -/
def F.MEM_CORR_COUNT : Fld := ⟨.memCorr, 0, 48⟩
/-- `MEM_UNCORR.COUNT` [47:0], RO. -/
def F.MEM_UNCORR_COUNT : Fld := ⟨.memUncorr, 0, 48⟩
/-- `PART_CTL.EN` [0], RW. -/
def F.PART_CTL_EN : Fld := ⟨.partCtl, 0, 1⟩
/-- `PART_CTL.RESET` [1], WO. -/
def F.PART_CTL_RESET : Fld := ⟨.partCtl, 1, 1⟩
/-- `PART_CTL.USP_PORT` [10:2], RW. -/
def F.PART_CTL_USP_PORT : Fld := ⟨.partCtl, 2, 9⟩
/-- `PART_CTL.USP_MEMBER` [14:11], RW. -/
def F.PART_CTL_USP_MEMBER : Fld := ⟨.partCtl, 11, 4⟩
/-- `PART_CTL.PART_CFG_ERR` [15], W1C. -/
def F.PART_CTL_PART_CFG_ERR : Fld := ⟨.partCtl, 15, 1⟩
/-- `PART_CTL.HALL_PART` [25:16], RW. -/
def F.PART_CTL_HALL_PART : Fld := ⟨.partCtl, 16, 10⟩
/-- `SB_CTL.EN` [0], RW. -/
def F.SB_CTL_EN : Fld := ⟨.sbCtl, 0, 1⟩
/-- `SB_CTL.DIV` [8:1], RW. -/
def F.SB_CTL_DIV : Fld := ⟨.sbCtl, 1, 8⟩
/-- `SB_CTL.LENGTH` [13:9], RW. -/
def F.SB_CTL_LENGTH : Fld := ⟨.sbCtl, 9, 5⟩
/-- `SB_CTL.CHAIN_FAULT` [14], W1C. -/
def F.SB_CTL_CHAIN_FAULT : Fld := ⟨.sbCtl, 14, 1⟩
/-- `SB_CTL.SB_CFG_ERR` [15], W1C. -/
def F.SB_CTL_SB_CFG_ERR : Fld := ⟨.sbCtl, 15, 1⟩
/-- `LANE_STATUS.RATE` [2:0], RO. -/
def F.LANE_STATUS_RATE : Fld := ⟨.laneStatus, 0, 3⟩
/-- `LANE_STATUS.RX_LOCK` [3], RO. -/
def F.LANE_STATUS_RX_LOCK : Fld := ⟨.laneStatus, 3, 1⟩
/-- `LANE_STATUS.CODE_LOCK` [4], RO. -/
def F.LANE_STATUS_CODE_LOCK : Fld := ⟨.laneStatus, 4, 1⟩
/-- `LANE_STATUS.DESKEWED` [5], RO. -/
def F.LANE_STATUS_DESKEWED : Fld := ⟨.laneStatus, 5, 1⟩
/-- `LANE_STATUS.POLARITY_INV` [6], RO. -/
def F.LANE_STATUS_POLARITY_INV : Fld := ⟨.laneStatus, 6, 1⟩
/-- `LANE_STATUS.CONDEMNED` [7], W1C. -/
def F.LANE_STATUS_CONDEMNED : Fld := ⟨.laneStatus, 7, 1⟩
/-- `LANE_STATUS.SUBSTITUTED` [8], RO. -/
def F.LANE_STATUS_SUBSTITUTED : Fld := ⟨.laneStatus, 8, 1⟩
/-- `LANE_STATUS.LOGICAL_LANE` [15:12], RO. -/
def F.LANE_STATUS_LOGICAL_LANE : Fld := ⟨.laneStatus, 12, 4⟩
/-- `LANE_EQ_CTL.MODE` [1:0], RW. -/
def F.LANE_EQ_CTL_MODE : Fld := ⟨.laneEqCtl, 0, 2⟩
/-- `LANE_EQ_CTL.FIXED_PRESET` [5:2], RW. -/
def F.LANE_EQ_CTL_FIXED_PRESET : Fld := ⟨.laneEqCtl, 2, 4⟩
/-- `LANE_EQ_CTL.EVAL_TIME` [15:8], RW. -/
def F.LANE_EQ_CTL_EVAL_TIME : Fld := ⟨.laneEqCtl, 8, 8⟩
/-- `LANE_EQ_CTL.MAX_REQ` [21:16], RW. -/
def F.LANE_EQ_CTL_MAX_REQ : Fld := ⟨.laneEqCtl, 16, 6⟩
/-- `LANE_EQ_STATUS.FINAL_PRESET` [3:0], RO. -/
def F.LANE_EQ_STATUS_FINAL_PRESET : Fld := ⟨.laneEqStatus, 0, 4⟩
/-- `LANE_EQ_STATUS.C_M1` [9:4], RO. -/
def F.LANE_EQ_STATUS_C_M1 : Fld := ⟨.laneEqStatus, 4, 6⟩
/-- `LANE_EQ_STATUS.C_P1` [15:10], RO. -/
def F.LANE_EQ_STATUS_C_P1 : Fld := ⟨.laneEqStatus, 10, 6⟩
/-- `LANE_EQ_STATUS.C_M2` [21:16], RO. -/
def F.LANE_EQ_STATUS_C_M2 : Fld := ⟨.laneEqStatus, 16, 6⟩
/-- `LANE_EQ_STATUS.REQ_COUNT` [27:22], RO. -/
def F.LANE_EQ_STATUS_REQ_COUNT : Fld := ⟨.laneEqStatus, 22, 6⟩
/-- `LANE_EQ_STATUS.REJECTED` [28], RO. -/
def F.LANE_EQ_STATUS_REJECTED : Fld := ⟨.laneEqStatus, 28, 1⟩
/-- `LANE_EQ_STATUS.EQ_DONE` [29], RO. -/
def F.LANE_EQ_STATUS_EQ_DONE : Fld := ⟨.laneEqStatus, 29, 1⟩
/-- `LANE_EQ_STATUS.PRECODE` [30], RO. -/
def F.LANE_EQ_STATUS_PRECODE : Fld := ⟨.laneEqStatus, 30, 1⟩
/-- `LANE_FEC_CORR.COUNT` [47:0], RO. -/
def F.LANE_FEC_CORR_COUNT : Fld := ⟨.laneFecCorr, 0, 48⟩
/-- `LANE_CODE_ERR.COUNT` [47:0], RO. -/
def F.LANE_CODE_ERR_COUNT : Fld := ⟨.laneCodeErr, 0, 48⟩
/-- `LANE_PRBS_CTL.TX_EN` [0], RW. -/
def F.LANE_PRBS_CTL_TX_EN : Fld := ⟨.lanePrbsCtl, 0, 1⟩
/-- `LANE_PRBS_CTL.RX_EN` [1], RW. -/
def F.LANE_PRBS_CTL_RX_EN : Fld := ⟨.lanePrbsCtl, 1, 1⟩
/-- `LANE_PRBS_CTL.PATTERN` [5:2], RW. -/
def F.LANE_PRBS_CTL_PATTERN : Fld := ⟨.lanePrbsCtl, 2, 4⟩
/-- `LANE_PRBS_CTL.CLEAR` [6], WO. -/
def F.LANE_PRBS_CTL_CLEAR : Fld := ⟨.lanePrbsCtl, 6, 1⟩
/-- `LANE_PRBS_CTL.LOCKED` [7], RO. -/
def F.LANE_PRBS_CTL_LOCKED : Fld := ⟨.lanePrbsCtl, 7, 1⟩
/-- `LANE_PRBS_CTL.INJ_ONE` [8], WO. -/
def F.LANE_PRBS_CTL_INJ_ONE : Fld := ⟨.lanePrbsCtl, 8, 1⟩
/-- `LANE_PRBS_CTL.INJ_EXP` [13:9], RW. -/
def F.LANE_PRBS_CTL_INJ_EXP : Fld := ⟨.lanePrbsCtl, 9, 5⟩
/-- `LANE_PRBS_ERR.COUNT` [47:0], RO. -/
def F.LANE_PRBS_ERR_COUNT : Fld := ⟨.lanePrbsErr, 0, 48⟩
/-- `LANE_PRBS_USER.PATTERN` [63:0], RW. -/
def F.LANE_PRBS_USER_PATTERN : Fld := ⟨.lanePrbsUser, 0, 64⟩
/-- `PORT_CTL.EN` [0], RW. -/
def F.PORT_CTL_EN : Fld := ⟨.portCtl, 0, 1⟩
/-- `PORT_CTL.ROLE` [2:1], RW. -/
def F.PORT_CTL_ROLE : Fld := ⟨.portCtl, 1, 2⟩
/-- `PORT_CTL.PART` [9:3], RW. -/
def F.PORT_CTL_PART : Fld := ⟨.portCtl, 3, 7⟩
/-- `PORT_CTL.VNUM` [17:10], RW. -/
def F.PORT_CTL_VNUM : Fld := ⟨.portCtl, 10, 8⟩
/-- `PORT_CTL.MAX_RATE` [20:18], RW. -/
def F.PORT_CTL_MAX_RATE : Fld := ⟨.portCtl, 18, 3⟩
/-- `PORT_CTL.L0P_INIT` [21], RW. -/
def F.PORT_CTL_L0P_INIT : Fld := ⟨.portCtl, 21, 1⟩
/-- `PORT_CTL.PORT_CFG_ERR` [22], W1C. -/
def F.PORT_CTL_PORT_CFG_ERR : Fld := ⟨.portCtl, 22, 1⟩
/-- `PORT_STATUS.LTSSM` [3:0], RO. -/
def F.PORT_STATUS_LTSSM : Fld := ⟨.portStatus, 0, 4⟩
/-- `PORT_STATUS.DL_ACTIVE` [4], RO. -/
def F.PORT_STATUS_DL_ACTIVE : Fld := ⟨.portStatus, 4, 1⟩
/-- `PORT_STATUS.WIDTH` [9:5], RO. -/
def F.PORT_STATUS_WIDTH : Fld := ⟨.portStatus, 5, 5⟩
/-- `PORT_STATUS.RATE` [12:10], RO. -/
def F.PORT_STATUS_RATE : Fld := ⟨.portStatus, 10, 3⟩
/-- `PORT_STATUS.FLIT` [13], RO. -/
def F.PORT_STATUS_FLIT : Fld := ⟨.portStatus, 13, 1⟩
/-- `PORT_STATUS.GEN` [31:16], RO. -/
def F.PORT_STATUS_GEN : Fld := ⟨.portStatus, 16, 16⟩
/-- `PORT_PM_CTL.L0S_IDLE` [7:0], RW. -/
def F.PORT_PM_CTL_L0S_IDLE : Fld := ⟨.portPmCtl, 0, 8⟩
/-- `PORT_PM_CTL.L1_IDLE` [15:8], RW. -/
def F.PORT_PM_CTL_L1_IDLE : Fld := ⟨.portPmCtl, 8, 8⟩
/-- `SLOT_CFG.SLOT_EN` [0], RW. -/
def F.SLOT_CFG_SLOT_EN : Fld := ⟨.slotCfg, 0, 1⟩
/-- `SLOT_CFG.BTN` [1], RW. -/
def F.SLOT_CFG_BTN : Fld := ⟨.slotCfg, 1, 1⟩
/-- `SLOT_CFG.MRL` [2], RW. -/
def F.SLOT_CFG_MRL : Fld := ⟨.slotCfg, 2, 1⟩
/-- `SLOT_CFG.SURPRISE` [3], RW. -/
def F.SLOT_CFG_SURPRISE : Fld := ⟨.slotCfg, 3, 1⟩
/-- `SLOT_CFG.AUTO_POWER` [4], RW. -/
def F.SLOT_CFG_AUTO_POWER : Fld := ⟨.slotCfg, 4, 1⟩
/-- `SLOT_CFG.HP_RETRY_TIME` [15:5], RW. -/
def F.SLOT_CFG_HP_RETRY_TIME : Fld := ⟨.slotCfg, 5, 11⟩
/-- `SLOT_CFG.PSN` [28:16], RW. -/
def F.SLOT_CFG_PSN : Fld := ⟨.slotCfg, 16, 13⟩
/-- `SLOT_CFG.SPLV` [39:32], RW. -/
def F.SLOT_CFG_SPLV : Fld := ⟨.slotCfg, 32, 8⟩
/-- `SLOT_CFG.SPLS` [41:40], RW. -/
def F.SLOT_CFG_SPLS : Fld := ⟨.slotCfg, 40, 2⟩
/-- `SLOT_STATE.STATE` [2:0], RO. -/
def F.SLOT_STATE_STATE : Fld := ⟨.slotState, 0, 3⟩
/-- `SLOT_STATE.COOL_LEFT` [15:3], RO. -/
def F.SLOT_STATE_COOL_LEFT : Fld := ⟨.slotState, 3, 13⟩
/-- `SLOT_STATE.PRESENCE_BOUNCE` [31:16], RO. -/
def F.SLOT_STATE_PRESENCE_BOUNCE : Fld := ⟨.slotState, 16, 16⟩
/-- `NERUP_CTL.REPLAY_NUM` [2:0], RW. -/
def F.NERUP_CTL_REPLAY_NUM : Fld := ⟨.nerupCtl, 0, 3⟩
/-- `NERUP_CTL.REPLAY_TIMEOUT` [10:3], RW. -/
def F.NERUP_CTL_REPLAY_TIMEOUT : Fld := ⟨.nerupCtl, 3, 8⟩
/-- `NERUP_STATUS.STATE` [2:0], RO. -/
def F.NERUP_STATUS_STATE : Fld := ⟨.nerupStatus, 0, 3⟩
/-- `NERUP_STATUS.PEER_MEMBER` [6:3], RO. -/
def F.NERUP_STATUS_PEER_MEMBER : Fld := ⟨.nerupStatus, 3, 4⟩
/-- `NERUP_STATUS.PEER_PORT` [15:7], RO. -/
def F.NERUP_STATUS_PEER_PORT : Fld := ⟨.nerupStatus, 7, 9⟩
/-- `NERUP_STATUS.HALL_MISMATCH` [16], W1C. -/
def F.NERUP_STATUS_HALL_MISMATCH : Fld := ⟨.nerupStatus, 16, 1⟩
/-- `NERUP_STATUS.RATE_FAIL` [17], W1C. -/
def F.NERUP_STATUS_RATE_FAIL : Fld := ⟨.nerupStatus, 17, 1⟩
/-- `NERUP_STATUS.LINK_FAIL` [18], W1C. -/
def F.NERUP_STATUS_LINK_FAIL : Fld := ⟨.nerupStatus, 18, 1⟩
/-- `NERUP_STATUS.FAILOVER_PURGE` [19], W1C. -/
def F.NERUP_STATUS_FAILOVER_PURGE : Fld := ⟨.nerupStatus, 19, 1⟩
/-- `NERUP_STATUS.TRAIN_TRIES` [21:20], RO. -/
def F.NERUP_STATUS_TRAIN_TRIES : Fld := ⟨.nerupStatus, 20, 2⟩
/-- `NERUP_REPLAY.COUNT` [47:0], RO. -/
def F.NERUP_REPLAY_COUNT : Fld := ⟨.nerupReplay, 0, 48⟩
/-- `NERUP_MOVED.COUNT` [47:0], RO. -/
def F.NERUP_MOVED_COUNT : Fld := ⟨.nerupMoved, 0, 48⟩
/-- `NERUP_UNSURE.COUNT` [47:0], RO. -/
def F.NERUP_UNSURE_COUNT : Fld := ⟨.nerupUnsure, 0, 48⟩
/-- `ROW_SPLIT.TREE` [14:0], RW. -/
def F.ROW_SPLIT_TREE : Fld := ⟨.rowSplit, 0, 15⟩
/-- `ROW_SPLIT.SPLIT_ERR` [16], W1C. -/
def F.ROW_SPLIT_SPLIT_ERR : Fld := ⟨.rowSplit, 16, 1⟩
/-- `ROW_SPARE_CTL.SPARE_EN` [0], RW. -/
def F.ROW_SPARE_CTL_SPARE_EN : Fld := ⟨.rowSpareCtl, 0, 1⟩
/-- `ROW_SPARE_CTL.OWNER_SLOT` [4:1], RW. -/
def F.ROW_SPARE_CTL_OWNER_SLOT : Fld := ⟨.rowSpareCtl, 1, 4⟩
/-- `ROW_SPARE_CTL.AUTO_SWITCH` [5], RW. -/
def F.ROW_SPARE_CTL_AUTO_SWITCH : Fld := ⟨.rowSpareCtl, 5, 1⟩
/-- `ROW_SPARE_CTL.FORCE_LANE` [9:6], RW. -/
def F.ROW_SPARE_CTL_FORCE_LANE : Fld := ⟨.rowSpareCtl, 6, 4⟩
/-- `ROW_SPARE_CTL.FORCE` [10], WO. -/
def F.ROW_SPARE_CTL_FORCE : Fld := ⟨.rowSpareCtl, 10, 1⟩
/-- `ROW_SPARE_STATUS.RX_STATE` [2:0], RO. -/
def F.ROW_SPARE_STATUS_RX_STATE : Fld := ⟨.rowSpareStatus, 0, 3⟩
/-- `ROW_SPARE_STATUS.TX_STATE` [5:3], RO. -/
def F.ROW_SPARE_STATUS_TX_STATE : Fld := ⟨.rowSpareStatus, 3, 3⟩
/-- `ROW_SPARE_STATUS.RX_SUBST_LANE` [9:6], RO. -/
def F.ROW_SPARE_STATUS_RX_SUBST_LANE : Fld := ⟨.rowSpareStatus, 6, 4⟩
/-- `ROW_SPARE_STATUS.TX_MIRROR_LANE` [13:10], RO. -/
def F.ROW_SPARE_STATUS_TX_MIRROR_LANE : Fld := ⟨.rowSpareStatus, 10, 4⟩
/-- `ROW_SPARE_STATUS.SWITCH_DONE` [14], W1C. -/
def F.ROW_SPARE_STATUS_SWITCH_DONE : Fld := ⟨.rowSpareStatus, 14, 1⟩
/-- `ROW_SPARE_STATUS.SPARE_MISSED` [15], W1C. -/
def F.ROW_SPARE_STATUS_SPARE_MISSED : Fld := ⟨.rowSpareStatus, 15, 1⟩
/-- `ROW_SPARE_STATUS.SPARE_FAULT` [16], W1C. -/
def F.ROW_SPARE_STATUS_SPARE_FAULT : Fld := ⟨.rowSpareStatus, 16, 1⟩
/-- `ROW_SPARE_STATUS.PARTNER_NAK` [17], W1C. -/
def F.ROW_SPARE_STATUS_PARTNER_NAK : Fld := ⟨.rowSpareStatus, 17, 1⟩
/-- `ROW_CONDEMN.CORR_LIMIT` [15:0], RW. -/
def F.ROW_CONDEMN_CORR_LIMIT : Fld := ⟨.rowCondemn, 0, 16⟩
/-- `ROW_CONDEMN.WINDOW` [23:16], RW. -/
def F.ROW_CONDEMN_WINDOW : Fld := ⟨.rowCondemn, 16, 8⟩
/-- `FLOOR_CTL.WIPE_ALL` [0], WO. -/
def F.FLOOR_CTL_WIPE_ALL : Fld := ⟨.floorCtl, 0, 1⟩
/-- `FLOOR_CTL.FLOOR_WIPED` [1], RO. -/
def F.FLOOR_CTL_FLOOR_WIPED : Fld := ⟨.floorCtl, 1, 1⟩
/-- `FLOOR_CTL.AUTO_RETIRE` [2], RW. -/
def F.FLOOR_CTL_AUTO_RETIRE : Fld := ⟨.floorCtl, 2, 1⟩
/-- `FLOOR_CTL.UNCORR_RETIRE` [3], RW. -/
def F.FLOOR_CTL_UNCORR_RETIRE : Fld := ⟨.floorCtl, 3, 1⟩
/-- `FLOOR_CTL.SCRUB_PERIOD` [8:4], RW. -/
def F.FLOOR_CTL_SCRUB_PERIOD : Fld := ⟨.floorCtl, 4, 5⟩
/-- `ESCAPE_WAIT.WAIT` [15:0], RW. -/
def F.ESCAPE_WAIT_WAIT : Fld := ⟨.escapeWait, 0, 16⟩
/-- `FLOOR_STATUS.FLOOR_CFG_ERR` [0], W1C. -/
def F.FLOOR_STATUS_FLOOR_CFG_ERR : Fld := ⟨.floorStatus, 0, 1⟩
/-- `FLOOR_STATUS.RSV_SHORT_W` [1], RO. -/
def F.FLOOR_STATUS_RSV_SHORT_W : Fld := ⟨.floorStatus, 1, 1⟩
/-- `FLOOR_STATUS.RSV_SHORT_E` [2], RO. -/
def F.FLOOR_STATUS_RSV_SHORT_E : Fld := ⟨.floorStatus, 2, 1⟩
/-- `FLOOR_STATUS.LINK_UNCORR` [3], W1C. -/
def F.FLOOR_STATUS_LINK_UNCORR : Fld := ⟨.floorStatus, 3, 1⟩
/-- `FLOOR_STATUS.CELL_UNCORR` [4], W1C. -/
def F.FLOOR_STATUS_CELL_UNCORR : Fld := ⟨.floorStatus, 4, 1⟩
/-- `FLOOR_STATUS.RETIRE_EVENT` [5], W1C. -/
def F.FLOOR_STATUS_RETIRE_EVENT : Fld := ⟨.floorStatus, 5, 1⟩
/-- `FLOOR_STATUS.RETIRE_BLOCKED` [6], W1C. -/
def F.FLOOR_STATUS_RETIRE_BLOCKED : Fld := ⟨.floorStatus, 6, 1⟩
/-- `FLOOR_RSV_GROUPS.GROUPS` [31:0], RW. -/
def F.FLOOR_RSV_GROUPS_GROUPS : Fld := ⟨.floorRsvGroups, 0, 32⟩
/-- `FLOOR_RETIRE.LIMIT` [15:0], RW. -/
def F.FLOOR_RETIRE_LIMIT : Fld := ⟨.floorRetire, 0, 16⟩
/-- `FLOOR_RETIRE.WINDOW` [23:16], RW. -/
def F.FLOOR_RETIRE_WINDOW : Fld := ⟨.floorRetire, 16, 8⟩
/-- `FLOOR_CORR_CNT.COUNT` [47:0], RO. -/
def F.FLOOR_CORR_CNT_COUNT : Fld := ⟨.floorCorrCnt, 0, 48⟩
/-- `FLOOR_UNCORR_CNT.COUNT` [47:0], RO. -/
def F.FLOOR_UNCORR_CNT_COUNT : Fld := ⟨.floorUncorrCnt, 0, 48⟩
/-- `FLOOR_ERR_LOG.CELL` [18:0], RO. -/
def F.FLOOR_ERR_LOG_CELL : Fld := ⟨.floorErrLog, 0, 19⟩
/-- `FLOOR_ERR_LOG.CHUNK` [20:19], RO. -/
def F.FLOOR_ERR_LOG_CHUNK : Fld := ⟨.floorErrLog, 19, 2⟩
/-- `FLOOR_ERR_LOG.SOURCE` [22:21], RO. -/
def F.FLOOR_ERR_LOG_SOURCE : Fld := ⟨.floorErrLog, 21, 2⟩
/-- `FLOOR_ERR_LOG.VALID` [31], W1C. -/
def F.FLOOR_ERR_LOG_VALID : Fld := ⟨.floorErrLog, 31, 1⟩
/-- `FLOOR_FREE.FREE` [17:0], RO. -/
def F.FLOOR_FREE_FREE : Fld := ⟨.floorFree, 0, 18⟩
/-- `GROUP_CTL.ALLOC_EN` [0], RW. -/
def F.GROUP_CTL_ALLOC_EN : Fld := ⟨.groupCtl, 0, 1⟩
/-- `GROUP_STATUS.USED` [13:0], RO. -/
def F.GROUP_STATUS_USED : Fld := ⟨.groupStatus, 0, 14⟩
/-- `GROUP_STATUS.RSV_USED` [29:16], RO. -/
def F.GROUP_STATUS_RSV_USED : Fld := ⟨.groupStatus, 16, 14⟩
/-- `GROUP_STATUS.EMPTY` [30], RO. -/
def F.GROUP_STATUS_EMPTY : Fld := ⟨.groupStatus, 30, 1⟩
/-- `GROUP_STATUS.RETIRED_BANK` [35:32], RWS. -/
def F.GROUP_STATUS_RETIRED_BANK : Fld := ⟨.groupStatus, 32, 4⟩
/-- `GROUP_STATUS.RETIRED` [36], RWS. -/
def F.GROUP_STATUS_RETIRED : Fld := ⟨.groupStatus, 36, 1⟩
/-- `GROUP_STATUS.RETIRING` [37], RO. -/
def F.GROUP_STATUS_RETIRING : Fld := ⟨.groupStatus, 37, 1⟩
/-- `FLOOR_BANK.CORR` [47:0], RO. -/
def F.FLOOR_BANK_CORR : Fld := ⟨.floorBank, 0, 48⟩
/-- `FLOOR_BANK.UNCORR_SEEN` [48], W1C. -/
def F.FLOOR_BANK_UNCORR_SEEN : Fld := ⟨.floorBank, 48, 1⟩
/-- `FLOOR_BANK.RETIRE` [49], WO. -/
def F.FLOOR_BANK_RETIRE : Fld := ⟨.floorBank, 49, 1⟩
/-- `POOL_CFG.RSV_P` [9:0], RW. -/
def F.POOL_CFG_RSV_P : Fld := ⟨.poolCfg, 0, 10⟩
/-- `POOL_CFG.RSV_NP` [19:10], RW. -/
def F.POOL_CFG_RSV_NP : Fld := ⟨.poolCfg, 10, 10⟩
/-- `POOL_CFG.CPL` [29:20], RW. -/
def F.POOL_CFG_CPL : Fld := ⟨.poolCfg, 20, 10⟩
/-- `POOL_CFG.SHARE` [43:30], RW. -/
def F.POOL_CFG_SHARE : Fld := ⟨.poolCfg, 30, 14⟩
/-- `POOL_WM.HIGH` [13:0], RW. -/
def F.POOL_WM_HIGH : Fld := ⟨.poolWm, 0, 14⟩
/-- `POOL_WM.LOW` [27:14], RW. -/
def F.POOL_WM_LOW : Fld := ⟨.poolWm, 14, 14⟩
/-- `POOL_STATUS.HELD_COMMON` [13:0], RO. -/
def F.POOL_STATUS_HELD_COMMON : Fld := ⟨.poolStatus, 0, 14⟩
/-- `POOL_STATUS.PLEDGED` [27:14], RO. -/
def F.POOL_STATUS_PLEDGED : Fld := ⟨.poolStatus, 14, 14⟩
/-- `POOL_STATUS.WITHHOLD` [28], RO. -/
def F.POOL_STATUS_WITHHOLD : Fld := ⟨.poolStatus, 28, 1⟩
/-- `POOL_STATUS.RSV_SHORT` [29], RO. -/
def F.POOL_STATUS_RSV_SHORT : Fld := ⟨.poolStatus, 29, 1⟩
/-- `P_DROP.COUNT` [47:0], RO. -/
def F.P_DROP_COUNT : Fld := ⟨.pDrop, 0, 48⟩
/-- `CPL_DROP.COUNT` [47:0], RO. -/
def F.CPL_DROP_COUNT : Fld := ⟨.cplDrop, 0, 48⟩
/-- `NP_UR.COUNT` [47:0], RO. -/
def F.NP_UR_COUNT : Fld := ⟨.npUr, 0, 48⟩
/-- `ESC_MOVES.COUNT` [47:0], RO. -/
def F.ESC_MOVES_COUNT : Fld := ⟨.escMoves, 0, 48⟩
/-- `PSCH_CTL.PEND` [0], RO. -/
def F.PSCH_CTL_PEND : Fld := ⟨.pschCtl, 0, 1⟩
/-- `PSCH_CTL.PSCH_CFG_ERR` [1], W1C. -/
def F.PSCH_CTL_PSCH_CFG_ERR : Fld := ⟨.pschCtl, 1, 1⟩
/-- `PSCH_CTL.ROUND` [31:16], RO. -/
def F.PSCH_CTL_ROUND : Fld := ⟨.pschCtl, 16, 16⟩
/-- `PSCH_PORT_SHAPE.RATE` [20:0], RW. -/
def F.PSCH_PORT_SHAPE_RATE : Fld := ⟨.pschPortShape, 0, 21⟩
/-- `PSCH_PORT_SHAPE.BURST` [41:21], RW. -/
def F.PSCH_PORT_SHAPE_BURST : Fld := ⟨.pschPortShape, 21, 21⟩
/-- `PSCH_PORT_TOKENS.TOKENS` [21:0], RO. -/
def F.PSCH_PORT_TOKENS_TOKENS : Fld := ⟨.pschPortTokens, 0, 22⟩
/-- `PSCH_Q_DRR.QUANTUM` [16:0], RW. -/
def F.PSCH_Q_DRR_QUANTUM : Fld := ⟨.pschQDrr, 0, 17⟩
/-- `PSCH_Q_DRR.OVH` [22:17], RW. -/
def F.PSCH_Q_DRR_OVH : Fld := ⟨.pschQDrr, 17, 6⟩
/-- `PSCH_Q_SHAPE.RATE` [20:0], RW. -/
def F.PSCH_Q_SHAPE_RATE : Fld := ⟨.pschQShape, 0, 21⟩
/-- `PSCH_Q_SHAPE.BURST` [41:21], RW. -/
def F.PSCH_Q_SHAPE_BURST : Fld := ⟨.pschQShape, 21, 21⟩
/-- `PSCH_Q_STATUS.DEFICIT` [17:0], RO. -/
def F.PSCH_Q_STATUS_DEFICIT : Fld := ⟨.pschQStatus, 0, 18⟩
/-- `PSCH_Q_STATUS.TOKENS` [39:18], RO. -/
def F.PSCH_Q_STATUS_TOKENS : Fld := ⟨.pschQStatus, 18, 22⟩
/-- `PSCH_Q_STATUS.ACTIVE` [40], RO. -/
def F.PSCH_Q_STATUS_ACTIVE : Fld := ⟨.pschQStatus, 40, 1⟩
/-- `PSCH_Q_STATUS.ELIGIBLE` [41], RO. -/
def F.PSCH_Q_STATUS_ELIGIBLE : Fld := ⟨.pschQStatus, 41, 1⟩
/-- `PSCH_G_DRR.PQUANTUM` [7:0], RW. -/
def F.PSCH_G_DRR_PQUANTUM : Fld := ⟨.pschGDrr, 0, 8⟩
/-- `PSCH_G_STATUS.DEFICIT` [7:0], RO. -/
def F.PSCH_G_STATUS_DEFICIT : Fld := ⟨.pschGStatus, 0, 8⟩
/-- `PSCH_G_STATUS.ACTIVE` [8], RO. -/
def F.PSCH_G_STATUS_ACTIVE : Fld := ⟨.pschGStatus, 8, 1⟩
/-- `PSCH_TCMAP.TCQ` [23:0], RW. -/
def F.PSCH_TCMAP_TCQ : Fld := ⟨.pschTcmap, 0, 24⟩
/-- `GATE_CTL.EN` [0], RW. -/
def F.GATE_CTL_EN : Fld := ⟨.gateCtl, 0, 1⟩
/-- `GATE_CTL.GUARD` [1], RW. -/
def F.GATE_CTL_GUARD : Fld := ⟨.gateCtl, 1, 1⟩
/-- `GATE_CTL.LIST` [2], RW. -/
def F.GATE_CTL_LIST : Fld := ⟨.gateCtl, 2, 1⟩
/-- `GATE_CTL.SWITCH` [3], WO. -/
def F.GATE_CTL_SWITCH : Fld := ⟨.gateCtl, 3, 1⟩
/-- `GATE_CTL.ACTIVE` [4], RO. -/
def F.GATE_CTL_ACTIVE : Fld := ⟨.gateCtl, 4, 1⟩
/-- `GATE_CTL.SWITCH_PEND` [5], RO. -/
def F.GATE_CTL_SWITCH_PEND : Fld := ⟨.gateCtl, 5, 1⟩
/-- `GATE_CTL.GUARD_BPT` [19:8], RW. -/
def F.GATE_CTL_GUARD_BPT : Fld := ⟨.gateCtl, 8, 12⟩
/-- `GATE_STATUS.ENTRY` [5:0], RO. -/
def F.GATE_STATUS_ENTRY : Fld := ⟨.gateStatus, 0, 6⟩
/-- `GATE_STATUS.GATE_STUCK` [6], W1C. -/
def F.GATE_STATUS_GATE_STUCK : Fld := ⟨.gateStatus, 6, 1⟩
/-- `GATE_STATUS.OPEN` [15:8], RO. -/
def F.GATE_STATUS_OPEN : Fld := ⟨.gateStatus, 8, 8⟩
/-- `GATE_PARAM.BASE.BASE` [63:0], RW. -/
def F.GATE_BASE : Fld := ⟨.gateBase, 0, 64⟩
/-- `GATE_PARAM.CYCLE.CYCLE` [31:0], RW. -/
def F.GATE_CYCLE : Fld := ⟨.gateCycle, 0, 32⟩
/-- `GATE_PARAM.LEN.LEN` [6:0], RW. -/
def F.GATE_LEN : Fld := ⟨.gateLen, 0, 7⟩
/-- `PSCH_PGRP.GROUP` [2:0], RW. -/
def F.PSCH_PGRP_GROUP : Fld := ⟨.pschPgrp, 0, 3⟩
/-- `GATE_LIST.MASK` [7:0], RW. -/
def F.GATE_LIST_MASK : Fld := ⟨.gateList, 0, 8⟩
/-- `GATE_LIST.DURATION` [31:8], RW. -/
def F.GATE_LIST_DURATION : Fld := ⟨.gateList, 8, 24⟩
/-- `Bucket.PATH` [3:0], RW. -/
def F.BUCKET_PATH : Fld := ⟨.bucket, 0, 4⟩
/-- `Bucket.PENDING` [4], RO. -/
def F.BUCKET_PENDING : Fld := ⟨.bucket, 4, 1⟩
/-- `Bucket.EFF_PATH` [8:5], RO. -/
def F.BUCKET_EFF_PATH : Fld := ⟨.bucket, 5, 4⟩
/-- `Bucket.OLD_LIST` [9], RO. -/
def F.BUCKET_OLD_LIST : Fld := ⟨.bucket, 9, 1⟩
/-- `Bucket.INFLIGHT` [36:16], RO. -/
def F.BUCKET_INFLIGHT : Fld := ⟨.bucket, 16, 21⟩
/-- `FWD_CTL.WIN_COMMIT` [0], WO. -/
def F.FWD_CTL_WIN_COMMIT : Fld := ⟨.fwdCtl, 0, 1⟩
/-- `FWD_CTL.CT_EN` [1], RW. -/
def F.FWD_CTL_CT_EN : Fld := ⟨.fwdCtl, 1, 1⟩
/-- `FWD_CTL.COMMIT_BUSY` [2], RO. -/
def F.FWD_CTL_COMMIT_BUSY : Fld := ⟨.fwdCtl, 2, 1⟩
/-- `FWD_CTL.LIST_DRAIN` [3], RO. -/
def F.FWD_CTL_LIST_DRAIN : Fld := ⟨.fwdCtl, 3, 1⟩
/-- `FWD_CTL.FWD_CFG_ERR` [4], W1C. -/
def F.FWD_CTL_FWD_CFG_ERR : Fld := ⟨.fwdCtl, 4, 1⟩
/-- `FWD_CTL.COMMIT_COUNT` [31:16], RO. -/
def F.FWD_CTL_COMMIT_COUNT : Fld := ⟨.fwdCtl, 16, 16⟩
/-- `HASH_SEED.SEED` [31:0], RW. -/
def F.HASH_SEED_SEED : Fld := ⟨.hashSeed, 0, 32⟩
/-- `FWD_DROP_P.COUNT` [47:0], RO. -/
def F.FWD_DROP_P_COUNT : Fld := ⟨.fwdDropP, 0, 48⟩
/-- `FWD_UR_NP.COUNT` [47:0], RO. -/
def F.FWD_UR_NP_COUNT : Fld := ⟨.fwdUrNp, 0, 48⟩
/-- `PITCH_FENCE.FENCE` [0], WO. -/
def F.PITCH_FENCE_FENCE : Fld := ⟨.pitchFence, 0, 1⟩
/-- `PITCH_FENCE.FENCE_DONE` [1], RO. -/
def F.PITCH_FENCE_FENCE_DONE : Fld := ⟨.pitchFence, 1, 1⟩
/-- `PORTER_CTL.POLL_ACTIVE` [7:0], RW. -/
def F.PORTER_CTL_POLL_ACTIVE : Fld := ⟨.porterCtl, 0, 8⟩
/-- `PORTER_CTL.POLL_QUIET` [15:8], RW. -/
def F.PORTER_CTL_POLL_QUIET : Fld := ⟨.porterCtl, 8, 8⟩
/-- `PORTER_CTL.QUIET_AFTER` [27:16], RW. -/
def F.PORTER_CTL_QUIET_AFTER : Fld := ⟨.porterCtl, 16, 12⟩
/-- `PORTER_STATUS.DATA_TAGS` [8:0], RO. -/
def F.PORTER_STATUS_DATA_TAGS : Fld := ⟨.porterStatus, 0, 9⟩
/-- `PORTER_STATUS.CTRL_TAGS` [14:9], RO. -/
def F.PORTER_STATUS_CTRL_TAGS : Fld := ⟨.porterStatus, 9, 6⟩
/-- `PORTER_STATUS.QUARANTINED` [24:15], RO. -/
def F.PORTER_STATUS_QUARANTINED : Fld := ⟨.porterStatus, 15, 10⟩
/-- `PORTER_STATUS.NO_TAG14` [25], RO. -/
def F.PORTER_STATUS_NO_TAG14 : Fld := ⟨.porterStatus, 25, 1⟩
/-- `CPL_TIMEOUT.COUNT` [47:0], RO. -/
def F.CPL_TIMEOUT_COUNT : Fld := ⟨.cplTimeout, 0, 48⟩
/-- `UNEXP_CPL.COUNT` [47:0], RO. -/
def F.UNEXP_CPL_COUNT : Fld := ⟨.unexpCpl, 0, 48⟩
/-- `BAD_CPL.COUNT` [47:0], RO. -/
def F.BAD_CPL_COUNT : Fld := ⟨.badCpl, 0, 48⟩
/-- `POLLS.COUNT` [47:0], RO. -/
def F.POLLS_COUNT : Fld := ⟨.polls, 0, 48⟩
/-- `BYTES_RD.COUNT` [47:0], RO. -/
def F.BYTES_RD_COUNT : Fld := ⟨.bytesRd, 0, 48⟩
/-- `BYTES_WR.COUNT` [47:0], RO. -/
def F.BYTES_WR_COUNT : Fld := ⟨.bytesWr, 0, 48⟩
/-- `DESC_DONE.COUNT` [47:0], RO. -/
def F.DESC_DONE_COUNT : Fld := ⟨.descDone, 0, 48⟩
/-- `STALE_CPL.COUNT` [47:0], RO. -/
def F.STALE_CPL_COUNT : Fld := ⟨.staleCpl, 0, 48⟩
/-- `STALL_PRIV.PRIV_OK` [63:0], RW. -/
def F.STALL_PRIV_PRIV_OK : Fld := ⟨.stallPriv, 0, 64⟩
/-- `STALL_XLAT.MODE` [1:0], RW. -/
def F.STALL_XLAT_MODE : Fld := ⟨.stallXlat, 0, 2⟩
/-- `STALL_XLAT.PRI_EN` [2], RW. -/
def F.STALL_XLAT_PRI_EN : Fld := ⟨.stallXlat, 2, 1⟩
/-- `STALL_XLAT.HOST_RA` [3], RW. -/
def F.STALL_XLAT_HOST_RA : Fld := ⟨.stallXlat, 3, 1⟩
/-- `STALL_XLAT.ROOT` [51:12], RW. -/
def F.STALL_XLAT_ROOT : Fld := ⟨.stallXlat, 12, 40⟩
/-- `XLAT_CTL.FAULT_WAIT` [7:0], RW. -/
def F.XLAT_CTL_FAULT_WAIT : Fld := ⟨.xlatCtl, 0, 8⟩
/-- `XLAT_CTL.FQ_VEC` [11:8], RW. -/
def F.XLAT_CTL_FQ_VEC : Fld := ⟨.xlatCtl, 8, 4⟩
/-- `XLAT_CTL.FQ_SIZE_LOG2` [15:12], RW. -/
def F.XLAT_CTL_FQ_SIZE_LOG2 : Fld := ⟨.xlatCtl, 12, 4⟩
/-- `FQ_BASE.BASE` [63:12], RW. -/
def F.FQ_BASE_BASE : Fld := ⟨.fqBase, 12, 52⟩
/-- `FQ_PI.INDEX` [11:0], RO. -/
def F.FQ_PI_INDEX : Fld := ⟨.fqPi, 0, 12⟩
/-- `FQ_CI.INDEX` [11:0], RW. -/
def F.FQ_CI_INDEX : Fld := ⟨.fqCi, 0, 12⟩
/-- `XLAT_STATUS.XLAT_CFG_ERR` [0], W1C. -/
def F.XLAT_STATUS_XLAT_CFG_ERR : Fld := ⟨.xlatStatus, 0, 1⟩
/-- `XLAT_STATUS.RESP_ERR` [1], W1C. -/
def F.XLAT_STATUS_RESP_ERR : Fld := ⟨.xlatStatus, 1, 1⟩
/-- `XLAT_STATUS.FQ_WAIT` [2], RO. -/
def F.XLAT_STATUS_FQ_WAIT : Fld := ⟨.xlatStatus, 2, 1⟩
/-- `XLAT_STATUS.PENDING` [16:3], RO. -/
def F.XLAT_STATUS_PENDING : Fld := ⟨.xlatStatus, 3, 14⟩
/-- `XLAT_RESP.STALL` [9:0], WO. -/
def F.XLAT_RESP_STALL : Fld := ⟨.xlatResp, 0, 10⟩
/-- `XLAT_RESP.RING` [12:10], WO. -/
def F.XLAT_RESP_RING : Fld := ⟨.xlatResp, 10, 3⟩
/-- `XLAT_RESP.POLL` [13], WO. -/
def F.XLAT_RESP_POLL : Fld := ⟨.xlatResp, 13, 1⟩
/-- `XLAT_RESP.ACTION` [14], WO. -/
def F.XLAT_RESP_ACTION : Fld := ⟨.xlatResp, 14, 1⟩
/-- `XLAT_HITS.COUNT` [47:0], RO. -/
def F.XLAT_HITS_COUNT : Fld := ⟨.xlatHits, 0, 48⟩
/-- `XLAT_MISSES.COUNT` [47:0], RO. -/
def F.XLAT_MISSES_COUNT : Fld := ⟨.xlatMisses, 0, 48⟩
/-- `XLAT_FAULTS.COUNT` [47:0], RO. -/
def F.XLAT_FAULTS_COUNT : Fld := ⟨.xlatFaults, 0, 48⟩
/-- `AUTO_ABORT.COUNT` [47:0], RO. -/
def F.AUTO_ABORT_COUNT : Fld := ⟨.autoAbort, 0, 48⟩
/-- `RA_REFUSED.COUNT` [47:0], RO. -/
def F.RA_REFUSED_COUNT : Fld := ⟨.raRefused, 0, 48⟩
/-- `PREEMPTS.COUNT` [47:0], RO. -/
def F.PREEMPTS_COUNT : Fld := ⟨.preempts, 0, 48⟩
/-- `UNEXP_PRG.COUNT` [47:0], RO. -/
def F.UNEXP_PRG_COUNT : Fld := ⟨.unexpPrg, 0, 48⟩
/-- `XLAT_INV_CTL.SCOPE` [1:0], WO. -/
def F.XLAT_INV_CTL_SCOPE : Fld := ⟨.xlatInvCtl, 0, 2⟩
/-- `XLAT_INV_CTL.STALL` [11:2], WO. -/
def F.XLAT_INV_CTL_STALL : Fld := ⟨.xlatInvCtl, 2, 10⟩
/-- `XLAT_INV_CTL.SIZE_LOG2` [17:12], WO. -/
def F.XLAT_INV_CTL_SIZE_LOG2 : Fld := ⟨.xlatInvCtl, 12, 6⟩
/-- `XLAT_INV_CTL.INV_BUSY` [18], RO. -/
def F.XLAT_INV_CTL_INV_BUSY : Fld := ⟨.xlatInvCtl, 18, 1⟩
/-- `XLAT_INV_CTL.INV_ERR` [19], W1C. -/
def F.XLAT_INV_CTL_INV_ERR : Fld := ⟨.xlatInvCtl, 19, 1⟩
/-- `XLAT_INV_ADDR.ADDR` [63:12], RW. -/
def F.XLAT_INV_ADDR_ADDR : Fld := ⟨.xlatInvAddr, 12, 52⟩
/-- `RING_SAVE.SLOT` [15:0], RO. -/
def F.RING_SAVE_SLOT : Fld := ⟨.ringSave, 0, 16⟩
/-- `RING_SAVE.OFFSET` [48:16], RO. -/
def F.RING_SAVE_OFFSET : Fld := ⟨.ringSave, 16, 33⟩
/-- `RING_SAVE.VALID` [49], RO. -/
def F.RING_SAVE_VALID : Fld := ⟨.ringSave, 49, 1⟩
/-- `RING_SAVE.FAULTED` [50], RO. -/
def F.RING_SAVE_FAULTED : Fld := ⟨.ringSave, 50, 1⟩
/-- `STALL_BIND.PORTER` [5:0], RW. -/
def F.STALL_BIND_PORTER : Fld := ⟨.stallBind, 0, 6⟩
/-- `STALL_BIND.BOUND` [6], RW. -/
def F.STALL_BIND_BOUND : Fld := ⟨.stallBind, 6, 1⟩
/-- `STALL_SHARE.QUANTUM` [7:0], RW. -/
def F.STALL_SHARE_QUANTUM : Fld := ⟨.stallShare, 0, 8⟩
/-- `STALL_SHARE.RATE` [28:8], RW. -/
def F.STALL_SHARE_RATE : Fld := ⟨.stallShare, 8, 21⟩
/-- `STALL_SHARE.BURST` [49:29], RW. -/
def F.STALL_SHARE_BURST : Fld := ⟨.stallShare, 29, 21⟩
/-- `STALL_SCHED.DEFICIT` [21:0], RO. -/
def F.STALL_SCHED_DEFICIT : Fld := ⟨.stallSched, 0, 22⟩
/-- `STALL_SCHED.TOKENS` [43:22], RO. -/
def F.STALL_SCHED_TOKENS : Fld := ⟨.stallSched, 22, 22⟩
/-- `STALL_SCHED.ACTIVE` [44], RO. -/
def F.STALL_SCHED_ACTIVE : Fld := ⟨.stallSched, 44, 1⟩
/-- `STALL_SCHED.PEND` [45], RO. -/
def F.STALL_SCHED_PEND : Fld := ⟨.stallSched, 45, 1⟩
/-- `STALL_MGR_STATUS.GEN` [15:0], RO. -/
def F.STALL_MGR_STATUS_GEN : Fld := ⟨.stallMgrStatus, 0, 16⟩
/-- `STALL_MGR_STATUS.FLR_BUSY` [16], RO. -/
def F.STALL_MGR_STATUS_FLR_BUSY : Fld := ⟨.stallMgrStatus, 16, 1⟩
/-- `STALL_MGR_STATUS.BIND_ERR` [17], W1C. -/
def F.STALL_MGR_STATUS_BIND_ERR : Fld := ⟨.stallMgrStatus, 17, 1⟩
/-- `MB_MGR OUT.DATA` [31:0], RO. -/
def F.MB_MGR_OUT_DATA : Fld := ⟨.mbMgrOut, 0, 32⟩
/-- `MB_MGR IN.DATA` [31:0], RW. -/
def F.MB_MGR_IN_DATA : Fld := ⟨.mbMgrIn, 0, 32⟩
/-- `MB_MGR_CTL.SEND` [0], WO. -/
def F.MB_MGR_CTL_SEND : Fld := ⟨.mbMgrCtl, 0, 1⟩
/-- `MB_MGR_CTL.IN_LEN` [7:1], RW. -/
def F.MB_MGR_CTL_IN_LEN : Fld := ⟨.mbMgrCtl, 1, 7⟩
/-- `MB_MGR_CTL.OUT_PEND` [8], RO. -/
def F.MB_MGR_CTL_OUT_PEND : Fld := ⟨.mbMgrCtl, 8, 1⟩
/-- `MB_MGR_CTL.IN_FULL` [9], RO. -/
def F.MB_MGR_CTL_IN_FULL : Fld := ⟨.mbMgrCtl, 9, 1⟩
/-- `MB_MGR_CTL.ACK` [10], WO. -/
def F.MB_MGR_CTL_ACK : Fld := ⟨.mbMgrCtl, 10, 1⟩
/-- `MB_MGR_CTL.OUT_LEN` [17:11], RO. -/
def F.MB_MGR_CTL_OUT_LEN : Fld := ⟨.mbMgrCtl, 11, 7⟩
/-- `MB_MGR_CTL.FLR_SEEN` [18], W1C. -/
def F.MB_MGR_CTL_FLR_SEEN : Fld := ⟨.mbMgrCtl, 18, 1⟩
/-- `MB_MGR_CTL.CLEAR` [19], WO. -/
def F.MB_MGR_CTL_CLEAR : Fld := ⟨.mbMgrCtl, 19, 1⟩
/-- `MB_MGR_CTL.MB_ERR` [20], W1C. -/
def F.MB_MGR_CTL_MB_ERR : Fld := ⟨.mbMgrCtl, 20, 1⟩
/-- `LEDGER_CTX.EN` [0], RW. -/
def F.LEDGER_EN : Fld := ⟨.ledgerCtx, 0, 1⟩
/-- `LEDGER_CTX.KIND` [1], RW. -/
def F.LEDGER_KIND : Fld := ⟨.ledgerCtx, 1, 1⟩
/-- `LEDGER_CTX.STALL` [11:2], RW. -/
def F.LEDGER_STALL : Fld := ⟨.ledgerCtx, 2, 10⟩
/-- `LEDGER_CTX.PORT` [20:12], RW. -/
def F.LEDGER_PORT : Fld := ⟨.ledgerCtx, 12, 9⟩
/-- `LEDGER_CTX.RID` [36:21], RW. -/
def F.LEDGER_RID : Fld := ⟨.ledgerCtx, 21, 16⟩
/-- `LEDGER_CTX.RID_MASK` [52:37], RW. -/
def F.LEDGER_RID_MASK : Fld := ⟨.ledgerCtx, 37, 16⟩
/-- `LEDGER_CTX.SYNC_EN` [53], RW. -/
def F.LEDGER_SYNC_EN : Fld := ⟨.ledgerCtx, 53, 1⟩
/-- `LEDGER_CTX.SYNC_STALL` [63:54], RW. -/
def F.LEDGER_SYNC_STALL : Fld := ⟨.ledgerCtx, 54, 10⟩
/-- `LEDGER_CTX.PAGE_BASE.PAGE_BASE` [51:0], RW. -/
def F.LEDGER_PAGE_BASE : Fld := ⟨.ledgerPageBase, 0, 52⟩
/-- `LEDGER_CTX.PAGES.PAGES` [31:0], RW. -/
def F.LEDGER_PAGES : Fld := ⟨.ledgerPages, 0, 32⟩
/-- `LEDGER_CTX.FLUSH_IV.FLUSH_IV` [16:0], RW. -/
def F.LEDGER_FLUSH_IV : Fld := ⟨.ledgerFlushIv, 0, 17⟩
/-- `LEDGER_CTX.BITMAP_A.BITMAP_A` [63:12], RW. -/
def F.LEDGER_BITMAP_A : Fld := ⟨.ledgerBitmapA, 12, 52⟩
/-- `LEDGER_CTX.BITMAP_B.BITMAP_B` [63:12], RW. -/
def F.LEDGER_BITMAP_B : Fld := ⟨.ledgerBitmapB, 12, 52⟩
/-- `LEDGER_CTX.MARKS.COUNT` [47:0], RO. -/
def F.LEDGER_CTX_MARKS_COUNT : Fld := ⟨.ledgerMarks, 0, 48⟩
/-- `LEDGER_CMD.FLUSH` [0], WO. -/
def F.LEDGER_CMD_FLUSH : Fld := ⟨.ledgerCmd, 0, 1⟩
/-- `LEDGER_CMD.SWAP` [1], WO. -/
def F.LEDGER_CMD_SWAP : Fld := ⟨.ledgerCmd, 1, 1⟩
/-- `LEDGER_CMD.FLUSH_DONE` [2], RO. -/
def F.LEDGER_CMD_FLUSH_DONE : Fld := ⟨.ledgerCmd, 2, 1⟩
/-- `LEDGER_CMD.SWAP_DONE` [3], RO. -/
def F.LEDGER_CMD_SWAP_DONE : Fld := ⟨.ledgerCmd, 3, 1⟩
/-- `LEDGER_CMD.SEL` [4], RO. -/
def F.LEDGER_CMD_SEL : Fld := ⟨.ledgerCmd, 4, 1⟩
/-- `LEDGER_CMD.FAULT` [5], W1C. -/
def F.LEDGER_CMD_FAULT : Fld := ⟨.ledgerCmd, 5, 1⟩
/-- `LEDGER_CMD.LOST` [6], W1C. -/
def F.LEDGER_CMD_LOST : Fld := ⟨.ledgerCmd, 6, 1⟩
/-- `LEDGER_CMD.OUT_RANGE` [7], W1C. -/
def F.LEDGER_CMD_OUT_RANGE : Fld := ⟨.ledgerCmd, 7, 1⟩
/-- `LEDGER_CMD.LEDGER_CFG_ERR` [8], W1C. -/
def F.LEDGER_CMD_LEDGER_CFG_ERR : Fld := ⟨.ledgerCmd, 8, 1⟩
/-- `LEDGER_CMD.STATE` [10:9], RO. -/
def F.LEDGER_CMD_STATE : Fld := ⟨.ledgerCmd, 9, 2⟩
/-- `MB_PENDING.PEND` [63:0], W1C. -/
def F.MB_PENDING_PEND : Fld := ⟨.mbPending, 0, 64⟩
/-- `MB_GLOBAL.MB_VEC` [3:0], RW. -/
def F.MB_GLOBAL_MB_VEC : Fld := ⟨.mbGlobal, 0, 4⟩
/-- `Pitch.VALID` [0], RW. -/
def F.PITCH_VALID : Fld := ⟨.pitch, 0, 1⟩
/-- `Pitch.RD` [1], RW. -/
def F.PITCH_RD : Fld := ⟨.pitch, 1, 1⟩
/-- `Pitch.WR` [2], RW. -/
def F.PITCH_WR : Fld := ⟨.pitch, 2, 1⟩
/-- `Pitch.ATOMIC` [3], RW. -/
def F.PITCH_ATOMIC : Fld := ⟨.pitch, 3, 1⟩
/-- `Pitch.LOCK` [4], RW. -/
def F.PITCH_LOCK : Fld := ⟨.pitch, 4, 1⟩
/-- `Pitch.IO` [5], RW. -/
def F.PITCH_IO : Fld := ⟨.pitch, 5, 1⟩
/-- `Pitch.CFG` [6], RW. -/
def F.PITCH_CFG : Fld := ⟨.pitch, 6, 1⟩
/-- `Pitch.MSG` [7], RW. -/
def F.PITCH_MSG : Fld := ⟨.pitch, 7, 1⟩
/-- `Pitch.XLAT` [8], RW. -/
def F.PITCH_XLAT : Fld := ⟨.pitch, 8, 1⟩
/-- `Pitch.PRIV_ONLY` [9], RW. -/
def F.PITCH_PRIV_ONLY : Fld := ⟨.pitch, 9, 1⟩
/-- `Pitch.LABEL` [23:16], RW. -/
def F.PITCH_LABEL : Fld := ⟨.pitch, 16, 8⟩
/-- `PITCH_CHK.TABLE` [5:0], RW. -/
def F.PITCH_CHK_TABLE : Fld := ⟨.pitchChk, 0, 6⟩
/-- `PITCH_CHK.CHECK_EN` [6], RW. -/
def F.PITCH_CHK_CHECK_EN : Fld := ⟨.pitchChk, 6, 1⟩
/-- `PITCH_CHK.FAULT` [8], W1C. -/
def F.PITCH_CHK_FAULT : Fld := ⟨.pitchChk, 8, 1⟩
/-- `PITCH_FAULT_CNT.COUNT` [47:0], RO. -/
def F.PITCH_FAULT_CNT_COUNT : Fld := ⟨.pitchFaultCnt, 0, 48⟩
/-- `PART_DEFMAP.VALID` [0], RW. -/
def F.PART_DEFMAP_VALID : Fld := ⟨.partDefmap, 0, 1⟩
/-- `PART_DEFMAP.RD` [1], RW. -/
def F.PART_DEFMAP_RD : Fld := ⟨.partDefmap, 1, 1⟩
/-- `PART_DEFMAP.WR` [2], RW. -/
def F.PART_DEFMAP_WR : Fld := ⟨.partDefmap, 2, 1⟩
/-- `PART_DEFMAP.ATOMIC` [3], RW. -/
def F.PART_DEFMAP_ATOMIC : Fld := ⟨.partDefmap, 3, 1⟩
/-- `PART_DEFMAP.LOCK` [4], RW. -/
def F.PART_DEFMAP_LOCK : Fld := ⟨.partDefmap, 4, 1⟩
/-- `PART_DEFMAP.IO` [5], RW. -/
def F.PART_DEFMAP_IO : Fld := ⟨.partDefmap, 5, 1⟩
/-- `PART_DEFMAP.CFG` [6], RW. -/
def F.PART_DEFMAP_CFG : Fld := ⟨.partDefmap, 6, 1⟩
/-- `PART_DEFMAP.MSG` [7], RW. -/
def F.PART_DEFMAP_MSG : Fld := ⟨.partDefmap, 7, 1⟩
/-- `PART_DEFMAP.XLAT` [8], RW. -/
def F.PART_DEFMAP_XLAT : Fld := ⟨.partDefmap, 8, 1⟩
/-- `PART_DEFMAP.PRIV_ONLY` [9], RW. -/
def F.PART_DEFMAP_PRIV_ONLY : Fld := ⟨.partDefmap, 9, 1⟩
/-- `PART_DEFMAP.LABEL` [23:16], RW. -/
def F.PART_DEFMAP_LABEL : Fld := ⟨.partDefmap, 16, 8⟩
/-- `PITCH_SEAL.SEAL` [63:0], W1S. -/
def F.PITCH_SEAL_SEAL : Fld := ⟨.pitchSeal, 0, 64⟩
/-- `WIN_SEAL.SEAL` [63:0], W1S. -/
def F.WIN_SEAL_SEAL : Fld := ⟨.winSeal, 0, 64⟩
/-- `PITCH_FAULT_LOG.CHECKER` [9:0], RO. -/
def F.PITCH_FAULT_LOG_CHECKER : Fld := ⟨.pitchFaultLog, 0, 10⟩
/-- `PITCH_FAULT_LOG.INDEX` [21:10], RO. -/
def F.PITCH_FAULT_LOG_INDEX : Fld := ⟨.pitchFaultLog, 10, 12⟩
/-- `PITCH_FAULT_LOG.RTYPE` [25:22], RO. -/
def F.PITCH_FAULT_LOG_RTYPE : Fld := ⟨.pitchFaultLog, 22, 4⟩
/-- `PITCH_FAULT_LOG.PMR` [26], RO. -/
def F.PITCH_FAULT_LOG_PMR : Fld := ⟨.pitchFaultLog, 26, 1⟩
/-- `PITCH_FAULT_LOG.CAUSE` [28:27], RO. -/
def F.PITCH_FAULT_LOG_CAUSE : Fld := ⟨.pitchFaultLog, 27, 2⟩
/-- `PITCH_FAULT_LOG.POSTED` [29], RO. -/
def F.PITCH_FAULT_LOG_POSTED : Fld := ⟨.pitchFaultLog, 29, 1⟩
/-- `PITCH_FAULT_LOG.LABEL` [37:30], RO. -/
def F.PITCH_FAULT_LOG_LABEL : Fld := ⟨.pitchFaultLog, 30, 8⟩
/-- `PITCH_FAULT_LOG.VALID` [63], W1C. -/
def F.PITCH_FAULT_LOG_VALID : Fld := ⟨.pitchFaultLog, 63, 1⟩
/-- `DBG_DENIED.ADDR` [25:0], RO. -/
def F.DBG_DENIED_ADDR : Fld := ⟨.dbgDenied, 0, 26⟩
/-- `DBG_DENIED.SPACE` [26], RO. -/
def F.DBG_DENIED_SPACE : Fld := ⟨.dbgDenied, 26, 1⟩
/-- `DBG_DENIED.WRITE` [27], RO. -/
def F.DBG_DENIED_WRITE : Fld := ⟨.dbgDenied, 27, 1⟩
/-- `DBG_DENIED.COUNT` [47:28], RO. -/
def F.DBG_DENIED_COUNT : Fld := ⟨.dbgDenied, 28, 20⟩
/-- `DBG_DENIED.VALID` [63], W1C. -/
def F.DBG_DENIED_VALID : Fld := ⟨.dbgDenied, 63, 1⟩
/-- `SPC_CFG.EN` [0], RW. -/
def F.SPC_CFG_EN : Fld := ⟨.spcCfg, 0, 1⟩
/-- `SPC_CFG.SLOT` [4:1], RW. -/
def F.SPC_CFG_SLOT : Fld := ⟨.spcCfg, 1, 4⟩
/-- `SPC_CFG.ILIM` [15:8], RW. -/
def F.SPC_CFG_ILIM : Fld := ⟨.spcCfg, 8, 8⟩
/-- `SPC_CFG.SHUNT` [31:16], RW. -/
def F.SPC_CFG_SHUNT : Fld := ⟨.spcCfg, 16, 16⟩
/-- `SPC_CFG.FOLD_P` [39:32], RW. -/
def F.SPC_CFG_FOLD_P : Fld := ⟨.spcCfg, 32, 8⟩
/-- `SPC_CFG.FAULT_TIME` [45:40], RW. -/
def F.SPC_CFG_FAULT_TIME : Fld := ⟨.spcCfg, 40, 6⟩
/-- `SPC_CFG.PG_VDS` [53:46], RW. -/
def F.SPC_CFG_PG_VDS : Fld := ⟨.spcCfg, 46, 8⟩
/-- `SPC_STATUS.STATE` [2:0], RO. -/
def F.SPC_STATUS_STATE : Fld := ⟨.spcStatus, 0, 3⟩
/-- `SPC_STATUS.PG` [3], RO. -/
def F.SPC_STATUS_PG : Fld := ⟨.spcStatus, 3, 1⟩
/-- `SPC_STATUS.LIMIT` [4], RO. -/
def F.SPC_STATUS_LIMIT : Fld := ⟨.spcStatus, 4, 1⟩
/-- `SPC_STATUS.TIMER` [18:5], RO. -/
def F.SPC_STATUS_TIMER : Fld := ⟨.spcStatus, 5, 14⟩
/-- `SPC_STATUS.BREAKER` [19], W1C. -/
def F.SPC_STATUS_BREAKER : Fld := ⟨.spcStatus, 19, 1⟩
/-- `SPC_STATUS.FAST_TRIP` [20], W1C. -/
def F.SPC_STATUS_FAST_TRIP : Fld := ⟨.spcStatus, 20, 1⟩
/-- `SPC_STATUS.FET_SHORT` [21], W1C. -/
def F.SPC_STATUS_FET_SHORT : Fld := ⟨.spcStatus, 21, 1⟩
/-- `SPC_STATUS.FET_HIGH_RDS` [22], W1C. -/
def F.SPC_STATUS_FET_HIGH_RDS : Fld := ⟨.spcStatus, 22, 1⟩
/-- `SPC_STATUS.VIN_UV` [23], W1C. -/
def F.SPC_STATUS_VIN_UV : Fld := ⟨.spcStatus, 23, 1⟩
/-- `SPC_STATUS.SPC_CFG_ERR` [24], W1C. -/
def F.SPC_STATUS_SPC_CFG_ERR : Fld := ⟨.spcStatus, 24, 1⟩
/-- `SPC_MEAS.VSENSE` [11:0], RO. -/
def F.SPC_MEAS_VSENSE : Fld := ⟨.spcMeas, 0, 12⟩
/-- `SPC_MEAS.VIN` [27:16], RO. -/
def F.SPC_MEAS_VIN : Fld := ⟨.spcMeas, 16, 12⟩
/-- `SPC_MEAS.VOUT` [43:32], RO. -/
def F.SPC_MEAS_VOUT : Fld := ⟨.spcMeas, 32, 12⟩
/-- `SPC_MEAS.VLIM` [59:48], RO. -/
def F.SPC_MEAS_VLIM : Fld := ⟨.spcMeas, 48, 12⟩
/-- `CLK_STATUS.PLL_LOCK` [0], RO. -/
def F.CLK_STATUS_PLL_LOCK : Fld := ⟨.clkStatus, 0, 1⟩
/-- `CLK_STATUS.LOCK_LOST` [1], W1C. -/
def F.CLK_STATUS_LOCK_LOST : Fld := ⟨.clkStatus, 1, 1⟩
/-- `CLK_STATUS.HOLDOVER` [2], RO. -/
def F.CLK_STATUS_HOLDOVER : Fld := ⟨.clkStatus, 2, 1⟩
/-- `CLK_STATUS.CCLK_DIV` [5:3], RO. -/
def F.CLK_STATUS_CCLK_DIV : Fld := ⟨.clkStatus, 3, 3⟩
/-- `CLK_STATUS.THERM_WARN` [6], W1C. -/
def F.CLK_STATUS_THERM_WARN : Fld := ⟨.clkStatus, 6, 1⟩
/-- `CLK_STATUS.CDC_OVF` [7], W1C. -/
def F.CLK_STATUS_CDC_OVF : Fld := ⟨.clkStatus, 7, 1⟩
/-- `CLK_STATUS.CLK_CFG_ERR` [8], W1C. -/
def F.CLK_STATUS_CLK_CFG_ERR : Fld := ⟨.clkStatus, 8, 1⟩
/-- `CLK_STATUS.OVF_DOMAIN` [23:16], RO. -/
def F.CLK_STATUS_OVF_DOMAIN : Fld := ⟨.clkStatus, 16, 8⟩
/-- `DROOP_CTL.L1_TH` [7:0], RW. -/
def F.DROOP_CTL_L1_TH : Fld := ⟨.droopCtl, 0, 8⟩
/-- `DROOP_CTL.L2_TH` [15:8], RW. -/
def F.DROOP_CTL_L2_TH : Fld := ⟨.droopCtl, 8, 8⟩
/-- `DROOP_CTL.RECOV` [23:16], RW. -/
def F.DROOP_CTL_RECOV : Fld := ⟨.droopCtl, 16, 8⟩
/-- `DROOP_CTL.FORCE_DIV` [25:24], RW. -/
def F.DROOP_CTL_FORCE_DIV : Fld := ⟨.droopCtl, 24, 2⟩
/-- `DROOP_STATUS.SAG1` [31:0], RO. -/
def F.DROOP_STATUS_SAG1 : Fld := ⟨.droopStatus, 0, 32⟩
/-- `DROOP_STATUS.SAG2` [63:32], RO. -/
def F.DROOP_STATUS_SAG2 : Fld := ⟨.droopStatus, 32, 32⟩
/-- `THERM_STATUS.TEMP` [11:0], RO. -/
def F.THERM_STATUS_TEMP : Fld := ⟨.thermStatus, 0, 12⟩
/-- `THERM_STATUS.VALID` [12], RO. -/
def F.THERM_STATUS_VALID : Fld := ⟨.thermStatus, 12, 1⟩
/-- `THERM_CTL.WARN` [7:0], RW. -/
def F.THERM_CTL_WARN : Fld := ⟨.thermCtl, 0, 8⟩
/-- `PWR_STATUS.DOMAIN_CFG_ERR` [0], W1C. -/
def F.PWR_STATUS_DOMAIN_CFG_ERR : Fld := ⟨.pwrStatus, 0, 1⟩
/-- `PWR_STATUS.WAKING` [8:1], RO. -/
def F.PWR_STATUS_WAKING : Fld := ⟨.pwrStatus, 1, 8⟩
/-- `DROOP_EVENTS.COUNT` [47:0], RO. -/
def F.DROOP_EVENTS_COUNT : Fld := ⟨.droopEvents, 0, 48⟩
/-- `CCLK_DIV5_CYC.COUNT` [47:0], RO. -/
def F.CCLK_DIV5_CYC_COUNT : Fld := ⟨.cclkDiv5Cyc, 0, 48⟩
/-- `CCLK_DIV6_CYC.COUNT` [47:0], RO. -/
def F.CCLK_DIV6_CYC_COUNT : Fld := ⟨.cclkDiv6Cyc, 0, 48⟩
/-- `CDC_LOST.COUNT` [47:0], RO. -/
def F.CDC_LOST_COUNT : Fld := ⟨.cdcLost, 0, 48⟩
/-- `CLK_SRIS.SRIS` [63:0], RW. -/
def F.CLK_SRIS_SRIS : Fld := ⟨.clkSris, 0, 64⟩
/-- `DOMAIN_CTL.PWR_EN` [0], RWS. -/
def F.DOMAIN_CTL_PWR_EN : Fld := ⟨.domainCtl, 0, 1⟩
/-- `DOMAIN_CTL.CLK_EN` [1], RWS. -/
def F.DOMAIN_CTL_CLK_EN : Fld := ⟨.domainCtl, 1, 1⟩
/-- `DOMAIN_STATE.POWER` [1:0], RO. -/
def F.DOMAIN_STATE_POWER : Fld := ⟨.domainState, 0, 2⟩
/-- `DOMAIN_STATE.CLK_STOPPED` [2], RO. -/
def F.DOMAIN_STATE_CLK_STOPPED : Fld := ⟨.domainState, 2, 1⟩
/-- `DOMAIN_STATE.IN_RESET` [3], RO. -/
def F.DOMAIN_STATE_IN_RESET : Fld := ⟨.domainState, 3, 1⟩
/-- `DOMAIN_STATE.READY` [4], RO. -/
def F.DOMAIN_STATE_READY : Fld := ⟨.domainState, 4, 1⟩
/-- `DOMAIN_STATE.QUEUED` [5], RO. -/
def F.DOMAIN_STATE_QUEUED : Fld := ⟨.domainState, 5, 1⟩
/-- `HALL_CTL.MEMBER_ID` [3:0], RW. -/
def F.HALL_CTL_MEMBER_ID : Fld := ⟨.hallCtl, 0, 4⟩
/-- `HALL_CTL.MASTER_ID` [7:4], RW. -/
def F.HALL_CTL_MASTER_ID : Fld := ⟨.hallCtl, 4, 4⟩
/-- `HALL_CTL.STANDBY_ID` [11:8], RW. -/
def F.HALL_CTL_STANDBY_ID : Fld := ⟨.hallCtl, 8, 4⟩
/-- `HALL_CTL.HALL_ID` [27:12], RW. -/
def F.HALL_CTL_HALL_ID : Fld := ⟨.hallCtl, 12, 16⟩
/-- `HALL_CTL.EN` [28], RW. -/
def F.HALL_CTL_EN : Fld := ⟨.hallCtl, 28, 1⟩
/-- `HALL_CTL.HALL_CFG_ERR` [29], W1C. -/
def F.HALL_CTL_HALL_CFG_ERR : Fld := ⟨.hallCtl, 29, 1⟩
/-- `HALL_STATUS.EPOCH` [31:0], RO. -/
def F.HALL_STATUS_EPOCH : Fld := ⟨.hallStatus, 0, 32⟩
/-- `HALL_STATUS.MASTER_NOW` [35:32], RO. -/
def F.HALL_STATUS_MASTER_NOW : Fld := ⟨.hallStatus, 32, 4⟩
/-- `HALL_STATUS.IS_MASTER` [36], RO. -/
def F.HALL_STATUS_IS_MASTER : Fld := ⟨.hallStatus, 36, 1⟩
/-- `HALL_STATUS.CURRENT` [37], RO. -/
def F.HALL_STATUS_CURRENT : Fld := ⟨.hallStatus, 37, 1⟩
/-- `HALL_STATUS.PHASE` [40:38], RO. -/
def F.HALL_STATUS_PHASE : Fld := ⟨.hallStatus, 38, 3⟩
/-- `HALL_STATUS.ABORTED` [41], W1C. -/
def F.HALL_STATUS_ABORTED : Fld := ⟨.hallStatus, 41, 1⟩
/-- `HALL_STATUS.MEMBERS` [57:42], RO. -/
def F.HALL_STATUS_MEMBERS : Fld := ⟨.hallStatus, 42, 16⟩
/-- `HALL_STATUS.CLAIM_LOST` [58], W1C. -/
def F.HALL_STATUS_CLAIM_LOST : Fld := ⟨.hallStatus, 58, 1⟩
/-- `HALL_COMMIT_REC.EPOCH` [31:0], RWS. -/
def F.HALL_COMMIT_REC_EPOCH : Fld := ⟨.hallCommitRec, 0, 32⟩
/-- `HALL_COMMIT_REC.VALID` [32], RWS. -/
def F.HALL_COMMIT_REC_VALID : Fld := ⟨.hallCommitRec, 32, 1⟩
/-- `HALL_TIMERS.PHASE_TIMEOUT` [7:0], RW. -/
def F.HALL_TIMERS_PHASE_TIMEOUT : Fld := ⟨.hallTimers, 0, 8⟩
/-- `HALL_TIMERS.MASTER_TIMEOUT` [15:8], RW. -/
def F.HALL_TIMERS_MASTER_TIMEOUT : Fld := ⟨.hallTimers, 8, 8⟩
/-- `HALL_TIMERS.FAILOVER_WAIT` [23:16], RW. -/
def F.HALL_TIMERS_FAILOVER_WAIT : Fld := ⟨.hallTimers, 16, 8⟩
/-- `HALL_TIMERS.RECOV_LIMIT` [31:24], RW. -/
def F.HALL_TIMERS_RECOV_LIMIT : Fld := ⟨.hallTimers, 24, 8⟩
/-- `HALL_MSG_DROP.COUNT` [47:0], RO. -/
def F.HALL_MSG_DROP_COUNT : Fld := ⟨.hallMsgDrop, 0, 48⟩
/-- `LOOP_DROP.COUNT` [47:0], RO. -/
def F.LOOP_DROP_COUNT : Fld := ⟨.loopDrop, 0, 48⟩
/-- `LOCK_STATE.HELD` [0], RO. -/
def F.LOCK_STATE_HELD : Fld := ⟨.lockState, 0, 1⟩
/-- `LOCK_STATE.MEMBER` [4:1], RO. -/
def F.LOCK_STATE_MEMBER : Fld := ⟨.lockState, 1, 4⟩
/-- `LOCK_STATE.PORT` [13:5], RO. -/
def F.LOCK_STATE_PORT : Fld := ⟨.lockState, 5, 9⟩
/-- `TWIN_CTL.EN` [0], RW. -/
def F.TWIN_CTL_EN : Fld := ⟨.twinCtl, 0, 1⟩
/-- `TWIN_CTL.SIDE` [1], RW. -/
def F.TWIN_CTL_SIDE : Fld := ⟨.twinCtl, 1, 1⟩
/-- `TWIN_CTL.TWIN_HALL_ID` [17:2], RW. -/
def F.TWIN_CTL_TWIN_HALL_ID : Fld := ⟨.twinCtl, 2, 16⟩
/-- `TWIN_CTL.TWIN_CFG_ERR` [18], W1C. -/
def F.TWIN_CTL_TWIN_CFG_ERR : Fld := ⟨.twinCtl, 18, 1⟩
/-- `TWIN_TIMERS.GAP_WAIT` [15:0], RW. -/
def F.TWIN_TIMERS_GAP_WAIT : Fld := ⟨.twinTimers, 0, 16⟩
/-- `TWIN_ROUTE.COUNT` [2:0], RW. -/
def F.TWIN_ROUTE_COUNT : Fld := ⟨.twinRoute, 0, 3⟩
/-- `TWIN_ROUTE.PORT_0` [11:3], RW. -/
def F.TWIN_ROUTE_PORT_0 : Fld := ⟨.twinRoute, 3, 9⟩
/-- `TWIN_ROUTE.PORT_1` [20:12], RW. -/
def F.TWIN_ROUTE_PORT_1 : Fld := ⟨.twinRoute, 12, 9⟩
/-- `TWIN_ROUTE.PORT_2` [29:21], RW. -/
def F.TWIN_ROUTE_PORT_2 : Fld := ⟨.twinRoute, 21, 9⟩
/-- `TWIN_ROUTE.PORT_3` [38:30], RW. -/
def F.TWIN_ROUTE_PORT_3 : Fld := ⟨.twinRoute, 30, 9⟩
/-- `TWIN_STATUS.DEGRADED` [0], RO. -/
def F.TWIN_STATUS_DEGRADED : Fld := ⟨.twinStatus, 0, 1⟩
/-- `TWIN_STATUS.PART_MISMATCH` [1], RO. -/
def F.TWIN_STATUS_PART_MISMATCH : Fld := ⟨.twinStatus, 1, 1⟩
/-- `TWIN_STATUS.GAP` [2], W1C. -/
def F.TWIN_STATUS_GAP : Fld := ⟨.twinStatus, 2, 1⟩
/-- `TWIN_STATUS.RESETTING` [3], RO. -/
def F.TWIN_STATUS_RESETTING : Fld := ⟨.twinStatus, 3, 1⟩
/-- `TWIN_STATUS.HELD` [21:4], RO. -/
def F.TWIN_STATUS_HELD : Fld := ⟨.twinStatus, 4, 18⟩
/-- `TWIN_HOLD.CELLS` [15:0], RW. -/
def F.TWIN_HOLD_CELLS : Fld := ⟨.twinHold, 0, 16⟩
/-- `DUP_DROP.COUNT` [47:0], RO. -/
def F.DUP_DROP_COUNT : Fld := ⟨.dupDrop, 0, 48⟩
/-- `GAP_SKIP.COUNT` [47:0], RO. -/
def F.GAP_SKIP_COUNT : Fld := ⟨.gapSkip, 0, 48⟩
/-- `LATE_DROP.COUNT` [47:0], RO. -/
def F.LATE_DROP_COUNT : Fld := ⟨.lateDrop, 0, 48⟩
/-- `HOLD_FULL.COUNT` [47:0], RO. -/
def F.HOLD_FULL_COUNT : Fld := ⟨.holdFull, 0, 48⟩
/-- `TRANSIT_DROP.COUNT` [47:0], RO. -/
def F.TRANSIT_DROP_COUNT : Fld := ⟨.transitDrop, 0, 48⟩
/-- `TALLY_CTL.EN` [0], RW. -/
def F.TALLY_CTL_EN : Fld := ⟨.tallyCtl, 0, 1⟩
/-- `TALLY_CTL.NOW` [1], WO. -/
def F.TALLY_CTL_NOW : Fld := ⟨.tallyCtl, 1, 1⟩
/-- `TALLY_CTL.SNAPSHOT` [2], WO. -/
def F.TALLY_CTL_SNAPSHOT : Fld := ⟨.tallyCtl, 2, 1⟩
/-- `TALLY_CTL.RELEASE` [3], WO. -/
def F.TALLY_CTL_RELEASE : Fld := ⟨.tallyCtl, 3, 1⟩
/-- `TALLY_CTL.FROZEN` [4], RO. -/
def F.TALLY_CTL_FROZEN : Fld := ⟨.tallyCtl, 4, 1⟩
/-- `TALLY_CTL.SNAP_PASS` [5], RW. -/
def F.TALLY_CTL_SNAP_PASS : Fld := ⟨.tallyCtl, 5, 1⟩
/-- `TALLY_CTL.BUSY` [6], RO. -/
def F.TALLY_CTL_BUSY : Fld := ⟨.tallyCtl, 6, 1⟩
/-- `TALLY_CTL.IV` [23:8], RW. -/
def F.TALLY_CTL_IV : Fld := ⟨.tallyCtl, 8, 16⟩
/-- `TALLY_STATUS.TALLY_ERR` [0], W1C. -/
def F.TALLY_STATUS_TALLY_ERR : Fld := ⟨.tallyStatus, 0, 1⟩
/-- `TALLY_STATUS.ERR_SETS` [31:16], W1C. -/
def F.TALLY_STATUS_ERR_SETS : Fld := ⟨.tallyStatus, 16, 16⟩
/-- `TALLY_SNAP_TIME.TIME` [63:0], RO. -/
def F.TALLY_SNAP_TIME_TIME : Fld := ⟨.tallySnapTime, 0, 64⟩
/-- `TALLY_SET.EN` [0], RW. -/
def F.TALLY_SET_EN : Fld := ⟨.tallySet, 0, 1⟩
/-- `TALLY_SET.COUNT` [9:1], RW. -/
def F.TALLY_SET_COUNT : Fld := ⟨.tallySet, 1, 9⟩
/-- `TALLY_SET.LIST_ADDR.LIST_ADDR` [63:2], RW. -/
def F.TALLY_SET_LIST_ADDR : Fld := ⟨.tallyListAddr, 2, 62⟩
/-- `TALLY_SET.PAGE_ADDR.PAGE_ADDR` [63:12], RW. -/
def F.TALLY_SET_PAGE_ADDR : Fld := ⟨.tallyPageAddr, 12, 52⟩
/-- `TALLY_SET.SEQ.SEQ` [63:0], RO. -/
def F.TALLY_SET_SEQ : Fld := ⟨.tallySeq, 0, 64⟩
/-- `TALLY_USER_EN.USER_EN` [63:0], RW. -/
def F.TALLY_USER_EN_USER_EN : Fld := ⟨.tallyUserEn, 0, 64⟩
/-- `TIME_CTL.SRC` [1:0], RW. -/
def F.TIME_CTL_SRC : Fld := ⟨.timeCtl, 0, 2⟩
/-- `TIME_CTL.PTM_PORT` [10:2], RW. -/
def F.TIME_CTL_PTM_PORT : Fld := ⟨.timeCtl, 2, 9⟩
/-- `TIME_CTL.PPS_OUT_EN` [11], RW. -/
def F.TIME_CTL_PPS_OUT_EN : Fld := ⟨.timeCtl, 11, 1⟩
/-- `TIME_CTL.SSC_COMP` [12], RW. -/
def F.TIME_CTL_SSC_COMP : Fld := ⟨.timeCtl, 12, 1⟩
/-- `TIME_CTL.PTM_IV` [20:13], RW. -/
def F.TIME_CTL_PTM_IV : Fld := ⟨.timeCtl, 13, 8⟩
/-- `TIME_ADJ.STEP_TH` [23:0], RW. -/
def F.TIME_ADJ_STEP_TH : Fld := ⟨.timeAdj, 0, 24⟩
/-- `TIME_STATUS.SYNCED` [0], RO. -/
def F.TIME_STATUS_SYNCED : Fld := ⟨.timeStatus, 0, 1⟩
/-- `TIME_STATUS.PPS_LOST` [1], W1C. -/
def F.TIME_STATUS_PPS_LOST : Fld := ⟨.timeStatus, 1, 1⟩
/-- `TIME_STATUS.PTM_FAIL` [2], W1C. -/
def F.TIME_STATUS_PTM_FAIL : Fld := ⟨.timeStatus, 2, 1⟩
/-- `TIME_STATUS.STEPPED` [3], W1C. -/
def F.TIME_STATUS_STEPPED : Fld := ⟨.timeStatus, 3, 1⟩
/-- `TIME_STATUS.LAST_ERR` [63:32], RO. -/
def F.TIME_STATUS_LAST_ERR : Fld := ⟨.timeStatus, 32, 32⟩
/-- `TIME_NOW.TIME` [63:0], RO. -/
def F.TIME_NOW_TIME : Fld := ⟨.timeNow, 0, 64⟩
/-- `TIME_SET.TIME` [63:0], WO. -/
def F.TIME_SET_TIME : Fld := ⟨.timeSetReg, 0, 64⟩
/-- `TIME_INCR.INCR` [63:0], RO. -/
def F.TIME_INCR_INCR : Fld := ⟨.timeIncr, 0, 64⟩
/-- `BASE_INCR.INCR` [63:0], RO. -/
def F.BASE_INCR_INCR : Fld := ⟨.baseIncr, 0, 64⟩
/-- `RESET_CTL.SOFT` [0], WO. -/
def F.RESET_CTL_SOFT : Fld := ⟨.resetCtl, 0, 1⟩
/-- `RESET_CTL.BLOCK` [7:1], RW. -/
def F.RESET_CTL_BLOCK : Fld := ⟨.resetCtl, 1, 7⟩
/-- `RESET_CTL.BLOCK_GO` [8], WO. -/
def F.RESET_CTL_BLOCK_GO : Fld := ⟨.resetCtl, 8, 1⟩
/-- `RESET_STATUS.LAST` [2:0], RO. -/
def F.RESET_STATUS_LAST : Fld := ⟨.resetStatus, 0, 3⟩
/-- `RESET_STATUS.WIPE_DONE` [3], RO. -/
def F.RESET_STATUS_WIPE_DONE : Fld := ⟨.resetStatus, 3, 1⟩
/-- `RESET_STATUS.BLOCK_BUSY` [4], RO. -/
def F.RESET_STATUS_BLOCK_BUSY : Fld := ⟨.resetStatus, 4, 1⟩
/-- `RESET_STATUS.BLOCK_ERR` [5], W1C. -/
def F.RESET_STATUS_BLOCK_ERR : Fld := ⟨.resetStatus, 5, 1⟩
/-- `RESET_STATUS.SOFT_COUNT` [31:16], RWS. -/
def F.RESET_STATUS_SOFT_COUNT : Fld := ⟨.resetStatus, 16, 16⟩
/-- `ROLE_STATUS.IN_CHARGE` [0], RO. -/
def F.ROLE_STATUS_IN_CHARGE : Fld := ⟨.roleStatus, 0, 1⟩
/-- `ROLE_STATUS.STRAP_W` [1], RO. -/
def F.ROLE_STATUS_STRAP_W : Fld := ⟨.roleStatus, 1, 1⟩
/-- `ROLE_STATUS.STRAP_E` [2], RO. -/
def F.ROLE_STATUS_STRAP_E : Fld := ⟨.roleStatus, 2, 1⟩
/-- `ROLE_STATUS.VOTE_BY` [3], RO. -/
def F.ROLE_STATUS_VOTE_BY : Fld := ⟨.roleStatus, 3, 1⟩
/-- `ROLE_STATUS.VOTES_FAILED` [5:4], RO. -/
def F.ROLE_STATUS_VOTES_FAILED : Fld := ⟨.roleStatus, 4, 2⟩
/-- `ROLE_STATUS.STANDOFF` [6], RO. -/
def F.ROLE_STATUS_STANDOFF : Fld := ⟨.roleStatus, 6, 1⟩
/-- `ROLE_STATUS.STANDBY_OK` [7], RO. -/
def F.ROLE_STATUS_STANDBY_OK : Fld := ⟨.roleStatus, 7, 1⟩
/-- `ROLE_STATUS.TAKEOVER` [8], W1C. -/
def F.ROLE_STATUS_TAKEOVER : Fld := ⟨.roleStatus, 8, 1⟩
/-- `BOOT_STATUS.STAGE` [2:0], RO. -/
def F.BOOT_STATUS_STAGE : Fld := ⟨.bootStatus, 0, 3⟩
/-- `BOOT_STATUS.SRC` [4:3], RO. -/
def F.BOOT_STATUS_SRC : Fld := ⟨.bootStatus, 3, 2⟩
/-- `BOOT_STATUS.COPY` [5], RO. -/
def F.BOOT_STATUS_COPY : Fld := ⟨.bootStatus, 5, 1⟩
/-- `BOOT_STATUS.TEST_MODE` [6], RO. -/
def F.BOOT_STATUS_TEST_MODE : Fld := ⟨.bootStatus, 6, 1⟩
/-- `BOOT_STATUS.ERR` [10:7], RO. -/
def F.BOOT_STATUS_ERR : Fld := ⟨.bootStatus, 7, 4⟩
/-- `BOOT_STATUS.ERR_INDEX` [31:11], RO. -/
def F.BOOT_STATUS_ERR_INDEX : Fld := ⟨.bootStatus, 11, 21⟩
/-- `BOOT_STATUS.SEQ` [63:32], RO. -/
def F.BOOT_STATUS_SEQ : Fld := ⟨.bootStatus, 32, 32⟩
/-- `LC_STATE.STATE` [1:0], RO. -/
def F.LC_STATE_STATE : Fld := ⟨.lcState, 0, 2⟩
/-- `LC_STATE.DIE_W` [3:2], RO. -/
def F.LC_STATE_DIE_W : Fld := ⟨.lcState, 2, 2⟩
/-- `LC_STATE.DIE_E` [5:4], RO. -/
def F.LC_STATE_DIE_E : Fld := ⟨.lcState, 4, 2⟩
/-- `LC_STATE.BURN_PARTIAL` [6], RO. -/
def F.LC_STATE_BURN_PARTIAL : Fld := ⟨.lcState, 6, 1⟩
/-- `LC_STATE.LC_SPLIT` [7], RO. -/
def F.LC_STATE_LC_SPLIT : Fld := ⟨.lcState, 7, 1⟩
/-- `LC_CTL.TARGET` [1:0], RW. -/
def F.LC_CTL_TARGET : Fld := ⟨.lcCtl, 0, 2⟩
/-- `LC_CTL.ARM` [2], WO. -/
def F.LC_CTL_ARM : Fld := ⟨.lcCtl, 2, 1⟩
/-- `LC_CTL.GO` [3], WO. -/
def F.LC_CTL_GO : Fld := ⟨.lcCtl, 3, 1⟩
/-- `LC_CTL.ARMED` [4], RO. -/
def F.LC_CTL_ARMED : Fld := ⟨.lcCtl, 4, 1⟩
/-- `LC_CTL.BUSY` [5], RO. -/
def F.LC_CTL_BUSY : Fld := ⟨.lcCtl, 5, 1⟩
/-- `LC_CTL.LC_ERR` [6], W1C. -/
def F.LC_CTL_LC_ERR : Fld := ⟨.lcCtl, 6, 1⟩
/-- `DIE_SERIAL.SERIAL` [63:0], RO. -/
def F.DIE_SERIAL_SERIAL : Fld := ⟨.dieSerial, 0, 64⟩
/-- `LC_FUSE.COPY0` [2:0], RO. -/
def F.LC_FUSE_COPY0 : Fld := ⟨.lcFuse, 0, 3⟩
/-- `LC_FUSE.COPY1` [10:8], RO. -/
def F.LC_FUSE_COPY1 : Fld := ⟨.lcFuse, 8, 3⟩
/-- `STALL_CTL.ERR_VEC` [3:0], RW. -/
def F.STALL_CTL_ERR_VEC : Fld := ⟨.stallCtl, 0, 4⟩
/-- `STALL_CTL.MRRS` [6:4], RW. -/
def F.STALL_CTL_MRRS : Fld := ⟨.stallCtl, 4, 3⟩
/-- `DB_ADDR.ADDR` [63:6], RW. -/
def F.DB_ADDR_ADDR : Fld := ⟨.dbAddr, 6, 58⟩
/-- `STALL_STATUS.ACTIVE` [0], RO. -/
def F.STALL_STATUS_ACTIVE : Fld := ⟨.stallStatus, 0, 1⟩
/-- `STALL_STATUS.CFG_ERR` [1], W1C. -/
def F.STALL_STATUS_CFG_ERR : Fld := ⟨.stallStatus, 1, 1⟩
/-- `STALL_STATUS.DATA_OUT` [9:2], RO. -/
def F.STALL_STATUS_DATA_OUT : Fld := ⟨.stallStatus, 2, 8⟩
/-- `RING_BASE.RING_BASE` [63:12], RW. -/
def F.RING_BASE : Fld := ⟨.ringBase, 12, 52⟩
/-- `CQ_BASE.CQ_BASE` [63:12], RW. -/
def F.CQ_BASE : Fld := ⟨.cqBase, 12, 52⟩
/-- `RING_CTL.EN` [0], RW. -/
def F.RING_CTL_EN : Fld := ⟨.ringCtl, 0, 1⟩
/-- `RING_CTL.SIZE_LOG2` [5:1], RW. -/
def F.RING_CTL_SIZE_LOG2 : Fld := ⟨.ringCtl, 1, 5⟩
/-- `RING_CTL.TC` [8:6], RW. -/
def F.RING_CTL_TC : Fld := ⟨.ringCtl, 6, 3⟩
/-- `RING_CTL.RO_EN` [9], RW. -/
def F.RING_CTL_RO_EN : Fld := ⟨.ringCtl, 9, 1⟩
/-- `RING_CTL.IDO_EN` [10], RW. -/
def F.RING_CTL_IDO_EN : Fld := ⟨.ringCtl, 10, 1⟩
/-- `RING_CTL.CPL_VEC` [14:11], RW. -/
def F.RING_CTL_CPL_VEC : Fld := ⟨.ringCtl, 11, 4⟩
/-- `RING_CTL.PASID_EN` [15], RW. -/
def F.RING_CTL_PASID_EN : Fld := ⟨.ringCtl, 15, 1⟩
/-- `RING_CTL.PRIV` [16], RW. -/
def F.RING_CTL_PRIV : Fld := ⟨.ringCtl, 16, 1⟩
/-- `RING_CTL.RESUME` [17], WO. -/
def F.RING_CTL_RESUME : Fld := ⟨.ringCtl, 17, 1⟩
/-- `RING_CTL.PASID` [51:32], RW. -/
def F.RING_CTL_PASID : Fld := ⟨.ringCtl, 32, 20⟩
/-- `RING_START.RING_START.CI` [15:0], RW. -/
def F.RING_START_CI : Fld := ⟨.ringStart, 0, 16⟩
/-- `RING_STATUS.RING_STATUS.CI` [15:0], RO. -/
def F.RING_STATUS_CI : Fld := ⟨.ringStatus, 0, 16⟩
/-- `RING_STATUS.RING_STATUS.STATE` [18:16], RO. -/
def F.RING_STATUS_STATE : Fld := ⟨.ringStatus, 16, 3⟩
/-- `RING_STATUS.RING_STATUS.PHASE` [19], RO. -/
def F.RING_STATUS_PHASE : Fld := ⟨.ringStatus, 19, 1⟩
/-- `RING_STATUS.RING_STATUS.ERR` [27:20], RO. -/
def F.RING_STATUS_ERR : Fld := ⟨.ringStatus, 20, 8⟩
/-- `RING_STATUS.RING_STATUS.FAIL_IDX` [47:32], RO. -/
def F.RING_STATUS_FAIL_IDX : Fld := ⟨.ringStatus, 32, 16⟩
/-- `Mailbox OUT.DATA` [31:0], RW. -/
def F.MB_OUT_DATA : Fld := ⟨.mbOut, 0, 32⟩
/-- `Mailbox IN.DATA` [31:0], RO. -/
def F.MB_IN_DATA : Fld := ⟨.mbIn, 0, 32⟩
/-- `MB_CTL.SEND` [0], WO. -/
def F.MB_CTL_SEND : Fld := ⟨.mbCtl, 0, 1⟩
/-- `MB_CTL.OUT_LEN` [7:1], RW. -/
def F.MB_CTL_OUT_LEN : Fld := ⟨.mbCtl, 1, 7⟩
/-- `MB_CTL.OUT_BUSY` [8], RO. -/
def F.MB_CTL_OUT_BUSY : Fld := ⟨.mbCtl, 8, 1⟩
/-- `MB_CTL.IN_FULL` [9], RO. -/
def F.MB_CTL_IN_FULL : Fld := ⟨.mbCtl, 9, 1⟩
/-- `MB_CTL.ACK` [10], WO. -/
def F.MB_CTL_ACK : Fld := ⟨.mbCtl, 10, 1⟩
/-- `MB_CTL.IN_LEN` [17:11], RO. -/
def F.MB_CTL_IN_LEN : Fld := ⟨.mbCtl, 11, 7⟩
/-- `MB_CTL.MB_VEC` [21:18], RW. -/
def F.MB_CTL_MB_VEC : Fld := ⟨.mbCtl, 18, 4⟩
/-- `TALLY_PAGE.EN` [0], RW. -/
def F.TALLY_PAGE_EN : Fld := ⟨.tallyPage, 0, 1⟩
/-- `TALLY_PAGE.USER_EN` [1], RO. -/
def F.TALLY_PAGE_USER_EN : Fld := ⟨.tallyPage, 1, 1⟩
/-- `TALLY_PAGE.TALLY_FAULT` [2], W1C. -/
def F.TALLY_PAGE_TALLY_FAULT : Fld := ⟨.tallyPage, 2, 1⟩
/-- `TALLY_PAGE.ADDR` [63:12], RW. -/
def F.TALLY_PAGE_ADDR : Fld := ⟨.tallyPage, 12, 52⟩

end Sys2Proof.Machine
end

