-- ==== Sys2Proof/Machine/Store.lean ====
section
/-! DEFINITION. Sparse tables in one canonical form: entries in rising order of `ord`, none equal to what an
unlisted key holds, so that equal tables are equal data. -/

namespace Sys2Proof.Machine

/-- A table from keys to values that lists only the keys whose value differs from the default. -/
abbrev Store (κ α : Type) := List (κ × α)

/-- The value at a key; `d` gives what an unlisted key holds. -/
def Store.get {κ α : Type} [DecidableEq κ] (d : κ → α) : Store κ α → κ → α
  | [], k => d k
  | (k', v) :: t, k => if k' = k then v else Store.get d t k

/-- A table without the key. -/
def Store.erase {κ α : Type} [DecidableEq κ] : Store κ α → κ → Store κ α
  | [], _ => []
  | (k', v) :: t, k => if k' = k then Store.erase t k else (k', v) :: Store.erase t k

/-- A table with an entry put in before the first entry of higher order. -/
def Store.insert {κ α : Type} (ord : κ → Nat) : Store κ α → κ → α → Store κ α
  | [], k, v => [(k, v)]
  | (k', v') :: t, k, v =>
    if ord k < ord k' then (k, v) :: (k', v') :: t else (k', v') :: Store.insert ord t k v

/-- A table with the value at a key replaced; writing the default removes the entry. -/
def Store.set {κ α : Type} [DecidableEq κ] [DecidableEq α] (ord : κ → Nat) (d : κ → α) (t : Store κ α) (k : κ)
    (v : α) : Store κ α :=
  if v = d k then t.erase k else (t.erase k).insert ord k v

/-- A table numbered by `Nat` whose unlisted keys all hold `d`. -/
abbrev Tbl (α : Type) := Store Nat α

/-- The value at index `k`. -/
def Tbl.look {α : Type} (d : α) (t : Tbl α) (k : Nat) : α := Store.get (fun _ => d) t k

/-- The table with index `k` replaced. -/
def Tbl.put {α : Type} [DecidableEq α] (d : α) (t : Tbl α) (k : Nat) (v : α) : Tbl α :=
  Store.set id (fun _ => d) t k v

/-- The canonical form, as a Boolean: no key twice, no entry that holds its default, and the order never falls. -/
def Store.wf {κ α : Type} [DecidableEq κ] [DecidableEq α] (ord : κ → Nat) (d : κ → α) : Store κ α → Bool
  | [] => true
  | (k, v) :: t =>
    decide (v ≠ d k) && t.all (fun e => decide (e.1 ≠ k ∧ ord k ≤ ord e.1)) && Store.wf ord d t

end Sys2Proof.Machine
end

