-- ==== Sys2Proof/Machine/State.lean ====
section
/-! DEFINITION. The state of the MGN-5120 as plain data, the reasons a step can stop, and the state after cold
reset. Registers live in `regs`, the double-buffered tables in `shadow` and `active`, configuration space in `cfg`;
everything else the spec gives the device stands in one structure per unit, held sparsely. -/

namespace Sys2Proof.Machine

/-- Why a step stops. The device itself never stops; these are the host errors for which the manual gives no
outcome at all (R3, R351). All are safe: the model says nothing where the manual says nothing. -/
inductive Fault where
  /-- A write of 1 to a field of type RSV (R8). Raised by every register write. -/
  | rsvWrite
  /-- A lookup that two valid windows of the partition match (R118). Raised by every TLP lookup. -/
  | twoWindows
  /-- A write of a shadow set while `COMMIT_BUSY` is set (R125). Raised by every write of a shadow set. -/
  | shadowWhileBusy
  /-- `WIN_COMMIT` on a device with `HALL_CTL.EN` set, from its TABLE_REQ or claim onward (R192, R213). Raised by writes of
  `FWD_CTL`. -/
  | commitInHall
  /-- A PI of 2^`SIZE_LOG2` or more, or one moved back past CI (R261). Raised by POLL_COMPLETE. -/
  | badPi
  deriving DecidableEq, Repr

/-- Why a command has no meaning. -/
inductive Refusal where
  /-- The command has no meaning in the model yet. Raised by `exec` alone; safe. -/
  | notModelled (mnemonic : String)
  deriving DecidableEq, Repr

/-- A register: its kind and its place in an array. -/
structure RegId where
  kind : RegKind
  i : Nat := 0
  j : Nat := 0
  deriving DecidableEq, Repr

/-- The kinds of word of the double-buffered tables (R117): the windows (`i` partition, `j` 4 × window + 8-byte
word), virtual DSP map (`i` partition, `j` entry), USP Pitch index, bus map (`i` partition, `j` bus), Hall route
(`i` member, `j` 8-byte word), HALL_TREE, HALL_LOCKDOM and TWIN_PART (R213); and the words that are committed with
them and that no register shows (R78, R121): `io` (a DSP's I/O base in [19:0] and limit in [39:20], bit 63 valid),
`uspIo`, `uspMem`, `uspPref` (base, limit), `ena` (bit 0 I/O space, 1 memory space, 2 bus master enable of a
bridge; `j` 256 is the USP), `buses` ([7:0] the internal bus, [15:8] the USP's captured bus). -/
inductive TblKind where
  | win | vdsp | pidx | bus | route | tree | lockdom | twinPart
  | io | uspIo | uspMem | uspPref | ena | buses
  deriving DecidableEq, Repr

/-- A word of a double-buffered table. -/
structure TblId where
  kind : TblKind
  i : Nat := 0
  j : Nat := 0
  deriving DecidableEq, Repr

/-- A PCI function of the device: the bridge function of port `p` (USP or DSP), a service DSP (254 or 255), the
two physical functions and the Stalls (R77, R79), and this member's copy of a virtual bridge of partition `q` whose port is on
another Hall member (`v` 256 is the USP's; R78, R213). -/
inductive Fn where
  | port (p : Nat) | svc (v : Nat) | mgmtPf | porterPf | stall (s : Nat) | remote (q v : Nat)
  deriving DecidableEq, Repr

/-- A dword of a function's configuration space, by dword number. -/
structure CfgId where
  fn : Fn
  dw : Nat
  deriving DecidableEq, Repr

/-- What a link is told or asked to do, as it leaves the device. -/
inductive LinkOut where
  | hotReset (on : Bool) | disabled | l0sEntry | l1Request | l1Accept | l1Deny | l0pRequest (width : Nat)
  | l0pAnswer (width : Nat) | retrain | updateFc (vc kind n : Nat) | nullified
  | ltr (v : BitVec 32) | ptmRequest | ptmResponse (time : Option (BitVec 64)) | train | replay
  | errMsg (code : BitVec 8)
  deriving DecidableEq, Repr

/-- The messages of the spare lane's own stream (R59, R60). -/
inductive SpareMsg where
  | offer (cap : Nat) | accept (cap : Nat) | req (lane : Nat) | ack (lane seq : Nat) | nak (lane : Nat)
  deriving DecidableEq, Repr

/-- What the device hands to the outside (log 5), oldest first in `State.out`. -/
inductive Out where
  /-- A TLP on the PCIe link of a port. -/
  | tlp (p : Nat) (t : Tlp)
  /-- A TLP in data flits of a fabric port, with the link header of each flit (R199) and the Nerup header. -/
  | fabric (p : Nat) (hdrs : List (BitVec 48)) (n : Nth) (t : Tlp)
  /-- A Hall control message in a control flit of a fabric port (R202), with its link header. -/
  | ctl (p : Nat) (hdr : BitVec 48) (m : CtlMsg)
  /-- Idle or init flits of a fabric port: their link headers (R199). -/
  | flits (p : Nat) (hdrs : List (BitVec 48))
  /-- The standby's copy of a table pushed or a phase message sent (R195). -/
  | standbyCopy (p : Nat) (m : CtlMsg)
  /-- A TLP accepted by a Porter (core port `n`) or by a physical function. -/
  | toPorter (n : Nat) (t : Tlp)
  | toFn (f : Fn) (t : Tlp)
  | link (p : Nat) (o : LinkOut)
  | spare (r : Nat) (m : SpareMsg)
  /-- An equalization answer, or the preset or coefficients the device asks its partner for (R49, R50). -/
  | eqAnswer (r m : Nat) (accept : Bool)
  | eqRequest (r m : Nat) (preset : Option Nat) (cM2 cM1 c0 cP1 : Nat)
  /-- The full swing and low frequency that a lane's transmitter reports, and the precoding its receiver asks for (R48, R49). -/
  | eqReport (r m fs lf : Nat)
  | eqPrecode (r m : Nat)
  | marginAnswer (r m : Nat) (ok : Bool) (errs : Nat)
  | marginReport (r m : Nat) (what : MarginReport) (v : BitVec 8)
  | prbsError (r m : Nat)
  /-- An interrupt message: MSI-X entry `e` of a function, or the MSI of the DSP of port `p`. -/
  | msix (f : Fn) (e : Nat)
  | msi (p : Nat)
  /-- A configuration request's completion to the host (R122, R213). -/
  | cfgDone (q : Nat) (status : CplStatus)
  /-- A register read's or I3C read's data. -/
  | readData (v : BitVec 64)
  | readBytes (bytes : List Byte)
  | i3cData (bytes : List Byte)
  /-- The Provisional ID in dynamic address assignment (R406). -/
  | i3cId (id : BitVec 48)
  | debugData (bytes : List Byte)
  /-- Output bits latched by a chain position (R91). -/
  | sbLatch (h j : Nat) (bits : Byte)
  /-- The bits of a frame in the order in which SB_DOUT shows them (R91). -/
  | sbDout (h : Nat) (bits : List Bool)
  /-- SLOT_GATE driven or discharged, SLOT_PG (R354-R362). -/
  | gate (n : Nat) (on : Bool)
  | slotPg (n : Nat) (on : Bool)
  | pps (level : Bool)
  /-- TDO in a shift state, and the pins that a die drives under EXTEST (R443). -/
  | tdo (level : Bool)
  | boundary (die : Nat) (levels : List Bool)
  deriving DecidableEq, Repr

/-- The decision bound in the lookup cycle (R111). `ledger` is the context of a marked write. -/
structure Decision where
  egress : Nat := 1023
  half : Nat := 0
  tcq : Nat := 0
  vc : Nat := 0
  dstMember : Nat := 0
  dest : Nat := 0
  bucket : Nat := 0
  verdict : Nat := 0
  part : Nat := 0
  hallPart : Nat := 0
  ledger : Option Nat := none
  gen : Nat := 0
  action : Nat := 0
  deriving DecidableEq, Repr

/-- A TLP in the Floor with its decision and the other fields of its cell header (R141), the cells it holds in
order (R142), its binding number (R136), and what its Nerup header carries (R200; `carried` is the VERDICT there). `creditKind` is the kind of
link credit it used at its ingress (R155 item 2): 0 dedicated, 1 shared, 2 none; `quiet` marks a generated completion that no fence waits
for (R136), `made` a completion on its way to the generator's place at its arbiter (R165). -/
structure Stored where
  id : Nat
  d : Decision
  tlp : Tlp
  cells : List Nat := []
  ingress : Nat := 1023
  pool : Nat := 0
  inVc : Nat := 0
  moved : Bool := false
  poisoned : Bool := false
  ct : Bool := false
  inGen : Nat := 0
  creditKind : Nat := 2
  src : Nat := 0
  twin : Option Nat := none
  locked : Bool := false
  cplId : BitVec 16 := 0
  hops : Nat := 0
  carried : Nat := 0
  quiet : Bool := false
  made : Bool := false
  deriving DecidableEq, Repr

/-- A TLP a link has sent and its partner has not acknowledged (R133, R136, R206). -/
structure Sent where
  seq : Nat
  st : Stored
  deriving DecidableEq, Repr

/-- One half's share of an ingress pool: cells covered and cells held, posted, non-posted, completion and (common
and escape) held (R152, R153). -/
structure PoolHalf where
  covP : Nat := 0
  covNP : Nat := 0
  covC : Nat := 0
  heldP : Nat := 0
  heldNP : Nat := 0
  heldC : Nat := 0
  heldS : Nat := 0
  deriving DecidableEq, Repr

/-- The pools of one ingress and VC (R152-R156): the two halves, the credits outstanding at the partner (header and
data of posted, non-posted, completion and shared, in that order), the credits freed and not yet returned in the same
order, and the WITHHOLD state. -/
structure Pool where
  w : PoolHalf := {}
  e : PoolHalf := {}
  adv : List Nat := [0, 0, 0, 0, 0, 0, 0, 0]
  owed : List Nat := [0, 0, 0, 0, 0, 0, 0, 0]
  withhold : Bool := false
  deriving DecidableEq, Repr

/-- A bank group's free list (R142, R144): the cells from local index `fresh` on, then `returned` in order. `live`
says that the group is ON with its cells wiped; `out` counts the cells of its retiring bank that have left the half's free count (R151); `cand`
says that this bank became a candidate in the retirement window under way (R163). -/
structure GroupSt where
  fresh : Nat := 0
  returned : List Nat := []
  live : Bool := false
  out : Nat := 0
  cand : Bool := false
  deriving DecidableEq, Repr

/-- A bank's scrub row (R149), its corrections in the retirement window (R150) and an uncorrectable chunk seen in it. -/
structure BankSt where
  row : Nat := 0
  winCorr : Nat := 0
  deriving DecidableEq, Repr

/-- The Floor (R139-R162). Queues are numbered 9 × egress point + TCQ; `chunks` holds the symbol errors of a chunk
(4 × cell + k), `data` its bytes where the TLP that holds it does not say them: what the debug port wrote, what a TLP left behind in a free
cell; a chunk that neither has reads as 0 (R161). `late` are the banks that became candidates while a wipe runs (R163);
`wipeHalf` is the half that it wipes, where it is not both (R161). -/
structure FloorSt where
  queues : Tbl (List Stored) := []
  pools : Tbl Pool := []
  groups : Tbl GroupSt := []
  banks : Tbl BankSt := []
  rr : List Nat := [0, 0]
  chunks : Tbl Nat := []
  data : Tbl (Option (BitVec 512)) := []
  wiping : Bool := false
  wipeHalf : Option Nat := none
  late : List Nat := []
  rrTcq : Tbl Nat := []
  deriving DecidableEq, Repr

/-- A request at a crossbar arbiter (R165): requester index, class, TLP, hint. -/
structure XbReq where
  idx : Nat
  cls : Nat
  st : Stored
  hint : Nat := 0
  deriving DecidableEq, Repr

/-- A crossbar arbiter (R165-R170): pending requests, the one that has waited longest first, grants counted toward the reserved one, the last
grantee of classes 1 to 3. -/
structure ArbSt where
  reqs : List XbReq := []
  count : Nat := 0
  last1 : Nat := 38
  last2 : Nat := 38
  last3 : Nat := 38
  deriving DecidableEq, Repr

/-- A port's scheduler (R179-R188): the active groups in list order with their deficits, the groups still to visit
in the round under way (the first being visited once `visiting`), each group's active TCQs in order with the TCQ whose turn it is
(as TCQ + 1), the byte deficits, the token counts in millibytes (8 is the port's), writes that wait for the end of the round; whether the gate
list's first cycle has begun, device time when gating was enabled and when SWITCH was written, and the earliest device time at which the other
list may take over (R186). -/
structure SchedSt where
  groups : List Nat := []
  gdef : Tbl Nat := []
  left : List Nat := []
  visiting : Bool := false
  round : Bool := false
  tcqs : Tbl (List Nat) := []
  cur : Tbl Nat := []
  qdef : Tbl Nat := []
  tok : Tbl Int := []
  pend : List (RegId × Word) := []
  gateStarted : Bool := false
  enAt : Nat := 0
  swAt : Nat := 0
  swFrom : Nat := 0
  deriving DecidableEq, Repr

/-- A host's bridge write that waits for its completion (R122): the partition, and the request where it came as a TLP. -/
structure BridgeWait where
  q : Nat
  reply : Option Stored := none
  deriving DecidableEq, Repr

/-- Forwarding (R78, R122, R125, R134): a held WIN_COMMIT, the copy to make, the bridge writes that wait for
their completion, the bus number each partition's USP captured, the Hall route of the previous commit, partitions rebuilt while the
copy runs, whose shadow words it would overwrite (R122), and shadow words that a master pushed meanwhile (R213). -/
structure FwdSt where
  held : Bool := false
  copying : Bool := false
  bridge : List BridgeWait := []
  captured : Tbl Nat := []
  oldRoute : List (TblId × Word) := []
  dirty : List Nat := []
  late : List TblId := []
  deriving DecidableEq, Repr

/-- The PCIe side of a port: link credits in hand (PH, PD, NPH, NPD, CplH, CplD, shared header, shared data; the Nerup credits at 8 × VC + kind),
TLPs sent and not acknowledged, sequence numbers, replay count, what holds the link (purge, Link Disable, Hot Reset, DPC), L0p width, lock state:
the MRdLk held and the TLPs that wait behind it, a granted sequence of this ingress and the members and DESTs that it has locked, the domain,
ingress and source member for which this DSP is locked (R217, R218); the TLP that the transmitter holds open until its ingress has replayed it
(R128); the last LTR message received, or at a USP sent, whether its L1 is that of D3hot, the L1 substate while it is in L1 (R87); and whether it
runs SRIS since its last pass through Detect (R367). -/
structure LinkSt where
  cr : Tbl Nat := []
  inf : List Nat := []
  replay : List Sent := []
  nextSeq : Nat := 0
  replayNum : Nat := 0
  purge : Bool := false
  disable : Bool := false
  hotReset : Bool := false
  dpc : Bool := false
  fullWidth : Nat := 0
  l0p : Nat := 0
  lockSlot : Option Stored := none
  locked : Bool := false
  lockTo : List (Nat × Nat) := []
  behind : List Stored := []
  lockDom : Option (Nat × Nat × Nat) := none
  opened : Option Stored := none
  ltr : Option (BitVec 32) := none
  pmL1 : Bool := false
  sub : Nat := 0
  sris : Bool := false
  deriving DecidableEq, Repr

/-- The Nerup side of a fabric port beyond its registers (R196-R212): next expected SEQ, the last accepted SEQ frozen by a failure, replays
without progress, NAK of the last header received, cumulative counters last received (8 × VC + kind; 64 is control), counters not yet received in
CREDIT_INIT, CURRENT of the last HELLO sent and received, FAILOVER_QUERY unanswered, the port has FAILED since it was last ACTIVE, buckets for
which it is not selectable yet (R210), the CRCs of the last TWIN_CHECK received and sent (R229); the SEQ of the last data flit and the bytes of
its body that segments have filled, 0 where the next segment starts a flit; a segment of which a flit failed its check: where it begins (SEQ,
byte) and the next expected SEQ then; SEQs of control flits among the flits of the last segment, which are accepted with it (R200, R206). Of what
it sends: NAK, the cumulative counters less the 8 that control credit starts from, the one that the next data or control flit carries (R199,
R203), the oldest SEQ not acknowledged, the control flits sent and the control messages of the replay buffer with their SEQ (R203, R206), the
control transmit queue, and messages that wait for room in it, with the port in whose receive buffer a relayed one stays (R212). -/
structure NerupSt where
  rx : Nat := 0
  frozen : Option Nat := none
  count : Nat := 0
  nak : Bool := false
  crd : Tbl Nat := []
  unseen : List Nat := []
  sentCur : Bool := false
  gotCur : Bool := false
  query : Bool := false
  failed : Bool := false
  hold : List Nat := []
  crc : Option Nat := none
  crcOut : Option Nat := none
  rxData : Nat := 0
  rxFill : Nat := 0
  part : Option (Nat × Nat × Nat) := none
  among : List Nat := []
  nakOut : Bool := false
  crdOut : Tbl Nat := []
  crdTurn : Nat := 0
  una : Nat := 0
  ctlSent : Nat := 0
  ctlReplay : List (Nat × CtlMsg) := []
  ctlQ : List CtlMsg := []
  ctlWait : List (CtlMsg × Option Nat) := []
  deriving DecidableEq, Repr

/-- An EDIT that waits at the master or is carried by the commit under way (R213): its sender and TAG. -/
structure EditRec where
  src : Nat
  tag : Nat
  hallPart : Nat
  f : BridgeFn
  off : Nat
  be : BitVec 4
  v : BitVec 32
  deriving DecidableEq, Repr

/-- A CLAIM_ACK (R194, R211): the member, the epoch that it recorded, whether that is applied, the lock domains it holds, its own epoch. -/
structure ClaimAck where
  m : Nat
  recd : Option Nat
  applied : Bool
  held : Nat
  epoch : Nat
  deriving DecidableEq, Repr

/-- Hall membership beyond the registers (R191-R218): epoch of the master's last HEARTBEAT, highest epoch known, the device has not joined since
it came out of reset, TABLE_REQ sent or role claimed, a claim being collected with the CLAIM_ACKs received, and the master before it; as master
the epoch of the commit under way, members in it, members whose answer is awaited, EDITs carried and waiting, link reports (512 × member + port:
state, peer, peer port), LOCK_REQs of the interval (member, port, domain); as member data staged, ROUTE_PUSH messages taken and announced, the
expected CRC, prepared, the APPLY whose exchange is awaited (epoch, TAG, master), EDITs sent (TAG, the write), the next TAG; as a new master a
commit follows the settlement, and members whose TABLE_REQ came while it collected CLAIM_ACKs (R215). -/
structure HallSt where
  lastHb : Nat := 0
  high : Nat := 0
  fresh : Bool := true
  asked : Bool := false
  hasMaster : Bool := false
  claim : Option (List ClaimAck) := none
  old : Option Nat := none
  target : Nat := 0
  inCommit : List Nat := []
  waits : List Nat := []
  edits : List EditRec := []
  editQ : List EditRec := []
  links : Tbl (Nat × Nat × Nat) := []
  lockReqs : List (Nat × Nat × Nat) := []
  staged : List Byte := []
  segs : Nat := 0
  want : Nat := 0
  expect : Nat := 0
  prepared : Bool := false
  applyTag : Option (Nat × Nat × Nat) := none
  sent : List (Nat × BridgeWait) := []
  tag : Nat := 0
  form : Bool := false
  tableReqs : List Nat := []
  deriving DecidableEq, Repr

/-- A deduplication record (R236-R238): NEXT, held copies by number, runs of numbers given up (first, count). -/
structure StreamSt where
  next : Option Nat := none
  held : List (Nat × Stored) := []
  gave : List (Nat × Nat) := []
  deriving DecidableEq, Repr

/-- The Twin Hall (R225-R243): PAIR_SEQ counters (4,096 × member + bucket), deduplication records (the same
numbering by SRC_MEMBER), members whose STREAM_RESET_ACK is awaited, and the DEGRADED and PART_MISMATCH last signalled. -/
structure TwinSt where
  pairs : Tbl Nat := []
  streams : Tbl StreamSt := []
  resetWait : List Nat := []
  degraded : Bool := false
  mismatch : Bool := false
  deriving DecidableEq, Repr

/-- The source or destination of a descriptor (R264, R267): the pieces named so far (offset, address, length), the
address of the next list element (none when nothing more is to be read), consecutive CHAIN elements, a list read under way. -/
structure Cursor where
  pieces : List (Nat × Nat × Nat) := []
  next : Option Nat := none
  chains : Nat := 0
  busy : Bool := false
  deriving DecidableEq, Repr

/-- A descriptor in progress (R264-R268): its first slot, slots occupied and PHASE, the slots' contents; next offset to read and to write; read
data that waits (offset, bytes, poisoned); writes issued and not yet bound; the offset up to which segments are charged (R311); the lowest
failure (offset, status, address); how it ended (status, bytes done, address); the offset at and above which it issues nothing (R298, R303); its
wait or its NOTIFY write done, and of a LEDGER_SYNC whose flush runs that its context lost marks or met a fault (R330); the Ledger context of
that flush; its ring has halted for its failure (R279); read-aheads refused and to be issued again (offset, length). -/
structure Desc where
  slot : Nat
  n : Nat := 1
  phase : Bool := true
  raw : List (BitVec 512) := []
  rd : Nat := 0
  wr : Nat := 0
  src : Cursor := {}
  dst : Cursor := {}
  stage : List (Nat × List Byte × Bool) := []
  unbound : Nat := 0
  charged : Nat := 0
  fail : Option (Nat × Nat × Nat) := none
  ended : Option (Nat × Nat × Nat) := none
  lim : Option Nat := none
  noted : Bool := false
  sync : Option Nat := none
  halted : Bool := false
  redo : List (Nat × Nat) := []
  deriving DecidableEq, Repr

/-- A translation fault of a ring or of a Stall's poll (R298-R300): KIND, CAUSE, LEVEL, address, offset S, slot, WRITE, PASID,
PMR; `written` says that its record has been written, `aborted` that it ends as an ABORT with no record (R338). -/
structure XFault where
  kind : Nat
  cause : Nat
  level : Nat
  addr : Nat
  off : Nat := 0
  slot : Nat := 0
  write : Bool := false
  pasid : Option (BitVec 20) := none
  pmr : Bool := false
  written : Bool := false
  aborted : Bool := false
  deriving DecidableEq, Repr

/-- An egress port through which a ring's data writes went (R277): the bus address, AT, Stall address and descriptor of the last dword written,
and whether a record or a NOTIFY has announced these writes. -/
structure NotedPort where
  e : Nat
  addr : Nat
  aty : Nat
  va : Nat
  slot : Nat
  told : Bool := false
  deriving DecidableEq, Repr

/-- A ring beyond its registers (R259-R304; number 8 × Stall + r): PI last seen, fetch position, slots fetched and not started, a descriptor read
under way, descriptors in progress, the parked descriptor (slot, offset, the descriptor where it had started), the fault that suspends it, the
same fault while writes below S are still issued, the egress ports of writes not known to be visible (R268, R277), flush reads outstanding, the
ports written again since, the Stall address of a flush that failed, the slot from which a descriptor read failed. -/
structure RingSt where
  pi : Nat := 0
  fetch : Nat := 0
  slots : List (BitVec 512) := []
  fetching : Bool := false
  prog : List Desc := []
  saved : Option (Nat × Nat × Option Desc) := none
  fault : Option XFault := none
  susp : Option XFault := none
  ports : List NotedPort := []
  flushing : Nat := 0
  again : List Nat := []
  flushBad : Option Nat := none
  fetchBad : Option Nat := none
  deriving DecidableEq, Repr

/-- A Stall beyond its registers (R262, R310-R314): consecutive empty polls, the fault of
its poll, deficit, token count in millibytes, in its Porter's list, a STALL_SHARE write that waits, its six counters, passes
of its tally page since EN was set (R420). -/
structure StallSt where
  empties : Nat := 0
  pollFault : Option XFault := none
  deficit : Int := 0
  tokens : Int := 65536000
  listed : Bool := false
  share : Option Word := none
  counts : List Nat := [0, 0, 0, 0, 0, 0]
  pages : Nat := 0
  deriving DecidableEq, Repr

/-- A tag slot in use (R271-R274, R320): kind of read (0 data, 1 list, 2 descriptor, 3 poll, 4 flush, 5 page table, 6 translation), Stall, ring,
requester the Porter PF, local tag, GEN, descriptor's slot (65,536 once it has ended), offset, length and bytes received, bus address, Stall
address, data to be discarded, read-ahead, refused as one (R305), in quarantine, stale quarantine, destination side of a list read, and of a read
other than a data read the bytes received. -/
structure TagSt where
  kind : Nat
  stall : Nat
  ring : Nat
  pf : Bool := false
  tag : Nat
  gen : Nat := 0
  slot : Nat := 0
  off : Nat := 0
  len : Nat := 0
  got : Nat := 0
  addr : Nat := 0
  va : Nat := 0
  dead : Bool := false
  ahead : Bool := false
  refused : Bool := false
  quar : Bool := false
  stale : Bool := false
  dst : Bool := false
  buf : List Byte := []
  deriving DecidableEq, Repr

/-- A request at a Porter's core port (R17): what it is (0-6 the reads of `TagSt`, 10 data write, 11 completion record, 12
NOTIFY write, 13 MSI-X message, 14 page request, 15 Invalidation Completion), for which Stall, ring and descriptor, offset in the
descriptor, read-ahead, Stall address that was translated. -/
structure PReq where
  kind : Nat
  stall : Nat
  ring : Nat
  slot : Nat := 0
  off : Nat := 0
  ahead : Bool := false
  va : Nat := 0
  tlp : Tlp
  deriving DecidableEq, Repr

/-- A Porter beyond its registers (R257-R313): tag slots in use, its core port's queue, the Stalls of its list, those still to
be visited in the round, the Stall whose turn it is, the ring it serves (8 × Stall + r), and whether that ring is being parked. -/
structure PorterSt where
  tags : Tbl (Option TagSt) := []
  port : List PReq := []
  list : List Nat := []
  left : List Nat := []
  turn : Option Nat := none
  ring : Option Nat := none
  park : Bool := false
  deriving DecidableEq, Repr

/-- Whose translation it is (R299): Porter, Stall, ring, KIND, destination side of a list read. -/
structure XWaiter where
  porter : Nat
  stall : Nat
  ring : Nat
  kind : Nat
  dst : Bool := false
  deriving DecidableEq, Repr

/-- A cached translation (R289): page size as log2 bytes, Stall page and bus page as numbers of that size. -/
structure XEnt where
  stall : Nat
  mode : Nat
  pasid : Option (BitVec 20)
  size : Nat
  page : Nat
  bus : Nat
  r : Bool
  w : Bool
  u : Bool := false
  deriving DecidableEq, Repr

/-- A walk or Translation Request under way (R286, R290, R294, R295): address, level, table base, tag slot (none while no
slot is free; 512 × Porter + slot), who waits, waiting for a PRG Response, ended, and with which CAUSE and LEVEL if in a fault. -/
structure WalkSt where
  stall : Nat
  mode : Nat
  pasid : Option (BitVec 20)
  pmr : Bool
  addr : Nat
  level : Nat := 4
  table : Nat := 0
  slot : Option Nat := none
  waiters : List XWaiter := []
  prg : Option Nat := none
  done : Bool := false
  res : Option (Nat × Nat) := none
  deriving DecidableEq, Repr

/-- A fault record that waits for room (R300): Porter and half, Stall, ring, the fault. -/
structure FqRec where
  porter : Nat
  stall : Nat
  ring : Nat
  x : XFault
  deriving DecidableEq, Repr

/-- A half's translation unit (R283-R302): the cache by set, most recently used first; walks; requests waiting for one; fault
records waiting; PHASE of the fault queue; a vector unanswered. -/
structure XlatSt where
  cache : Tbl (List XEnt) := []
  walks : Tbl (Option WalkSt) := []
  waitq : List (XWaiter × Nat) := []
  fq : List FqRec := []
  phase : Bool := false
  vector : Bool := false
  deriving DecidableEq, Repr

/-- An invalidation (R292, R293): scope 0 to 2, Stall, first page and pages, the ITag and PASID of an ATS Invalidation Request, the reads
that it waits for (512 × Porter + tag slot) and the requests at a Porter's core port up to the last that it waits for. -/
structure InvSt where
  scope : Nat
  stall : Nat
  page : Nat := 0
  pages : Nat := 0
  itag : Option Nat := none
  pasid : Option (BitVec 20) := none
  reads : List Nat := []
  writes : List (Nat × Nat) := []
  deriving DecidableEq, Repr

/-- An entry of a Ledger cache (R325), with the binding number of its first mark. -/
structure LedEnt where
  ctx : Nat
  sel : Bool
  word : Nat
  mask : BitVec 64
  id : Nat
  deriving DecidableEq, Repr

/-- A Ledger flush (R328): what asked for it (0 periodic, 1 register, 2 swap, 3 teardown, 4 + ring number LEDGER_SYNC) and the lookups before
it. -/
structure LedFlush where
  ctx : Nat
  kind : Nat
  mark : Nat
  deriving DecidableEq, Repr

/-- The Ledger (R322-R332): the two halves' caches by set (4,096 × half + set), most recently used first; entries to be
folded by home half; folds outstanding by home half; flushes; swaps and teardowns that wait; MARKS are registers. -/
structure LedgerSt where
  cache : Tbl (List LedEnt) := []
  queue : Tbl (List LedEnt) := []
  folds : Tbl (List LedEnt) := []
  flushes : List LedFlush := []
  downWait : List Nat := []
  deriving DecidableEq, Repr

/-- A lane beyond its registers: the equalization under way (LANE_EQ_CTL as it was at its start, its rate, its phase 2 or 3; `scan` presets
evaluated, 11 in refinement; best preset, best figure, coefficients c(-2), c(-1), c(0), c(+1) of the best and of the set under
evaluation, the neighbour under evaluation, refinement requests made; R50), the transmitter's coefficients and precoding (R48, R49),
margining and its error limit (R55). -/
structure LaneSt where
  ctl : Option Word := none
  rate : Nat := 0
  phase : Nat := 0
  scan : Nat := 0
  best : Option Nat := none
  fom : Nat := 0
  coef : List Nat := []
  tryC : List Nat := []
  nbr : Nat := 0
  n : Nat := 0
  tx : List Nat := []
  txPre : Bool := false
  margin : Bool := false
  limit : Nat := 0
  deriving DecidableEq, Repr

/-- A Row's sparing beyond its registers (R61, R65): of this L0 entry the offer sent, the offer received, an offer or acceptance received, no
further messages; the first mirrored Flit that SPARE_ACK named. -/
structure RowSt where
  sent : Bool := false
  got : Bool := false
  heard : Bool := false
  silent : Bool := false
  seq : Option Nat := none
  deriving DecidableEq, Repr

/-- A hot-plug slot and its sideband (R91-R106): debounced presence, CLKREQ_N as sampled, the output bits the slot logic holds, the bits latched
at the last SB_LOAD, power valid, power-off due at the SB_LOAD that latches PERST_N, Command Completed waiting for its bits to be shifted out,
for their SB_LOAD, and for the gate drive or the end of a power-off, the power indicator forced off by a surprise down, Presence Detect State at
COOLING entry, the presence debounce after COOLING under way; the reported PWRFLT_N fault with the consecutive accepted frames that say
otherwise, the button still held, and presence lost in this frame. -/
structure SlotSt where
  present : Bool := false
  clkreq : Bool := false
  perstN : Bool := false
  pwrEn : Bool := false
  latched : Byte := 0
  valid : Bool := false
  offAtLoad : Bool := false
  cmdWait : Bool := false
  cmdOut : Bool := false
  gateWait : Bool := false
  indOff : Bool := false
  coolPresent : Bool := false
  debounce : Bool := false
  pwrflt : Bool := false
  pfRun : Nat := 0
  btnDown : Bool := false
  lost : Bool := false
  deriving DecidableEq, Repr

/-- A Signboard chain (R90-R96): consecutive discarded frames, inputs frozen, the output bits shifted in the last frame, the
inputs of the last accepted frame. -/
structure ChainSt where
  bad : Nat := 0
  frozen : Bool := false
  shifted : List Byte := []
  inputs : List Byte := []
  deriving DecidableEq, Repr

/-- A slot power channel beyond its registers (R355-R361): consecutive ticks out of limit, with high V_DS, with low VIN,
with shunt current and no gate drive; ticks since the discharge began; the last tick met the power-good conditions; the
discharge is a fault's; the restart hold-off runs; a power-on command waits for it. -/
structure SpcSt where
  outRun : Nat := 0
  hiRds : Nat := 0
  uv : Nat := 0
  short : Nat := 0
  disTicks : Nat := 0
  pgPrev : Bool := false
  fault : Bool := false
  holdoff : Bool := false
  want : Bool := false
  deriving DecidableEq, Repr

/-- A power domain's pending change (R378, R384): power-off asked while WAKING, power-on asked while SLEEPING, in
its ramp. -/
structure DomainSt where
  offAfter : Bool := false
  onAfter : Bool := false
  ramp : Bool := false
  deriving DecidableEq, Repr

/-- A half's clocks (R368-R383): relock under way, root cycles left over of a CCLK cycle, no reading below WARN - 5 °C since
THERM_WARN was set. -/
structure ClockSt where
  relock : Bool := false
  phase : Nat := 0
  warned : Bool := false
  deriving DecidableEq, Repr

/-- The lifecycle fuses and the serial numbers of the two dies (R399): what is burned, never cleared. -/
structure FuseSt where
  w0 : BitVec 3 := 0
  w1 : BitVec 3 := 0
  e0 : BitVec 3 := 0
  e1 : BitVec 3 := 0
  serialW : BitVec 64 := 0x00317A4000001C02
  serialE : BitVec 64 := 0x00317A4000001BF9
  deriving DecidableEq, Repr

/-- Reset, roles, boot and lifecycle (R386-R401): pins and their effects, fuse shadow loads, votes, the wipe and the resets in progress, the
image being replayed, the records left to replay after a block reset (R390), the value with which the read of a POLL32 has completed and its
OFFSET, the TARGETs of the last ARM and of the burn under way, a thermal trip, the subsystem IDs. -/
structure ResetSt where
  perstLow : Bool := false
  supplies : Bool := true
  vddIo : Bool := true
  bootSrc : Nat := 0
  testMode : Bool := false
  shadowW : Option Bool := none
  shadowE : Option Bool := none
  elected : Bool := false
  deviceSafe : Bool := false
  soft : Bool := false
  wipe : Bool := true
  blockBusy : Option Nat := none
  image : Option (List Byte) := none
  sections : List (List (List Byte)) := []
  recIdx : Nat := 0
  delaying : Bool := false
  replay : Option (List (List Byte)) := none
  polled : Option (Nat × BitVec 32) := none
  armTarget : Nat := 0
  burnTarget : Nat := 0
  tripped : Bool := false
  subsys : BitVec 64 := 0
  deriving DecidableEq, Repr

/-- A register access that holds or awaits a management request slot (R21, R405). `odd` gives its bytes where they are not the 4 or 8 of
`wide` (R9). -/
structure Access where
  door : Door
  bar : Bar
  off : Nat
  write : Bool
  wide : Bool
  v : BitVec 64 := 0
  odd : Option Nat := none
  deriving DecidableEq, Repr

/-- The management doors (R405-R410): the 4 request slots, accesses waiting for one, the I3C target: its dynamic address, the
pointer, bytes written to a register whose byte 3 has not been, the window with the access that GO started and that has not been made, the
image window (START given, OPEN, IMG_ERR, END given, the bytes received, which lie in the Floor). -/
structure MgmtSt where
  slots : Tbl (Option Access) := []
  waiting : List Access := []
  dynAddr : Option (BitVec 7) := none
  ptr : Nat := 0
  part : Option (Nat × List Byte) := none
  winAddr : BitVec 32 := 0
  winLo : BitVec 32 := 0
  winHi : BitVec 32 := 0
  winWrite : Bool := false
  winWide : Bool := false
  winBusy : Bool := false
  winErr : Bool := false
  winRefused : Bool := false
  winAcc : Option Access := none
  imgOpen : Bool := false
  imgArmed : Bool := false
  imgErr : Bool := false
  imgDone : Bool := false
  imgCount : Nat := 0
  deriving DecidableEq, Repr

/-- The event queue of the half in charge (R411-R415): records held in the chain with the words read of the
current one, the backlog, the posting count, the drop mark, ALERT_N. -/
structure EvqSt where
  chain : List (List (BitVec 32)) := []
  current : List (BitVec 32) := []
  backlog : List (List (BitVec 32)) := []
  seq : Nat := 0
  dropped : Bool := false
  alert : Bool := false
  deriving DecidableEq, Repr

/-- The Tally unit (R417-R420): captured counters, of what switched domains, and of Stalls; of the pass under way the sets
left, the set whose list is read, the Stall pages left; a merged start, the start of the set's pass, passes of each set since EN was
set, RELEASE held. -/
structure TallySt where
  snap : List (RegId × Word) := []
  snapDoms : List Nat := []
  snapStalls : Tbl (List Nat) := []
  sets : List Nat := []
  cur : Option Nat := none
  pages : List Nat := []
  merged : Bool := false
  startTime : Nat := 0
  passes : Tbl Nat := []
  releaseHeld : Bool := false
  deriving DecidableEq, Repr

/-- Device time (R421-R424): the two halves' counts in units of 2^-32 ns, the previous correction point's
reference, consecutive good points, the reference lost, device time at the request of the PTM dialog under way, the level of
TIME_PPS_OUT. -/
structure TimeSt where
  tw : Nat := 0
  te : Nat := 0
  prev : Option Nat := none
  good : Nat := 0
  lost : Bool := false
  dialog : Option Nat := none
  ppsOut : Bool := false
  deriving DecidableEq, Repr

/-- A memory word that an injection stored with an uncorrectable error, until it is used (R342, R350): the replay buffer's word of a TLP
of a port, a word of the active sets, a Pitch or default map entry, staged bytes of a ring's descriptor, a tag slot of a Porter, a ring's
context, an entry of a Ledger context, an event record. -/
inductive BadWord where
  | replay (p id : Nat)
  | fwd (r : TblId)
  | pitch (r : RegId)
  | stage (k slot off : Nat)
  | tag (n slot : Nat)
  | ctx (k : Nat)
  | ledger (c : Nat)
  | record (words : List (BitVec 32))
  deriving DecidableEq, Repr

/-- An error block beyond its registers (R341, R342, R350): armed injections, and memory words with an uncorrectable
error that nothing has used yet. -/
structure ErrSt where
  parity : List Nat := []
  memCorr : Bool := false
  memUncorr : Bool := false
  bad : List BadWord := []
  deriving DecidableEq, Repr

/-- A message formed by a function of the device (R221, R343, R404): the checker it is bound with (a DSP's port; 512 + n a Porter's, for the
Porter PF; 1023 the management PF), the address and data of an interrupt, or the code of an error message. -/
structure OwnReq where
  ingress : Nat
  addr : BitVec 64
  data : BitVec 32
  code : Option (BitVec 8) := none
  deriving DecidableEq, Repr

/-- The states of a TAP controller (IEEE 1149.1). -/
inductive TapState where
  | testLogicReset | runTestIdle | selectDr | captureDr | shiftDr | exit1Dr | pauseDr | exit2Dr | updateDr
  | selectIr | captureIr | shiftIr | exit1Ir | pauseIr | exit2Ir | updateIr
  deriving DecidableEq, Repr

/-- A die's TAP (R443): its controller, the 8-bit instruction register, the register that shifts, the latched boundary-scan register. -/
structure TapSt where
  st : TapState := .testLogicReset
  ir : BitVec 8 := 0xFF
  sr : List Bool := []
  latch : List Bool := []
  deriving DecidableEq, Repr

/-- The JTAG port: the TAPs of the West die and of the East die, chained in this order (R443). -/
structure JtagSt where
  w : TapSt := {}
  e : TapSt := {}
  deriving DecidableEq, Repr

/-- A pulse handshake whose destination has its clocks stopped (R374): the count of the outstanding request, and the 4-bit counter behind it. -/
structure PulseSt where
  out : Nat := 0
  acc : Nat := 0
  deriving DecidableEq, Repr

/-- Everything in the device but its fuses. `out` is what the device has handed out, `free` the count of free values taken and `bindCount` the
count of lookups: `out` and `free` are the model's own; `own` holds the interrupt messages that have not had their lookup cycle; `mgmtQ` the
bound requests of the management PF that no cell or Aisle credit is free for (R12, R145); `aisle` the TLPs in the buffers of an Aisle direction
(3 × ingress half + class, R12); `raised` notes the half in which the event of a device-wide register's bit arose (R335). -/
structure Dev where
  out : List Out := []
  free : Nat := 0
  bindCount : Nat := 0
  own : List OwnReq := []
  regs : Store RegId Word := []
  cfg : Store CfgId (BitVec 32) := []
  msix : Tbl (BitVec 32) := []
  pba : Tbl Nat := []
  shadow : Store TblId Word := []
  active : Store TblId Word := []
  fwd : FwdSt := {}
  floor : FloorSt := {}
  aisle : Tbl (List Stored) := []
  mgmtQ : List Stored := []
  arbs : Tbl ArbSt := []
  scheds : Tbl SchedSt := []
  fences : Tbl Nat := []
  nerup : Tbl NerupSt := []
  hall : HallSt := {}
  twin : TwinSt := {}
  rings : Tbl RingSt := []
  stalls : Tbl StallSt := []
  porters : Tbl PorterSt := []
  xlat : Tbl XlatSt := []
  invs : List InvSt := []
  ledger : LedgerSt := {}
  links : Tbl LinkSt := []
  lanes : Tbl LaneSt := []
  rows : Tbl RowSt := []
  slots : Tbl SlotSt := []
  chains : Tbl ChainSt := []
  spcs : Tbl SpcSt := []
  domains : Tbl DomainSt := []
  pulses : Tbl PulseSt := []
  jtag : JtagSt := {}
  clocks : Tbl ClockSt := []
  rst : ResetSt := {}
  mgmt : MgmtSt := {}
  evq : EvqSt := {}
  tally : TallySt := {}
  time : TimeSt := {}
  errs : Tbl ErrSt := []
  raised : List (Fld × Nat) := []
  deriving DecidableEq, Repr

/-- The state of the MGN-5120: the commands that wait, first in first out; the fuses of its two dies, which only burning
changes (R399); and everything else. -/
structure State where
  pending : List Instr := []
  fuses : FuseSt := {}
  dev : Dev := {}
  deriving DecidableEq, Repr

/-- The device right after cold reset (R386, R427): every register at its reset value, every memory and queue
empty, every switched domain OFF. -/
def State.reset : State := {}

end Sys2Proof.Machine
end

