-- ==== Sys2Proof/Machine/RegMap.lean ====
section
/-! DEFINITION. Where each register lies: its offset, the register at an offset (18_register_map.md), the error
block it belongs to (R448), the switched domain it lies in (R380), and its value after cold reset (R427). -/

namespace Sys2Proof.Machine

/-- The half of ingress checker or ingress pool `i`: port 0-511, or 512 + Porter (R10). -/
def ingHalf (i : Nat) : Nat := if i < 512 then i / 256 else (i - 512) / 32

/-- The half of egress point `e`; the physical functions lie in the half in charge (R111). -/
def egHalf (ic e : Nat) : Nat := if e < 512 then e / 256 else if e < 514 then ic else (e - 514) / 32

/-- The half of switched domain `d` (R377). -/
def domHalf (d : Nat) : Nat :=
  if d < 128 then d / 64 else if d < 160 then (d - 128) / 16 else if d < 192 then (d - 160) / 16
  else if d < 200 then (d - 192) / 4 else d % 2

/-- Order of registers in `State.regs`: register map order, then place. -/
def RegId.ord (r : RegId) : Nat := (r.kind.ctorIdx * 0x10000 + r.i) * 0x10000 + r.j

/-- Order of double-buffered words. -/
def TblId.ord (t : TblId) : Nat := (t.kind.ctorIdx * 0x10000 + t.i) * 0x10000 + t.j

/-- Order of functions. -/
def Fn.ord : Fn → Nat
  | .port p => p
  | .svc v => 512 + v
  | .mgmtPf => 1024
  | .porterPf => 1025
  | .stall s => 2048 + s
  | .remote q v => 4096 + 512 * q + v

/-- Order of configuration dwords. -/
def CfgId.ord (c : CfgId) : Nat := c.fn.ord * 1024 + c.dw

/-- A register's value after cold reset: its kind's, but for the two always-on domains (R377). -/
def RegId.reset (r : RegId) : Word :=
  if r.kind = .domainCtl ∧ 206 ≤ r.i then 0x3
  else if r.kind = .domainState ∧ 206 ≤ r.i then 0x12
  else r.kind.info.reset

/-- The offset of a register in its BAR0. -/
def RegId.addr (r : RegId) : Nat :=
  let n := r.kind.info
  match n.form with
  | .plain => n.base + r.i * n.s1 + r.j * n.s2
  | .portSlot => n.base + r.i / 16 * 0x20000 + r.i % 16 * 0x1000
  | .lane => n.base + r.i * 0x20000 + (if r.j = 16 then 0x1C000 else r.j * 0x800)
  | .stall => n.base + r.j * n.s2

/-- The register of kind `k` that covers the dword at offset `d` past the kind's base, if any, and whether the dword is the
register's upper half. `st` is the Stall for a Stall's BAR0. -/
def RegKind.hit (k : RegKind) (st : Option Nat) (off : Nat) : Option (RegId × Bool) :=
  let n := k.info
  let bytes := if n.wide then 8 else 4
  let fin (i j rest : Nat) : Option (RegId × Bool) :=
    if rest < bytes then some (⟨k, i, j⟩, decide (4 ≤ rest)) else none
  if off < n.base then none
  else
    let d := off - n.base
    match n.form, st with
    | .stall, some s =>
      let j := if n.s2 = 0 then 0 else d / n.s2
      if j < n.n2 then fin s j (d - j * n.s2) else none
    | .stall, none => none
    | _, some _ => none
    | .plain, none =>
      let i := if n.s1 = 0 then 0 else d / n.s1
      let d1 := d - i * n.s1
      let j := if n.s2 = 0 then 0 else d1 / n.s2
      if i < n.n1 ∧ j < n.n2 then fin i j (d1 - j * n.s2) else none
    | .portSlot, none =>
      let r := d / 0x20000
      let c := d % 0x20000 / 0x1000
      if r < 32 ∧ c < 16 then fin (16 * r + c) 0 (d % 0x1000) else none
    | .lane, none =>
      let r := d / 0x20000
      let d1 := d % 0x20000
      if 32 ≤ r then none
      else if d1 < 0x8000 then fin r (d1 / 0x800) (d1 % 0x800)
      else if 0x1C000 ≤ d1 ∧ d1 < 0x1C800 then fin r 16 (d1 - 0x1C000)
      else none

/-- What lies at a dword of a register space: a register or its upper half, a word of a shadow or active set and the byte of that
word, the legacy discovery table, a dword of a Stall's MSI-X table or PBA, or nothing (R428). -/
inductive Target where
  | reg (r : RegId) (hi : Bool)
  | tbl (active : Bool) (t : TblId) (byte : Nat)
  | legacy (off : Nat)
  | msix (dw : Nat)
  | pba (hi : Bool)
  | nothing
  deriving DecidableEq, Repr

/-- The word of a double-buffered set at an offset (R117 and the tables after it). `byte` is the place of the
dword in the word that the model holds. -/
def tblAt (off : Nat) : Option (Bool × TblId × Nat) :=
  if off < 0x1D00000 then none
  else if off < 0x1D80000 then
    let a := decide (0x1D40000 ≤ off)
    let d := (off - 0x1D00000) % 0x40000
    some (a, ⟨.win, d / 0x800, d % 0x800 / 8⟩, d % 8)
  else if off < 0x1DC0000 then
    let d := (off - 0x1D80000) % 0x20000
    some (decide (0x1DA0000 ≤ off), ⟨.vdsp, d / 0x400, d % 0x400 / 4⟩, 0)
  else if off < 0x1DE0000 then
    let d := (off - 0x1DC0000) % 0x10000
    some (decide (0x1DD0000 ≤ off), ⟨.bus, d / 0x200, d % 0x200 / 2⟩, 0)
  else if off < 0x1DE2000 then
    let a := decide (0x1DE1000 ≤ off)
    let d := (off - 0x1DE0000) % 0x1000
    if d < 0x400 then some (a, ⟨.route, d / 0x40, d % 0x40 / 8⟩, d % 8)
    else if d < 0x600 then some (a, ⟨.pidx, (d - 0x400) / 4, 0⟩, 0) else none
  else if 0x3100100 ≤ off ∧ off < 0x3100140 then some (false, ⟨.tree, (off - 0x3100100) / 4, 0⟩, 0)
  else if 0x3100180 ≤ off ∧ off < 0x31001C0 then some (true, ⟨.tree, (off - 0x3100180) / 4, 0⟩, 0)
  else if 0x3100400 ≤ off ∧ off < 0x3100600 then some (false, ⟨.lockdom, (off - 0x3100400) / 4, 0⟩, 0)
  else if 0x3100600 ≤ off ∧ off < 0x3100800 then some (true, ⟨.lockdom, (off - 0x3100600) / 4, 0⟩, 0)
  else if 0x3101400 ≤ off ∧ off < 0x3101600 then some (false, ⟨.twinPart, (off - 0x3101400) / 4, 0⟩, 0)
  else if 0x3101600 ≤ off ∧ off < 0x3101800 then some (true, ⟨.twinPart, (off - 0x3101600) / 4, 0⟩, 0)
  else none

/-- What lies at a dword offset of management PF BAR0. -/
def targetMgmt (off : Nat) : Target :=
  if 0x3FFF000 ≤ off then .legacy (off - 0x3FFF000)
  else match tblAt off with
    | some (a, t, b) => .tbl a t b
    | none =>
      match RegKind.all.findSome? (fun k => k.hit none off) with
      | some (r, hi) => .reg r hi
      | none => .nothing

/-- What lies at a dword offset of a Stall's BAR0. -/
def targetStall (s off : Nat) : Target :=
  if 0x2000 ≤ off ∧ off < 0x2100 then .msix ((off - 0x2000) / 4)
  else if 0x3000 ≤ off ∧ off < 0x3008 then .pba (decide (0x3004 ≤ off))
  else match RegKind.all.findSome? (fun k => k.hit (some s) off) with
    | some (r, hi) => .reg r hi
    | none => .nothing

/-- Bits of a double-buffered word that software must write 0 (RSV). -/
def TblId.rsv (t : TblId) : Word :=
  match t.kind with
  | .win => if t.j % 4 = 0 then 0xFFC else if t.j % 4 = 1 then 0xFFF else if t.j % 4 = 2 then 0xFFFFFFFFFFFFFE00
    else 0xFFFFFFFFFFFFFFFF
  | .vdsp => 0xFF800000
  | .pidx => 0xFFFFFF00
  | .bus => 0xFC00
  | .route => if t.j = 0 then 0xFE00FE00FE00FFE0 else if t.j < 4 then 0xFE00FE00FE00FE00
    else if t.j = 4 then 0xFFFFFFFFFFFFFE00 else 0xFFFFFFFFFFFFFFFF
  | .tree => 0xFFFFFC00
  | .twinPart => 0xCCCCCCCC
  | _ => 0

/-- The error block a register belongs to (R448), with `ic` the half in charge and `sh` the half of a Stall's
Porter (0 while the Stall is not bound). -/
def RegId.block (ic : Nat) (sh : Nat → Nat) (r : RegId) : Nat :=
  match r.kind with
  | .svcCtl | .xbCtl | .xbReserved | .xbHintMiss | .xbDebugPreempt | .evqStatus | .evqCmd | .evqWm
  | .evqDropped | .evqFlushed | .fltStatus | .partCtl => 82 + ic
  | .errStatus | .errEn | .errRoute | .errParityLog | .errInject | .memCorr | .memUncorr | .laneStatus
  | .laneEqCtl | .laneEqStatus | .laneFecCorr | .laneCodeErr | .lanePrbsCtl | .lanePrbsErr | .lanePrbsUser | .rowSplit
  | .rowSpareCtl | .rowSpareStatus | .rowCondemn => r.i
  | .porterSafeUnits => 78 + r.i
  | .sbCtl => 32 + r.i
  | .portCtl | .portStatus | .portPmCtl | .slotCfg | .slotState | .nerupCtl | .nerupStatus | .nerupReplay
  | .nerupMoved | .nerupUnsure => r.i / 16
  | .floorCtl | .escapeWait | .floorStatus | .floorRsvGroups | .floorRetire | .floorCorrCnt | .floorUncorrCnt | .floorErrLog => 68 + ic
  | .floorFree => 68 + r.i
  | .groupCtl | .groupStatus => 68 + r.i / 16
  | .floorBank => 68 + r.i / 256
  | .poolCfg | .poolWm | .poolStatus => 68 + ingHalf r.i
  | .pDrop | .cplDrop | .npUr | .escMoves => 68 + egHalf ic r.i
  | .pschCtl | .pschPortShape | .pschPortTokens | .pschQDrr | .pschQShape | .pschQStatus | .pschGDrr | .pschGStatus
  | .pschTcmap | .gateCtl | .gateStatus | .gateBase | .gateCycle | .gateLen | .pschPgrp | .gateList => 70 + r.i / 256
  | .bucket | .fwdCtl | .hashSeed | .fwdDropP | .fwdUrNp => 66 + ic
  | .pitchFence => 66 + ingHalf r.i
  | .porterCtl | .porterStatus | .cplTimeout | .unexpCpl | .badCpl | .polls | .bytesRd | .bytesWr
  | .descDone | .staleCpl => 78 + r.i / 32
  | .stallPriv | .stallBind | .stallShare | .stallSched | .stallMgrStatus | .mbMgrOut | .mbMgrIn | .mbMgrCtl
  | .ledgerCtx | .ledgerPageBase | .ledgerPages | .ledgerFlushIv | .ledgerBitmapA | .ledgerBitmapB | .ledgerMarks | .ledgerCmd
  | .mbPending | .mbGlobal => 78 + ic
  | .stallXlat | .xlatInvCtl | .xlatInvAddr | .ringSave => 80 + ic
  | .xlatCtl | .fqBase | .fqPi | .fqCi | .xlatStatus | .xlatResp | .xlatHits | .xlatMisses
  | .xlatFaults | .autoAbort | .raRefused | .preempts | .unexpPrg => 80 + r.i
  | .pitch | .partDefmap | .pitchSeal | .winSeal | .pitchFaultLog | .dbgDenied => 76 + ic
  | .pitchChk | .pitchFaultCnt => 76 + ingHalf r.i
  | .spcCfg | .spcStatus | .spcMeas => 34 + r.i
  | .clkStatus | .droopCtl | .droopStatus | .thermStatus | .droopEvents | .cclkDiv5Cyc | .cclkDiv6Cyc | .cdcLost => 84 + r.i
  | .thermCtl | .pwrStatus | .clkSris => 84 + ic
  | .domainCtl | .domainState => 84 + domHalf r.i
  | .hallCtl | .hallStatus | .hallCommitRec | .hallTimers | .hallMsgDrop | .loopDrop | .lockState | .twinCtl
  | .twinTimers | .twinRoute | .twinStatus | .dupDrop | .gapSkip | .lateDrop | .holdFull | .transitDrop => 74 + ic
  | .twinHold => 74 + r.i
  | .tallyCtl | .tallyStatus | .tallySnapTime | .tallySet | .tallyListAddr | .tallyPageAddr | .tallySeq | .tallyUserEn
  | .timeCtl | .timeAdj | .timeStatus | .timeNow | .timeSetReg | .timeIncr | .baseIncr => 86
  | .resetCtl | .resetStatus | .roleStatus | .bootStatus | .lcState | .lcCtl | .dieSerial | .lcFuse => 87
  | .stallCtl | .dbAddr | .stallStatus | .ringBase | .cqBase | .ringCtl | .ringStart | .ringStatus
  | .mbOut | .mbIn | .mbCtl | .tallyPage => 78 + sh r.i

/-- The error block of a double-buffered table: forwarding or Hall, of the half in charge (R448). -/
def TblId.block (ic : Nat) (t : TblId) : Nat :=
  match t.kind with
  | .tree | .lockdom | .twinPart => 74 + ic
  | _ => 66 + ic

/-- The switched domain a register lies in; `none` is an always-on domain (R380). -/
def RegId.domain (r : RegId) : Option Nat :=
  match r.kind with
  | .laneStatus | .laneEqCtl | .laneEqStatus | .laneFecCorr | .laneCodeErr | .lanePrbsCtl | .lanePrbsErr | .lanePrbsUser => some (4 * r.i + min (r.j / 4) 3)
  | .portCtl | .portStatus | .portPmCtl | .slotCfg | .slotState | .nerupCtl | .nerupStatus | .nerupReplay
  | .nerupMoved | .nerupUnsure => some (128 + r.i / 16)
  | .rowSplit | .rowSpareCtl | .rowSpareStatus | .rowCondemn => some (128 + r.i)
  | .floorBank => some (160 + r.i / 16)
  | .porterCtl | .porterStatus | .cplTimeout | .unexpCpl | .badCpl | .polls | .bytesRd | .bytesWr
  | .descDone | .staleCpl => some (192 + r.i / 8)
  | .xlatCtl | .fqBase | .fqPi | .fqCi | .xlatStatus | .xlatResp | .xlatHits | .xlatMisses
  | .xlatFaults | .autoAbort | .raRefused | .preempts | .unexpPrg => some (200 + r.i)
  | _ => none

end Sys2Proof.Machine
end

