-- ==== Sys2Proof/Machine/Ops.lean ====
section
/-! DEFINITION. The operations every unit shares: registers and their fields, counters, configuration space, free
values, outputs, device time, interrupt messages, the event queue, the AER bits. -/

namespace Sys2Proof.Machine

/-- The stored value of a register. -/
def Dev.reg (s : Dev) (k : RegKind) (i : Nat := 0) (j : Nat := 0) : Word :=
  Store.get RegId.reset s.regs ⟨k, i, j⟩

/-- A register replaced. -/
def Dev.setReg (s : Dev) (k : RegKind) (v : Word) (i : Nat := 0) (j : Nat := 0) : Dev :=
  { s with regs := Store.set RegId.ord RegId.reset s.regs ⟨k, i, j⟩ v }

/-- A field of a register, as a number. -/
def Dev.f (s : Dev) (f : Fld) (i : Nat := 0) (j : Nat := 0) : Nat := getBits (s.reg f.kind i j) f.lo f.w

/-- A field of a register, as a flag. -/
def Dev.b (s : Dev) (f : Fld) (i : Nat := 0) (j : Nat := 0) : Bool := decide (s.f f i j ≠ 0)

/-- A field of a register replaced; the rest of the register keeps its value. -/
def Dev.setF (s : Dev) (f : Fld) (v : Nat) (i : Nat := 0) (j : Nat := 0) : Dev :=
  s.setReg f.kind (putBits (s.reg f.kind i j) f.lo f.w v) i j

/-- A flag set or cleared. -/
def Dev.setB (s : Dev) (f : Fld) (v : Bool) (i : Nat := 0) (j : Nat := 0) : Dev := s.setF f (b2n v) i j

/-- A 48-bit saturating counter raised by `n` (R416). -/
def Dev.inc (s : Dev) (k : RegKind) (n : Nat := 1) (i : Nat := 0) (j : Nat := 0) : Dev :=
  s.setReg k (BitVec.ofNat 64 (min (getBits (s.reg k i j) 0 48 + n) (2 ^ 48 - 1))) i j

/-- A saturating field raised by `n`. -/
def Dev.bump (s : Dev) (f : Fld) (n : Nat := 1) (i : Nat := 0) (j : Nat := 0) : Dev :=
  s.setF f (min (s.f f i j + n) (2 ^ f.w - 1)) i j

/-- The half in charge: 0 West, 1 East (R393). -/
def Dev.ic (s : Dev) : Nat := s.f F.ROLE_STATUS_IN_CHARGE

/-- A word of a shadow set. -/
def Dev.sh (s : Dev) (k : TblKind) (i : Nat := 0) (j : Nat := 0) : Word := Store.get (fun _ => 0) s.shadow ⟨k, i, j⟩

/-- A word of an active set. -/
def Dev.ac (s : Dev) (k : TblKind) (i : Nat := 0) (j : Nat := 0) : Word := Store.get (fun _ => 0) s.active ⟨k, i, j⟩

/-- A word of a shadow set replaced. -/
def Dev.setSh (s : Dev) (k : TblKind) (v : Word) (i : Nat := 0) (j : Nat := 0) : Dev :=
  { s with shadow := Store.set TblId.ord (fun _ => 0) s.shadow ⟨k, i, j⟩ v }

/-- Something handed to the outside. -/
def Dev.emit (s : Dev) (o : Out) : Dev := { s with out := s.out ++ [o] }

/-- The next free value: a value that the manual leaves open (log 6). -/
def Dev.freeVal (s : Dev) : BitVec 64 := Config.freeBits s.free

/-- The counter of free values moved on by `n`. -/
def Dev.useFree (s : Dev) (n : Nat := 1) : Dev := { s with free := s.free + n }

/-! ### Configuration space (R81, R82; dword numbers of PCI Express Base 7.0, log 13) -/

/-- The value of a configuration dword after cold reset: Device Control, Link Control 2, the AER masks and severities, System Page Size
(PRESUMED, log 13), Slot Control of a port's function (R99), BUSY_RETRY_EN (R219), 0 elsewhere. -/
def CfgId.reset (c : CfgId) : BitVec 32 :=
  let off := 4 * c.dw
  match c.fn with
  | .stall _ => if off = 0x48 then 0x10 else 0
  | f =>
    let port := match f with
      | .port _ => true
      | _ => false
    let pf := f == .mgmtPf || f == .porterPf
    if off = 0x68 ∧ port = true then 0x7C0
    else if off = 0x58 ∧ pf = true then 0x2810
    else if off = 0x80 ∧ pf = false then 0x7
    else if off = 0x108 then 0x400000
    else if off = 0x10C then 0x462030
    else if off = 0x114 then 0xE000
    else if off = 0x314 then 1
    else if off = 0x180 ∧ f = .porterPf then 1
    else 0

/-- A configuration dword at byte offset `off`. -/
def Dev.cf (s : Dev) (f : Fn) (off : Nat) : BitVec 32 := Store.get CfgId.reset s.cfg ⟨f, off / 4⟩

/-- A configuration dword replaced. -/
def Dev.setCf (s : Dev) (f : Fn) (off : Nat) (v : BitVec 32) : Dev :=
  { s with cfg := Store.set CfgId.ord CfgId.reset s.cfg ⟨f, off / 4⟩ v }

/-- Bits of a configuration dword set or cleared. -/
def Dev.setCfBits (s : Dev) (f : Fn) (off : Nat) (mask : BitVec 32) (v : Bool) : Dev :=
  s.setCf f off (if v then s.cf f off ||| mask else s.cf f off &&& ~~~mask)

/-- Bit `n` of a configuration dword. -/
def Dev.cfBit (s : Dev) (f : Fn) (off n : Nat) : Bool := (s.cf f off).getLsbD n

/-- A field of a configuration dword as a number. -/
def Dev.cfNum (s : Dev) (f : Fn) (off lo w : Nat) : Nat := ((s.cf f off).toNat >>> lo) % 2 ^ w

/-- Bus Master Enable. -/
def Dev.bme (s : Dev) (f : Fn) : Bool := s.cfBit f 0x04 2

/-- Bits of the AER status registers of PCI Express Base 7.0 (log 13). -/
def AER.dlp : Nat := 4
def AER.surpriseDown : Nat := 5
def AER.flowControl : Nat := 13
def AER.badDllp : Nat := 7
def AER.poisoned : Nat := 12
def AER.completionTimeout : Nat := 14
def AER.completerAbort : Nat := 15
def AER.unexpectedCompletion : Nat := 16
def AER.receiverOverflow : Nat := 17
def AER.malformed : Nat := 18
def AER.unsupportedRequest : Nat := 20
def AER.acsViolation : Nat := 21
def AER.uncorrectableInternal : Nat := 22
def AER.replayRollover : Nat := 8
def AER.replayTimeout : Nat := 12
def AER.correctedInternal : Nat := 14

/-! ### Ports and partitions -/

/-- The ports whose `PORT_CTL` is not at its reset value, in ascending order: every enabled port is among them. -/
def Dev.touchedPorts (s : Dev) : List Nat :=
  s.regs.filterMap (fun e => if e.1.kind = .portCtl then some e.1.i else none)

/-- The enabled ports in ascending order. -/
def Dev.enabledPorts (s : Dev) : List Nat := s.touchedPorts.filter (fun p => s.b F.PORT_CTL_EN p)

/-- Port `p` is an enabled DSP of partition `q`. -/
def Dev.isDsp (s : Dev) (q p : Nat) : Bool :=
  s.b F.PORT_CTL_EN p && s.f F.PORT_CTL_ROLE p == 0 && s.f F.PORT_CTL_PART p == q

/-- The enabled DSPs of partition `q` on this device, in ascending port order. -/
def Dev.dspsOf (s : Dev) (q : Nat) : List Nat := s.enabledPorts.filter (fun p => s.isDsp q p)

/-- The enabled fabric ports. -/
def Dev.fabricPorts (s : Dev) : List Nat := s.enabledPorts.filter (fun p => s.f F.PORT_CTL_ROLE p == 2)

/-- The partitions that are enabled, in ascending order. -/
def Dev.enabledParts (s : Dev) : List Nat :=
  s.regs.filterMap (fun e => if e.1.kind = .partCtl ∧ getBits e.2 0 1 = 1 then some e.1.i else none)

/-- The member ID of this device (R191). -/
def Dev.me (s : Dev) : Nat := s.f F.HALL_CTL_MEMBER_ID

/-- The link record of port `p`. -/
def Dev.link (s : Dev) (p : Nat) : LinkSt := s.links.look {} p

/-- The link record of port `p` replaced. -/
def Dev.setLink (s : Dev) (p : Nat) (l : LinkSt) : Dev := { s with links := s.links.put {} p l }

/-- The slot record of port `p`. -/
def Dev.slot (s : Dev) (p : Nat) : SlotSt := s.slots.look {} p

/-- The slot record of port `p` replaced. -/
def Dev.setSlot (s : Dev) (p : Nat) (x : SlotSt) : Dev := { s with slots := s.slots.put {} p x }

/-- The lowest lane and the width of the port that holds Row lane `m` under a split tree. -/
def splitBlock (tree m : Nat) : Nat × Nat :=
  if !tree.testBit 0 then (0, 16)
  else if !tree.testBit (1 + m / 8) then (m / 8 * 8, 8)
  else if !tree.testBit (3 + m / 4) then (m / 4 * 4, 4)
  else if !tree.testBit (7 + m / 2) then (m / 2 * 2, 2)
  else (m, 1)

/-- Port slot `p` is the lowest lane of a port (R38). -/
def Dev.isPort (s : Dev) (p : Nat) : Bool := (splitBlock (s.f F.ROW_SPLIT_TREE (p / 16)) (p % 16)).1 == p % 16

/-- The slot of port `p` is implemented. A slot outlives the resets that return its Row to one port (R388, R389). -/
def Dev.slotEn (s : Dev) (p : Nat) : Bool := s.b F.SLOT_CFG_SLOT_EN p

/-- The function of the port, a USP or a DSP. -/
def portFn (p : Nat) : Fn := .port p

/-! ### Device time (R421) -/

/-- Device time of the half in charge in nanoseconds. -/
def Dev.nowNs (s : Dev) : Nat := (if s.ic = 0 then s.time.tw else s.time.te) / 2 ^ 32

/-! ### The event queue (R411-R414) -/

/-- Words held in the chain: the rest of the current record and the records not yet begun. -/
def EvqSt.words (q : EvqSt) : Nat := q.current.length + (q.chain.map List.length).foldl (· + ·) 0

/-- PRIO of a record, from its word 0. -/
def recPrio (r : List (BitVec 32)) : Nat := ((r.headD 0).toNat >>> 4) % 4

/-- The place of the record of lowest PRIO, the oldest of them (R412, R413). -/
def firstPrio (l : List (List (BitVec 32))) : Option Nat :=
  (List.range 4).findSome? (fun p => l.findIdx? (fun r => recPrio r == p))

/-- Records moved from the backlog into the chain while they fit whole (R413); DROPPED is set in the first record
placed after a drop. -/
def EvqSt.drain (q : EvqSt) : Nat → EvqSt
  | 0 => q
  | n + 1 =>
    match firstPrio q.backlog with
    | none => q
    | some i =>
      let r := q.backlog.getD i []
      if q.words + r.length ≤ 32 then
        let r' := if q.dropped then (match r with | [] => [] | w :: t => (w ||| 0x40) :: t) else r
        EvqSt.drain { q with chain := q.chain ++ [r'], backlog := q.backlog.eraseIdx i, dropped := false } n
      else q

/-- A half is in charge and serves the event queue (R407). -/
def Dev.served (s : Dev) : Bool :=
  s.rst.elected && !s.b F.ROLE_STATUS_STANDOFF && !s.rst.deviceSafe && !s.b F.ERR_STATUS_SAFE (82 + s.ic)

/-- ALERT_N after a change of the chain (R414), deasserted while no half serves the queue (R407). With HIGH at or below LOW the level is a free
value. -/
def Dev.alertUpdate (s : Dev) : Dev :=
  let hi := min (s.f F.EVQ_WM_HIGH) 32
  let lo := s.f F.EVQ_WM_LOW
  let w := s.evq.words
  if !s.served then { s with evq := { s.evq with alert := false } }
  else if hi ≤ lo then
    { s with evq := { s.evq with alert := s.freeVal.getLsbD 0 }, free := s.free + 1 }
  else { s with evq := { s.evq with alert := decide (hi ≤ w) || (s.evq.alert && decide (lo < w)) } }

/-- A record posted by the controller of the half in charge (R411, R413). `body` is words 2 and later. -/
def Dev.post (s : Dev) (type prio : Nat) (body : List (BitVec 32)) : Dev :=
  if s.served then
    let w0 : BitVec 32 :=
      BitVec.ofNat 32 ((2 + body.length) + 16 * prio + 256 * type + 65536 * (s.evq.seq % 65536))
    let w1 : BitVec 32 := BitVec.ofNat 32 (s.nowNs / 1000)
    let q : EvqSt := { s.evq with seq := s.evq.seq + 1 }
    if 256 ≤ q.backlog.length then
      ({ s with evq := { q with dropped := true } }).inc .evqDropped
    else
      ({ s with evq := EvqSt.drain { q with backlog := q.backlog ++ [w0 :: w1 :: body] } 1 }).alertUpdate
  else s

/-! ### Interrupt messages (R337, R404, R317) -/

/-- The number of a function's MSI-X table in `Dev.msix` and `Dev.pba`. -/
def Fn.msixBase : Fn → Nat
  | .mgmtPf => 0
  | .porterPf => 1
  | .stall s => 2 + s
  | _ => 2000

/-- Offset of the MSI-X capability (R82). -/
def Fn.msixCap : Fn → Nat
  | .stall _ => 0x80
  | _ => 0xA0

/-- Dword `w` of entry `e` of a function's MSI-X table. Vector Control Mask is set at reset (18_register_map.md). -/
def Dev.msixDw (s : Dev) (f : Fn) (e w : Nat) : BitVec 32 :=
  Tbl.look 0 s.msix (f.msixBase * 64 + e * 4 + w) ^^^ (if w = 3 then 1 else 0)

/-- A dword of an MSI-X table replaced. -/
def Dev.setMsixDw (s : Dev) (f : Fn) (e w : Nat) (v : BitVec 32) : Dev :=
  let x : BitVec 32 := v ^^^ (if w = 3 then 1 else 0)
  { s with msix := s.msix.put 0 (f.msixBase * 64 + e * 4 + w) x }

/-- Entry `e` may send: MSI-X is enabled, neither the function nor the entry is masked, Bus Master Enable is set. -/
def Dev.msixReady (s : Dev) (f : Fn) (e : Nat) : Bool :=
  s.cfBit f f.msixCap 31 && !s.cfBit f f.msixCap 30 && !(s.msixDw f e 3).getLsbD 0 && s.bme f

/-- The Pending Bit of entry `e`. -/
def Dev.pendingBit (s : Dev) (f : Fn) (e : Nat) : Bool := (Tbl.look 0 s.pba f.msixBase).testBit e

/-- The Pending Bit of entry `e` set or cleared. -/
def Dev.setPendingBit (s : Dev) (f : Fn) (e : Nat) (v : Bool) : Dev :=
  let m := Tbl.look 0 s.pba f.msixBase
  let m' := if v then m ||| 2 ^ e else if m.testBit e then m - 2 ^ e else m
  { s with pba := s.pba.put 0 f.msixBase m' }

/-- A function's interrupt message waits for its lookup cycle with checker `i` (R221, R404). -/
def Dev.ownRequest (s : Dev) (i : Nat) (addr : BitVec 64) (data : BitVec 32) : Dev :=
  { s with own := s.own ++ [{ ingress := i, addr := addr, data := data }] }

/-- Entry `e` of the management PF formed: its message goes to the core. -/
def Dev.formMsix (s : Dev) (f : Fn) (e : Nat) : Dev :=
  (s.emit (.msix f e)).ownRequest 1023 (s.msixDw f e 1 ++ s.msixDw f e 0) (s.msixDw f e 2)

/-- Entry `e` of the management PF sent, or its Pending Bit set (R337, R404). -/
def Dev.sendMsix (s : Dev) (f : Fn) (e : Nat) : Dev :=
  if s.msixReady f e then s.formMsix f e else s.setPendingBit f e true

/-- The MSI vector of the DSP of port `p` (R81, R109): sent when MSI and Bus Master Enable are set and the vector is
not masked, else pending. -/
def Dev.sendMsi (s : Dev) (p : Nat) : Dev :=
  if s.cfBit (portFn p) 0xA0 16 && s.bme (portFn p) then
    if s.cfBit (portFn p) 0xB0 0 then s.setCfBits (portFn p) 0xB4 1 true
    else (s.emit (.msi p)).ownRequest p (s.cf (portFn p) 0xA8 ++ s.cf (portFn p) 0xA4) (s.cf (portFn p) 0xAC)
  else s

/-! ### AER (R343, R344; PCI Express Base 7.0, log 13) -/

/-- An error message of function `f` to the Root Complex: a USP sends it on its link; the Porter PF's is bound with the checker of the lowest
Porter of the half in charge (DESIGN CHOICE, log 148). -/
def Dev.errMsg (s : Dev) (f : Fn) (code : BitVec 8) : Dev :=
  let own (i : Nat) : Dev := { s with own := s.own ++ [{ ingress := i, addr := 0, data := 0, code := some code }] }
  match f with
  | .port p => if s.f F.PORT_CTL_ROLE p = 1 then s.emit (.link p (.errMsg code)) else if s.f F.PORT_CTL_ROLE p = 0 then own p else s
  | .mgmtPf => own 1023
  | .porterPf => own (512 + 32 * s.ic)
  | _ => s

/-- An error message where Device Control's enable `k` for its kind is set, or, for an uncorrectable error, SERR# Enable of Command. -/
def Dev.errTell (s : Dev) (f : Fn) (k : Nat) (code : BitVec 8) (serr : Bool) : Dev :=
  if s.cfBit f 0x58 k || (serr && s.cfBit f 0x04 8) then s.errMsg f code else s

/-- An AER uncorrectable error (R343, R344): its status bit, what Device Status says of it, fatal or non-fatal by its severity and Unsupported
Request Detected, and, unless it is masked, its message; that of an Unsupported Request needs its own enable too. -/
def Dev.aerU (s : Dev) (f : Fn) (bit : Nat) : Dev :=
  let fatal := s.cfBit f 0x10C bit
  let st : BitVec 32 := (if fatal then 0x40000 else 0x20000) ||| (if bit = 20 then 0x80000 else 0)
  let s1 := (s.setCfBits f 0x104 (BitVec.ofNat 32 (2 ^ bit)) true).setCfBits f 0x58 st true
  if s.cfBit f 0x108 bit || (bit == 20 && !s.cfBit f 0x58 3 && !s.cfBit f 0x04 8) then s1
  else s1.errTell f (if fatal then 2 else 1) (if fatal then 0x33 else 0x31) true

/-- An AER correctable error (R343, R344): its status bit, Correctable Error Detected, and ERR_COR unless it is masked. -/
def Dev.aerC (s : Dev) (f : Fn) (bit : Nat) : Dev :=
  let s1 := (s.setCfBits f 0x110 (BitVec.ofNat 32 (2 ^ bit)) true).setCfBits f 0x58 0x10000 true
  if s.cfBit f 0x114 bit then s1 else s1.errTell f 0 0x30 false

/-! ### Error blocks -/

/-- The internal error bit of block `b` set (R336). -/
def Dev.intErr (s : Dev) (b : Nat) : Dev := s.setB F.ERR_STATUS_INT_ERR true b

/-- Block `b` is in its safe state. -/
def Dev.safe (s : Dev) (b : Nat) : Bool := s.b F.ERR_STATUS_SAFE b

/-- Block `b` is in its safe state, or in a block reset, in which lookups treat it so (R390). -/
def Dev.outOf (s : Dev) (b : Nat) : Bool := s.safe b || s.rst.blockBusy == some b

/-- Porter `n` is in its safe state (R338). -/
def Dev.porterSafe (s : Dev) (n : Nat) : Bool := (s.f F.PORTER_SAFE_UNITS_PORTER (n / 32)).testBit (n % 32)

/-- The Ledger unit of half `h` is in its safe state (R338). -/
def Dev.ledgerSafe (s : Dev) (h : Nat) : Bool := s.b F.PORTER_SAFE_UNITS_LEDGER h

/-- The half of the Porter that Stall `n` is bound to; a Stall that is not bound counts as West (R335, R448). -/
def Dev.stallHalf (s : Dev) (n : Nat) : Nat :=
  if s.b F.STALL_BIND_BOUND n then s.f F.STALL_BIND_PORTER n / 32 else 0

/-- The error block of a register. -/
def Dev.blockOf (s : Dev) (r : RegId) : Nat := r.block s.ic s.stallHalf

/-- A status bit set, with a note of the half where the event arose (R335). -/
def Dev.raise (s : Dev) (f : Fld) (h : Nat) (i : Nat := 0) : Dev :=
  let t := s.setB f true i
  { t with raised := if (f, h) ∈ t.raised then t.raised else t.raised ++ [(f, h)] }

end Sys2Proof.Machine
end

