-- ==== Sys2Proof/Machine/Flags.lean ====
section
/-! DEFINITION. Every condition that status bits give rise to: EVENT and the interrupt condition of the 88 error
blocks (R335, R337), the fault pair (R348, R349), and what happens when a block's condition rises. -/

namespace Sys2Proof.Machine

/-- Bits of a register kind that set EVENT of their block (R73, R109, R138, R164, R190, R224, R243, R256, R308,
R334, R365, R385, R403, R426). -/
def RegKind.eventBits (k : RegKind) : Word :=
  match k with
  | .laneStatus => 0x80
  | .rowSplit => 0x10000
  | .rowSpareStatus => 0x3C000
  | .portCtl => 0x400000
  | .sbCtl => 0xC000
  | .spcStatus => 0x1F80000
  | .fwdCtl => 0x10
  | .floorStatus => 0x79
  | .pschCtl => 0x2
  | .gateStatus => 0x40
  | .hallCtl => 0x20000000
  | .hallStatus => 0x400020000000000
  | .nerupStatus => 0xF0000
  | .twinCtl => 0x40000
  | .twinStatus => 0x4
  | .pitchChk => 0x100
  | .dbgDenied => 0x8000000000000000
  | .stallMgrStatus => 0x20000
  | .mbMgrCtl => 0x140000
  | .ledgerCmd => 0x1E0
  | .porterStatus => 0x2000000
  | .xlatStatus => 0x3
  | .xlatInvCtl => 0x80000
  | .partCtl => 0x8000
  | .svcCtl => 0x10000
  | .clkStatus => 0x1C2
  | .pwrStatus => 0x1
  | .tallyStatus => 0x1
  | .timeStatus => 0xE
  | .resetStatus => 0x20
  | .roleStatus => 0x100
  | .lcCtl => 0x40
  | _ => 0

/-- The half a Ledger context is homed in (R326). -/
def ledgerHome (c : Nat) : Nat := c / 128

/-- The error block that a register's status bits raise (R335): its own block, but for Stalls and Ledger contexts,
which count in the half of their Porter, Stall or port, and a fabric port's failures, which are the Hall block's. -/
def Dev.eventBlock (s : Dev) (r : RegId) : Nat :=
  match r.kind with
  | .stallMgrStatus | .mbMgrCtl => 78 + s.stallHalf r.i
  | .ledgerCmd => 78 + ledgerHome r.i
  | .nerupStatus => 74 + r.i / 256
  | _ => s.blockOf r

/-- A set status bit raises block `b`: in the half noted for it (R335), else in its register's block. -/
def Dev.bitRaises (s : Dev) (b : Nat) (e : RegId × Word) : Bool :=
  let on := e.2 &&& e.1.kind.eventBits
  if on = 0 then false
  else
    let notes := s.raised.filter (fun n => n.1.kind = e.1.kind)
    let blk := s.eventBlock e.1
    if notes.isEmpty then blk == b
    else
      let base := blk - s.ic
      notes.any (fun n => base + n.2 == b && getBits on n.1.lo n.1.w != 0)
        || (blk == b && (List.range 64).any (fun k => on.getLsbD k && !notes.any (fun n => n.1.lo ≤ k ∧ k < n.1.lo + n.1.w)))

/-- Slot Status event bits of a function: Attention Button Pressed, Power Fault Detected, MRL Sensor Changed,
Presence Detect Changed, Command Completed, Data Link Layer State Changed (R100, R109). -/
def slotEvents (v : BitVec 32) : Bool := decide (v &&& 0x11F0000 ≠ 0)

/-- Level conditions that raise block 87: STANDOFF and a failed boot (R403). -/
def Dev.levelEvent (s : Dev) (b : Nat) : Bool :=
  b == 87 && (s.b F.ROLE_STATUS_STANDOFF || s.f F.BOOT_STATUS_STAGE == 5)

/-- `ERR_STATUS.EVENT` of block `b` (R335). -/
def Dev.event (s : Dev) (b : Nat) : Bool :=
  s.regs.any (fun e => s.bitRaises b e)
    || (decide (b < 32) && s.cfg.any (fun e =>
        match e.1.fn with
        | .port p => p / 16 == b && e.1.dw == 0x68 / 4 && slotEvents e.2
        | _ => false))
    || s.levelEvent b

/-- A block's interrupt condition (R337). -/
def Dev.irqCond (s : Dev) (b : Nat) : Bool :=
  (s.event b && s.b F.ERR_EN_EVENT_EN b)
    || (s.b F.ERR_STATUS_INT_ERR b && s.b F.ERR_EN_INT_ERR_EN b)
    || (s.b F.ERR_STATUS_SAFE b && s.b F.ERR_EN_SAFE_EN b)

/-- What block `b` signals when its condition rises (R337, R411): its MSI-X entry, and a BLOCK_ERROR record. -/
def Dev.signal (s : Dev) (b : Nat) : Dev :=
  let s1 := if s.b F.ERR_ROUTE_MSIX b then s.sendMsix .mgmtPf (s.f F.ERR_ROUTE_VEC b) else s
  if s.b F.ERR_ROUTE_CTRL b then
    let st := (s.reg .errStatus b).toNat
    s1.post 0x01 (if s.b F.ERR_STATUS_SAFE b then 0 else 1)
      [BitVec.ofNat 32 b, BitVec.ofNat 32 (st ||| b2n (s.event b) ||| 0x40)]
  else s1

/-- Block `b` after a command: SIGNALLED follows its condition, and a rise is signalled (R337). -/
def Dev.settleBlock (s : Dev) (b : Nat) : Dev :=
  let c := s.irqCond b
  let was := s.b F.ERR_STATUS_SIGNALLED b
  if c && !was then (s.signal b).setB F.ERR_STATUS_SIGNALLED true b
  else if !c && was then s.setB F.ERR_STATUS_SIGNALLED false b
  else s

/-- Every block after a command, in ascending order. -/
def Dev.settle (s : Dev) : Dev := (List.range 88).foldl Dev.settleBlock s

/-- An event that leaves no bit behind raises block `b` (R243, R281): it signals once unless the condition already
stands. -/
def Dev.pulse (s : Dev) (b : Nat) : Dev :=
  if s.b F.ERR_STATUS_SIGNALLED b || !s.b F.ERR_EN_EVENT_EN b then s else s.signal b

/-- Some block with FLT_EN is in its safe state (R349). -/
def Dev.anySafe (s : Dev) : Bool :=
  (List.range 88).any (fun b => s.b F.ERR_STATUS_SAFE b && s.b F.ERR_EN_FLT_EN b)

/-- Both management controllers are in their safe states (R349). -/
def Dev.ctrlBoth (s : Dev) : Bool := s.safe 82 && s.safe 83

/-- The pair shows a fault (R349). -/
def Dev.fltAsserted (s : Dev) : Bool :=
  s.anySafe || s.b F.ROLE_STATUS_STANDOFF || s.rst.tripped || s.rst.deviceSafe || s.ctrlBoth

/-- The levels of FLT_P and FLT_N (R348, R387). -/
def Dev.fltPins (s : Dev) : Bool × Bool :=
  if s.rst.perstLow || !s.rst.vddIo then (false, false)
  else if s.fltAsserted then (true, false) else (false, true)

/-! ### Armed memory injections (R350) -/

/-- The word of a memory of block `b` that was written between two states, for an uncorrectable error (R342). In blocks 78 and 79 the
staging buffer comes first, then the tag table, the ring contexts and the Ledger cache (log 34). -/
def Dev.memMark (old new : Dev) (b : Nat) : Option BadWord :=
  if b < 32 then
    new.links.findSome? (fun e =>
      if e.1 / 16 = b ∧ (old.link e.1).replay.length < e.2.replay.length then
        e.2.replay.getLast?.map (fun x => .replay e.1 x.st.id)
      else none)
  else if b = 66 ∨ b = 67 then
    ((new.active.find? (fun e => !old.active.contains e)).or (old.active.find? (fun e => !new.active.contains e))).map (fun e => .fwd e.1)
  else if b = 76 ∨ b = 77 then
    let pitch (d : Dev) := d.regs.filter (fun e => e.1.kind == .pitch || e.1.kind == .partDefmap)
    (((pitch new).find? (fun e => !(pitch old).contains e)).or ((pitch old).find? (fun e => !(pitch new).contains e))).map
      (fun e => .pitch e.1)
  else if b = 78 ∨ b = 79 then
    let mine (k : Nat) : Bool := (new.f F.STALL_BIND_PORTER (k / 8)) / 32 == b - 78
    let was (k : Nat) : RingSt := old.rings.look {} k
    let staged (k slot : Nat) : List (Nat × List Byte × Bool) :=
      (((was k).prog.find? (fun d => d.slot == slot)).map Desc.stage).getD []
    let inStage := new.rings.findSome? (fun e => if mine e.1 then e.2.prog.findSome? (fun d =>
      (d.stage.find? (fun p => !(staged e.1 d.slot).contains p)).map (fun p => BadWord.stage e.1 d.slot p.1)) else none)
    let inTags := new.porters.findSome? (fun e =>
      if e.1 / 32 = b - 78 then (e.2.tags.find? (fun y => !(old.porters.look {} e.1).tags.contains y)).map (fun y => BadWord.tag e.1 y.1)
      else none)
    let inRings := new.rings.findSome? (fun e => if mine e.1 ∧ was e.1 ≠ e.2 then some (BadWord.ctx e.1) else none)
    let inLedger := new.ledger.cache.findSome? (fun e =>
      if e.1 / 4096 = b - 78 ∧ old.ledger.cache.look [] e.1 ≠ e.2 then e.2.head?.map (fun x => BadWord.ledger x.ctx) else none)
    inStage.or (inTags.or (inRings.or inLedger))
  else if b = 82 ∨ b = 83 then (new.evq.backlog.getLast?.or new.evq.chain.getLast?).map BadWord.record
  else none

/-- A memory of block `b` that R342 names was written between two states: replay buffers, forwarding sets, Pitch tables, a Porter's and
its rings' memories and the Ledger cache of the half, translation caches, event queue. The Floor's chunks are written in `Dev.take`. -/
def Dev.memWritten (old new : Dev) (b : Nat) : Bool :=
  if b < 32 then new.links.any (fun e => e.1 / 16 == b && decide ((old.link e.1).replay.length < e.2.replay.length))
  else if b = 66 ∨ b = 67 then decide (old.active ≠ new.active)
  else if b = 76 ∨ b = 77 then
    let pitch (d : Dev) := d.regs.filter (fun e => e.1.kind == .pitch || e.1.kind == .partDefmap)
    decide (pitch old ≠ pitch new)
  else if b = 78 ∨ b = 79 then
    (Dev.memMark old new b).isSome
  else if b = 80 ∨ b = 81 then decide ((old.xlat.look {} (b - 80)).cache ≠ (new.xlat.look {} (b - 80)).cache)
  else if b = 82 ∨ b = 83 then new.ic == b - 82 && decide (old.evq.seq ≠ new.evq.seq)
  else false

/-- An uncorrectable error stored in a memory of block `b` (R342). A translation cache drops the entries of the set, which counts as
corrected; elsewhere the word is bad until it is used. -/
def Dev.memLost (old s : Dev) (b : Nat) : Dev :=
  if b = 80 ∨ b = 81 then
    let x : XlatSt := s.xlat.look {} (b - 80)
    let s1 : Dev := { s with xlat := s.xlat.put {} (b - 80) { x with
      cache := x.cache.filter (fun e => (old.xlat.look {} (b - 80)).cache.contains e) } }
    (s1.inc .memCorr 1 b).aerC .mgmtPf AER.correctedInternal
  else
    match Dev.memMark old s b with
    | some w => { s with errs := s.errs.put {} b { s.errs.look {} b with bad := (s.errs.look {} b).bad ++ [w] } }
    | none => s

/-- The armed memory injections of a block act once one of its memories is written. -/
def Dev.injectOne (old s : Dev) (b : Nat) : Dev :=
  let e := s.errs.look {} b
  if (e.memCorr || e.memUncorr) && Dev.memWritten old s b then
    let s1 : Dev := { s with errs := s.errs.put {} b { e with memCorr := false, memUncorr := false } }
    let s2 := if e.memCorr then (s1.inc .memCorr 1 b).aerC .mgmtPf AER.correctedInternal else s1
    if e.memUncorr then Dev.memLost old s2 b else s2
  else s

/-- Some word of block `b` that satisfies `p` has an uncorrectable error. -/
def Dev.badWord (s : Dev) (b : Nat) (p : BadWord → Bool) : Option BadWord := (s.errs.look {} b).bad.find? p

/-- Block `b` meets the error of a word: counted and reported (R341, R342). -/
def Dev.badFound (s : Dev) (b : Nat) (w : BadWord) : Dev :=
  let e := s.errs.look {} b
  (({ s with errs := s.errs.put {} b { e with bad := e.bad.erase w } } : Dev).inc .memUncorr 1 b).aerU .mgmtPf
    AER.uncorrectableInternal

/-- Every armed memory injection after a command; with none armed nothing happens. -/
def Dev.injectAll (old s : Dev) : Dev :=
  if s.errs.isEmpty then s else (List.range 88).foldl (Dev.injectOne old) s

/-- The state after a command whose effect on the device is `d`: armed memory injections act, the error blocks settle. -/
def State.after (s : State) (d : Dev) : State := { s with dev := (Dev.injectAll s.dev d).settle }

/-- What a command answers whose effect on the device is `d`. -/
def State.done (s : State) (d : Dev) : Host.Outcome State Fault Refusal := .next (s.after d)

/-- What a command answers whose effect may meet a host error for which the manual gives no outcome. -/
def State.doneOr (s : State) (r : Except Fault Dev) : Host.Outcome State Fault Refusal :=
  match r with
  | .ok d => s.done d
  | .error f => .fault f

end Sys2Proof.Machine
end

