-- ==== Sys2Proof/Machine/Operands.lean ====
section
/-! DEFINITION. Operand forms: what a TLP's header says (class, length, cells, credits), the routing ID of each
function, the bytes of structures in memory, CRC-32C. -/

namespace Sys2Proof.Machine

/-- Class of a TLP (R141): 0 posted, 1 non-posted, 2 completion. -/
def clsOf : TlpKind → Nat
  | .mwr | .msg | .pageReq | .otherP => 0
  | .cpl => 2
  | _ => 1

/-- A memory request, AtomicOps and translation requests included (R113). -/
def isMemReq : TlpKind → Bool
  | .mrd | .mrdlk | .mwr | .dmwr | .fetchAdd | .swap | .cas => true
  | _ => false

/-- Stored TLP bytes: LENGTH of R141. -/
def tlpLen (t : Tlp) : Nat := t.hdr + t.payload.length + t.trailer.length

/-- Cells that a TLP of LENGTH bytes occupies (R141). -/
def cellsOf (length : Nat) : Nat := 1 + (length - 224 + 255) / 256

/-- Data credits a TLP uses: 16-byte units of its payload (R154, R203). -/
def dataCredits (t : Tlp) : Nat := (t.payload.length + 15) / 16

/-- Quotient rounded up. -/
def ceilDiv (a b : Nat) : Nat := (a + b - 1) / b

/-- A routing ID from bus, device and function. -/
def bdf (bus dev fn : Nat) : BitVec 16 := BitVec.ofNat 16 (bus * 256 + dev % 32 * 8 + fn % 8)

/-- The bus of a routing ID. -/
def busOf (id : BitVec 16) : Nat := id.toNat / 256

/-- The device and function of a routing ID as a number 0-255. -/
def devFn (id : BitVec 16) : Nat := id.toNat % 256

/-- The internal bus number of partition `q` in the active sets (R78). -/
def Dev.intBus (s : Dev) (q : Nat) : Nat := getBits (s.ac .buses q) 0 8

/-- The bus number the USP of partition `q` captured, in the active sets (R78). -/
def Dev.uspBus (s : Dev) (q : Nat) : Nat := getBits (s.ac .buses q) 8 8

/-- The routing ID of virtual DSP `v` of partition `q` (R78). -/
def Dev.dspId (s : Dev) (q v : Nat) : BitVec 16 := bdf (s.intBus q) (v / 8) (v % 8)

/-- The routing ID of the USP of partition `q` (R78). -/
def Dev.uspId (s : Dev) (q : Nat) : BitVec 16 := bdf (s.uspBus q) 0 0

/-- Role of port `p`: 0 DSP, 1 USP, 2 fabric (R74). -/
def Dev.role (s : Dev) (p : Nat) : Nat := s.f F.PORT_CTL_ROLE p

/-- The partition bound with what arrives at ingress `i` (R248): the port's, or the Porter PF's or (1023) the management PF's. -/
def Dev.partOf (s : Dev) (i : Nat) : Nat :=
  if i < 512 then s.f F.PORT_CTL_PART i else if i = 1023 then s.f F.SVC_CTL_MGMT_PART else s.f F.SVC_CTL_PORTER_PART

/-- The routing ID with which the function of ingress `i` completes requests (R115). -/
def Dev.cplIdOf (s : Dev) (i : Nat) : BitVec 16 :=
  let q := s.partOf i
  if i < 512 then (if s.role i = 1 then s.uspId q else s.dspId q (s.f F.PORT_CTL_VNUM i)) else if i = 1023 then s.dspId q 254
  else s.dspId q 255

/-- The Hall partition of local partition `q`. -/
def Dev.hallPart (s : Dev) (q : Nat) : Nat := s.f F.PART_CTL_HALL_PART q

/-- One step of CRC-32C over a bit, reflected form (RFC 3720). -/
def crcBit (c : BitVec 32) : BitVec 32 := if c.getLsbD 0 then (c >>> 1) ^^^ 0x82F63B78 else c >>> 1

/-- CRC-32C of bytes from an initial value, without the final XOR (R131, R396). -/
def crcBytes (c : BitVec 32) : List Byte → BitVec 32
  | [] => c
  | b :: t =>
    let x := c ^^^ b.zeroExtend 32
    crcBytes (crcBit (crcBit (crcBit (crcBit (crcBit (crcBit (crcBit (crcBit x)))))))) t

/-- CRC-32C with initial value all ones and the final XOR applied (R396). -/
def crc32c (l : List Byte) : BitVec 32 := crcBytes 0xFFFFFFFF l ^^^ 0xFFFFFFFF

/-- A number as `n` bytes, least significant first (00_scope.md, Notation). -/
def leBytes (v : Nat) : Nat → List Byte
  | 0 => []
  | n + 1 => BitVec.ofNat 8 v :: leBytes (v / 256) n

/-- The number that bytes hold, least significant first. -/
def ofLe : List Byte → Nat
  | [] => 0
  | b :: t => b.toNat + 256 * ofLe t

/-- `n` bytes from offset `off` as a number. -/
def leAt (l : List Byte) (off n : Nat) : Nat := ofLe ((l.drop off).take n)

/-- The latency in ns that a 16-bit field of an LTR message states (PCI Express Base 7.0); without a requirement none is too long. -/
def ltrLatency (v : Nat) : Nat := if v.testBit 15 then v % 1024 * 32 ^ (v / 1024 % 8) else 2 ^ 64

/-- The smaller of two latency fields. -/
def ltrLess (a b : Nat) : Nat := if ltrLatency b < ltrLatency a then b else a

/-! ### The code of a chunk (R140) -/

/-- A symbol times α in GF(2^8) with the field polynomial x^8 + x^4 + x^3 + x^2 + 1. -/
def gfTimesAlpha (x : Byte) : Byte := if x.getLsbD 7 then (x <<< 1) ^^^ 0x1D else x <<< 1

/-- The product of two symbols, over the low `n` bits of `a`. -/
def gfMulBits (a b : Byte) : Nat → Byte
  | 0 => 0
  | n + 1 => (if a.getLsbD (8 - (n + 1)) then b else 0) ^^^ gfMulBits a (gfTimesAlpha b) n

/-- The product of two symbols. -/
def gfMul (a b : Byte) : Byte := gfMulBits a b 8

/-- α to the power `n`. -/
def gfAlpha : Nat → Byte
  | 0 => 1
  | n + 1 => gfTimesAlpha (gfAlpha n)

/-- A polynomial, highest coefficient first, times x + α^k. -/
def rsTimesRoot (k : Nat) (p : List Byte) : List Byte :=
  List.zipWith (· ^^^ ·) (p ++ [0]) (0 :: p.map (gfMul (gfAlpha k)))

/-- The generator polynomial with roots α^0 to α^4, highest coefficient first. -/
def rsGenerator : List Byte := (List.range 5).foldl (fun p k => rsTimesRoot k p) [1]

/-- One data symbol into the encoder's register, the remainder so far. -/
def rsStep (r : List Byte) (d : Byte) : List Byte :=
  let fb := d ^^^ r.headD 0
  List.zipWith (· ^^^ ·) (r.tail ++ [0]) (rsGenerator.tail.map (gfMul fb))

/-- The 5 check symbols of a chunk's bytes. Byte 0 is taken as the highest coefficient of the codeword, whose order R140 does not give (DESIGN
CHOICE, log 123). -/
def rsCheck (data : List Byte) : List Byte := data.foldl rsStep [0, 0, 0, 0, 0]

/-- The 69 symbols that a bank stores for a chunk. -/
def rsCodeword (data : List Byte) : List Byte := data ++ rsCheck data

/-- Syndrome `k` of symbols: 0 for each `k` below 5 exactly where they are a codeword. -/
def rsSyndrome (k : Nat) (l : List Byte) : Byte := l.foldl (fun x d => gfMul (gfAlpha k) x ^^^ d) 0

/-- A completion of a request, with status and data (PCI Express Base 7.0). -/
def mkCpl (t : Tlp) (cplId : BitVec 16) (st : CplStatus) (data : List Byte) : Tlp :=
  { kind := .cpl, reqId := t.reqId, tag := t.tag, tc := t.tc, ro := t.ro, ido := t.ido, cplId := cplId,
    status := st, byteCount := if data.isEmpty then 4 else data.length, payload := data, hdr := 16,
    lowerAddr := BitVec.ofNat 7 t.addr.toNat }

end Sys2Proof.Machine
end

