-- ==== Sys2Proof/Machine/FloorOps.lean ====
section
/-! DEFINITION. The Floor's shared operations: geometry (R139), free lists and allocation (R144, R145), pools and
credits (R152-R156), queues, freeing, purge (R159-R161), and what a dequeue finds (R147). -/

namespace Sys2Proof.Machine

/-! ### Geometry (R139) -/

/-- The half of a cell. -/
def cellHalf (c : Nat) : Nat := c / 196608
/-- The bank group of a cell. -/
def cellGroup (c : Nat) : Nat := 16 * cellHalf c + c % 196608 / 12288
/-- The bank of a cell. -/
def cellBank (c : Nat) : Nat := 16 * cellGroup c + c % 16
/-- The first cell of a group. -/
def groupBase (g : Nat) : Nat := g / 16 * 196608 + g % 16 * 12288

/-! ### Queues -/

/-- The queue of egress point `e` and TCQ `q`. -/
def Dev.queue (s : Dev) (e q : Nat) : List Stored := s.floor.queues.look [] (9 * e + q)

/-- A queue replaced. -/
def Dev.setQueue (s : Dev) (e q : Nat) (l : List Stored) : Dev :=
  { s with floor := { s.floor with queues := s.floor.queues.put [] (9 * e + q) l } }

/-- Every TLP queued, in the Aisle, waiting at the management PF, held at an arbiter, in a hold pool or a lock slot, or sent and not
acknowledged. -/
def Dev.inDevice (s : Dev) : List Stored :=
  (s.floor.queues.map (fun e => e.2)).flatten ++ (s.arbs.map (fun e => e.2.reqs.map XbReq.st)).flatten
    ++ (s.links.map (fun e => e.2.lockSlot.toList ++ e.2.behind ++ e.2.opened.toList ++ e.2.replay.map Sent.st)).flatten
    ++ (s.twin.streams.map (fun e => e.2.held.map (fun h => h.2))).flatten ++ (s.aisle.map (fun e => e.2)).flatten ++ s.mgmtQ

/-! ### Free cells (R144, R145, R151) -/

/-- A bank group. -/
def Dev.group (s : Dev) (g : Nat) : GroupSt := s.floor.groups.look {} g

/-- A bank group replaced. -/
def Dev.setGroup (s : Dev) (g : Nat) (x : GroupSt) : Dev :=
  { s with floor := { s.floor with groups := s.floor.groups.put {} g x } }

/-- The bank of the group that is retiring or retired (R150, R151). -/
def Dev.outBank (s : Dev) (g : Nat) : Option Nat :=
  if s.b F.GROUP_STATUS_RETIRED g || s.b F.GROUP_STATUS_RETIRING g then some (s.f F.GROUP_STATUS_RETIRED_BANK g)
  else none

/-- Cells of the free list. -/
def GroupSt.listed (x : GroupSt) : Nat := 12288 - x.fresh + x.returned.length

/-- Cells of bank `b` (within the group) in the free list. -/
def GroupSt.listedOf (x : GroupSt) (b : Nat) : Nat :=
  768 - (x.fresh + 15 - b) / 16 + (x.returned.filter (fun c => decide (c % 16 = b))).length

/-- Free cells of a group: those of its free list, without a retired bank's and without those of a retiring bank that have left (R151). -/
def Dev.groupFree (s : Dev) (g : Nat) : Nat :=
  let x := s.group g
  if x.live then
    if s.b F.GROUP_STATUS_RETIRED g then x.listed - x.listedOf (s.f F.GROUP_STATUS_RETIRED_BANK g)
    else if s.b F.GROUP_STATUS_RETIRING g then x.listed - x.out
    else x.listed
  else 0

/-- Cells of a group that can be allocated: a retiring bank's are not (R144, R151). -/
def Dev.groupTake (s : Dev) (g : Nat) : Nat :=
  let x := s.group g
  if x.live then
    match s.outBank g with
    | some b => x.listed - x.listedOf b
    | none => x.listed
  else 0

/-- The group may receive new cells: it is enabled for them, and its clocks run (R376). -/
def Dev.groupOn (s : Dev) (g : Nat) : Bool :=
  (s.group g).live && s.b F.GROUP_CTL_ALLOC_EN g && !s.b F.DOMAIN_STATE_CLK_STOPPED (160 + g)

/-- The groups of half `h`. -/
def halfGroups (h : Nat) : List Nat := (List.range 16).map (fun k => 16 * h + k)

/-- Free cells of half `h` in its allocation-enabled groups. -/
def Dev.freeCells (s : Dev) (h : Nat) : Nat :=
  ((halfGroups h).map (fun g => if s.groupOn g then s.groupFree g else 0)).foldl (· + ·) 0

/-- Free cells of half `h` in its allocation-enabled groups that `FLOOR_RSV_GROUPS` names (R145). -/
def Dev.freeRsv (s : Dev) (h : Nat) : Nat :=
  ((halfGroups h).map (fun g =>
    if s.groupOn g && (s.f F.FLOOR_RSV_GROUPS_GROUPS).testBit g then s.groupFree g else 0)).foldl (· + ·) 0

/-- One cell from a group's free list, past the cells of a retiring or retired bank (R144). -/
def takeOne (bad : Option Nat) (base : Nat) (x : GroupSt) : Option (Nat × GroupSt) :=
  let isBad (c : Nat) : Bool := match bad with
    | some b => c % 16 == b
    | none => false
  let y := if x.fresh < 12288 ∧ isBad x.fresh = true then { x with fresh := x.fresh + 1, returned := x.returned ++ [base + x.fresh] } else x
  if y.fresh < 12288 then some (base + y.fresh, { y with fresh := y.fresh + 1 })
  else
    match y.returned.find? (fun c => !isBad c) with
    | some c => some (c, { y with returned := y.returned.erase c })
    | none => none

/-- Up to `n` cells from group `g`. -/
def Dev.takeFrom (s : Dev) (g : Nat) : Nat → Dev × List Nat
  | 0 => (s, [])
  | n + 1 =>
    match takeOne (s.outBank g) (groupBase g) (s.group g) with
    | none => (s, [])
    | some (c, x) =>
      let (s', l) := (s.setGroup g x).takeFrom g n
      (s', c :: l)

/-- The groups of half `h` in round-robin order from the one after the last used (R144). -/
def Dev.rrGroups (s : Dev) (h : Nat) (rsv : Bool) : List Nat :=
  let last := s.floor.rr.getD h 0
  ((List.range 16).map (fun k => 16 * h + (last + 1 + k) % 16)).filter (fun g =>
    s.groupOn g && (!rsv || (s.f F.FLOOR_RSV_GROUPS_GROUPS).testBit g))

/-- `n` cells taken group by group. -/
def Dev.takeMany (s : Dev) : List Nat → Nat → Dev × List Nat
  | [], _ => (s, [])
  | g :: t, n =>
    if n = 0 then (s, [])
    else
      let (s1, l) := s.takeFrom g n
      let (s2, l2) := s1.takeMany t (n - l.length)
      (s2, l ++ l2)

/-- Cells wiped: zero data with valid check symbols (R161). -/
def FloorSt.wipeCells (f : FloorSt) (cells : List Nat) : FloorSt :=
  { f with chunks := f.chunks.filter (fun e => !(cells.contains (e.1 / 4)))
           data := f.data.filter (fun e => !(cells.contains (e.1 / 4))) }

/-- Cells joined to their groups' free lists; a cell of a retired bank does not come back (R151). -/
def Dev.giveBack (s : Dev) (cells : List Nat) : Dev :=
  cells.foldl (fun s c =>
    let g := cellGroup c
    if s.b F.GROUP_STATUS_RETIRED g && s.f F.GROUP_STATUS_RETIRED_BANK g == c % 16 then s
    else
      let x := s.group g
      s.setGroup g { x with returned := x.returned ++ [c] }) s

/-! ### Pools (R152-R156) -/

/-- The pools of ingress `i`, VC `v`. -/
def Dev.pool (s : Dev) (i v : Nat) : Pool := s.floor.pools.look {} (8 * i + v)

/-- The pools of ingress `i`, VC `v` replaced. -/
def Dev.setPool (s : Dev) (i v : Nat) (x : Pool) : Dev :=
  { s with floor := { s.floor with pools := s.floor.pools.put {} (8 * i + v) x } }

/-- A half's share of a pool. -/
def Pool.half (x : Pool) (h : Nat) : PoolHalf := if h = 0 then x.w else x.e

/-- A half's share replaced. -/
def Pool.setHalf (x : Pool) (h : Nat) (y : PoolHalf) : Pool := if h = 0 then { x with w := y } else { x with e := y }

/-- Cells of reservations that are not spent. -/
def PoolHalf.unspent (y : PoolHalf) : Nat := (y.covP - y.heldP) + (y.covNP - y.heldNP) + (y.covC - y.heldC)

/-- What backs a credit in both halves (R154), from what each half has; while a half's Floor is in its safe state, in the other half only
(R338). -/
def Dev.backed (s : Dev) (w e : Nat) : Nat :=
  if s.safe 68 then (if s.safe 69 then 0 else e) else if s.safe 69 then w else min w e

/-- Room of the reserved posted, non-posted or completion pool (R154). -/
def Dev.roomOf (s : Dev) (x : Pool) (kind : Nat) : Nat :=
  match kind with
  | 0 => s.backed (x.w.covP - x.w.heldP) (x.e.covP - x.e.heldP)
  | 1 => s.backed (x.w.covNP - x.w.heldNP) (x.e.covNP - x.e.heldNP)
  | _ => s.backed (x.w.covC - x.w.heldC) (x.e.covC - x.e.heldC)

/-- Pledge of the credits of one kind at the partner, in sixteenths of a cell (R154). -/
def Pool.pledge (x : Pool) (kind : Nat) : Nat := 31 * x.adv.getD (2 * kind) 0 + x.adv.getD (2 * kind + 1) 0

/-- Common cells pledged per half, in sixteenths: the shared credits, and the posted credits that the reserved pool
does not back (R155). -/
def Dev.pledgeCommon (s : Dev) (x : Pool) : Nat := x.pledge 3 + (x.pledge 0 - 16 * s.roomOf x 0)

/-- Common cells held by the ingress's TLPs. -/
def Pool.heldCommon (x : Pool) : Nat := x.w.heldS + x.e.heldS

/-- Unspent reservations of half `h` (R145). -/
def Dev.unspent (s : Dev) (h : Nat) : Nat := (s.floor.pools.map (fun e => (e.2.half h).unspent)).foldl (· + ·) 0

/-- Common cells pledged in each half. -/
def Dev.pledged (s : Dev) : Nat := (s.floor.pools.map (fun e => ceilDiv (s.pledgeCommon e.2) 16)).foldl (· + ·) 0

/-- `n` cells of half `h`, from one group in round-robin order (R144). `rsv` confines them to `FLOOR_RSV_GROUPS`; any other TLP leaves the cells
of those groups that unspent reservations need (R145). Where no one group has room for all of a TLP it takes the rest from the groups after it
(DESIGN CHOICE, log 123). -/
def Dev.alloc (s : Dev) (h n : Nat) (rsv : Bool) : Dev × List Nat :=
  let all := s.rrGroups h rsv
  let gs := if rsv || decide (s.unspent h + n ≤ s.freeRsv h) then all
    else all.filter (fun g => !(s.f F.FLOOR_RSV_GROUPS_GROUPS).testBit g)
  let order := match gs.find? (fun g => decide (n ≤ s.groupTake g)) with
    | some g => g :: all.erase g
    | none => gs ++ all.filter (fun g => !gs.contains g)
  let (s1, l) := s.takeMany order n
  match order with
  | [] => (s1, l)
  | g :: _ => ({ s1 with floor := { s1.floor with rr := s1.floor.rr.set h (g % 16) } }, l)

/-- `FLOOR_FREE[h]`: allocatable cells that are neither reserved nor pledged. -/
def Dev.floorFree (s : Dev) (h : Nat) : Nat := s.freeCells h - s.unspent h - s.pledged

/-- Cells of group `g`'s retiring bank leave the half's free count, as far as its free cells exceed unspent reservations and pledges, those of the
reserved groups included (R145, R151). -/
def Dev.withdrawCells (s : Dev) (g : Nat) : Dev :=
  if s.b F.GROUP_STATUS_RETIRING g then
    let x := s.group g
    let h := g / 16
    let room := if s.groupOn g then
        (if (s.f F.FLOOR_RSV_GROUPS_GROUPS).testBit g then min (s.floorFree h) (s.freeRsv h - s.unspent h) else s.floorFree h)
      else 768
    s.setGroup g { x with out := min (x.listedOf (s.f F.GROUP_STATUS_RETIRED_BANK g)) (x.out + room) }
  else s

/-- SHARE of a pool; 0 on VC7 (R152). -/
def Dev.share (s : Dev) (i v : Nat) : Nat := if v = 7 then 0 else s.f F.POOL_CFG_SHARE i v

/-- WITHHOLD of a pool after its held common cells changed (R156); with HIGH at or below LOW, or SHARE below HIGH, it is a free value
(R157, R351). -/
def Dev.withholdUpdate (s : Dev) (i v : Nat) : Dev :=
  let x := s.pool i v
  let hi := s.f F.POOL_WM_HIGH i v
  let lo := s.f F.POOL_WM_LOW i v
  if hi ≤ lo ∨ s.f F.POOL_CFG_SHARE i v < hi then
    (s.setPool i v { x with withhold := s.freeVal.getLsbD 0 }).useFree
  else
    s.setPool i v { x with withhold := decide (hi < x.heldCommon) || (x.withhold && decide (lo ≤ x.heldCommon)) }

/-! ### Link headers and credit counters of a Nerup link (R199, R203) -/

/-- The Nerup record of a port. -/
def Dev.nerupOf (s : Dev) (p : Nat) : NerupSt := s.nerup.look {} p

/-- The Nerup record of a port replaced. -/
def Dev.setNerup (s : Dev) (p : Nat) (x : NerupSt) : Dev := { s with nerup := s.nerup.put {} p x }

/-- STATE of a fabric port (R197). -/
def Dev.nstate (s : Dev) (p : Nat) : Nat := s.f F.NERUP_STATUS_STATE p

/-- The link header of a flit of type `ftype` with sequence number `seq` that carries credit counter `c`: 8 × VC + kind, 64 for control
credit (R199). -/
def Dev.flitHdr (s : Dev) (p ftype seq : Nat) (c : Option Nat) : BitVec 48 :=
  let x := s.nerupOf p
  let (vc, kind, v) : Nat × Nat × Nat := match c with
    | none => (9, 0, 0)
    | some i => if i = 64 then (8, 0, x.crdOut.look 0 64 + 8) else (i / 8, i % 8, x.crdOut.look 0 i)
  BitVec.ofNat 48 (ftype + seq % 1024 * 2 ^ 2 + (x.rx + 1023) % 1024 * 2 ^ 12 + b2n x.nakOut * 2 ^ 22 + vc * 2 ^ 23 + kind * 2 ^ 27
    + v % 65536 * 2 ^ 30)

/-- The link headers of `n` data or control flits from SEQ `seq` on: each carries the next counter in turn, VC0 to VC7 and then control
(R203). -/
def Dev.seqHdrs (s : Dev) (p ftype seq n : Nat) : List (BitVec 48) :=
  (List.range n).map (fun i => s.flitHdr p ftype (seq + i) (some (((s.nerupOf p).crdTurn + i) % 65)))

/-- A header leaves at once in an init flit or an idle flit, in the states that send them (R197); `c` are the counters carried (log 27). -/
def Dev.sendIdle (s : Dev) (p : Nat) (c : List (Option Nat)) : Dev :=
  let go (ftype : Nat) : Dev := s.emit (.flits p (c.map (s.flitHdr p ftype (s.link p).nextSeq)))
  if s.f F.PORT_STATUS_LTSSM p ≠ 3 then s
  else match s.nstate p with
    | 3 => go 3
    | 4 | 5 => go 0
    | _ => s

/-- The full rotation of counters, `n` times (R197, R203). -/
def crdRotation (n : Nat) : List (Option Nat) := (List.range (65 * n)).map (fun i => some (i % 65))

/-- Credit of a VC and kind given to the link partner of port `i`: a cumulative counter of a Nerup link moves on, and a PCIe link carries an
update (R155, R203). No credit, no update: an update of none could be read as infinite credit, which the device advertises for no kind (R155, log
13). -/
def Dev.sendCredit (s : Dev) (i vc kind n : Nat) : Dev :=
  if n = 0 then s
  else if decide (i < 512) && s.role i == 2 then
    let x := s.nerupOf i
    let j := if vc = 8 then 64 else 8 * vc + kind
    (s.setNerup i { x with crdOut := x.crdOut.put 0 j ((x.crdOut.look 0 j + n) % 65536) }).sendIdle i [some j]
  else s.emit (.link i (.updateFc vc kind n))

/-- Credits advertised against a Nerup link's counters keep to the 32,767 units that may be outstanding (R203). -/
def Dev.crdMost (s : Dev) (i n : Nat) : Nat := if decide (i < 512) && s.role i == 2 then min n 32767 else n

/-- The ingress may grant a credit of kind `k` (0 posted, 1 non-posted, 2 completion, 3 shared) worth one header
and `d` data credits (R154-R156). -/
def Dev.mayGrant (s : Dev) (i v k d : Nat) : Bool :=
  let x := s.pool i v
  let h := x.adv.getD (2 * k) 0 + 1
  let n := x.adv.getD (2 * k + 1) 0 + d
  let x' := { x with adv := (x.adv.set (2 * k) h).set (2 * k + 1) n }
  if s.crdMost i h < h || s.crdMost i n < n then false
  else if k = 1 || k = 2 then decide (x'.pledge k ≤ 16 * s.roomOf x k)
  else if k = 0 && decide (x'.pledge 0 ≤ 16 * s.roomOf x 0) then true
  else if k = 0 && i < 512 && s.b F.PORT_STATUS_FLIT i then false
  else
    !x.withhold
      && decide (ceilDiv (s.pledgeCommon x') 16 + x.heldCommon ≤ s.share i v)
      && decide (ceilDiv (31 + d) 16 ≤ s.backed (s.floorFree 0) (s.floorFree 1))

/-- A credit of kind `k` given back to the partner of port `i`, or kept as owed (R155, R156). -/
def Dev.grant (s : Dev) (i v k d : Nat) : Dev :=
  let x := s.pool i v
  if s.mayGrant i v k d then
    let adv := (x.adv.set (2 * k) (x.adv.getD (2 * k) 0 + 1)).set (2 * k + 1) (x.adv.getD (2 * k + 1) 0 + d)
    let s1 := (s.setPool i v { x with adv := adv }).sendCredit i v (2 * k) 1
    if d = 0 then s1 else s1.sendCredit i v (2 * k + 1) d
  else
    s.setPool i v { x with owed :=
      (x.owed.set (2 * k) (x.owed.getD (2 * k) 0 + 1)).set (2 * k + 1) (x.owed.getD (2 * k + 1) 0 + d) }

/-- Credits of kind `k` owed to the partner of ingress `i`, returned as far as they may be (R156). -/
def Dev.grantOwed (s : Dev) (i v k : Nat) : Nat → Dev
  | 0 => s
  | n + 1 =>
    let x := s.pool i v
    let h := x.owed.getD (2 * k) 0
    if h = 0 then s
    else
      let d := x.owed.getD (2 * k + 1) 0 / h
      if s.mayGrant i v k d then
        let s1 := s.setPool i v { x with owed := (x.owed.set (2 * k) (h - 1)).set (2 * k + 1) (x.owed.getD (2 * k + 1) 0 - d) }
        (s1.grant i v k d).grantOwed i v k n
      else s

/-- Every owed credit of an ingress's VC retried. -/
def Dev.retryOwed (s : Dev) (i v : Nat) : Dev :=
  let go (s : Dev) (k : Nat) : Dev := s.grantOwed i v k ((s.pool i v).owed.getD (2 * k) 0)
  go (go (go (go s 0) 1) 2) 3

/-- The VCs of an ingress, in the order in which its reservations are covered (R152, R153). -/
def Dev.vcsOf (s : Dev) (i : Nat) : List Nat :=
  if decide (i < 512) && s.role i == 2 then [7, 0, 1, 2, 3, 4, 5, 6] else [0]

/-- Reservable cells of half `h`: free cells of the reserved groups beyond every unspent reservation (R145). -/
def Dev.reservable (s : Dev) (h : Nat) : Nat := s.freeRsv h - s.unspent h

/-- Cells a pool claims: completion, posted, non-posted. On VC7 the three counts together are the escape pool; the device backs the credits
of each class by its count (R152, log 11). -/
def Dev.claims (s : Dev) (i v : Nat) : Nat × Nat × Nat :=
  (s.f F.POOL_CFG_CPL i v, s.f F.POOL_CFG_RSV_P i v, s.f F.POOL_CFG_RSV_NP i v)

/-- A VC's reservations in half `h` covered as far as the reservable cells go: completion pool first, then posted,
then non-posted (R153). -/
def Dev.coverHalf (s : Dev) (i v h : Nat) : Dev :=
  let x := s.pool i v
  let y := x.half h
  let (c, p, np) := s.claims i v
  let r0 := s.reservable h
  let gC := min (c - y.covC) r0
  let gP := min (p - y.covP) (r0 - gC)
  let gN := min (np - y.covNP) (r0 - gC - gP)
  s.setPool i v (x.setHalf h { y with covC := y.covC + gC, covP := y.covP + gP, covNP := y.covNP + gN })

/-- Every reservation of ingress `i` covered as far as possible (R153). -/
def Dev.cover (s : Dev) (i : Nat) : Dev :=
  (s.vcsOf i).foldl (fun s v => (s.coverHalf i v 0).coverHalf i v 1) s

/-- An ingress that is enabled (R153, 05_floor_buffer_flow_control.md). -/
def Dev.ingressOn (s : Dev) (i : Nat) : Bool := if i < 512 then s.b F.PORT_CTL_EN i else s.b F.SVC_CTL_PORTER_EN

/-- A TLP of a previous generation of port `i` holds reserved, completion or escape cells of VC `v` in half `h` (R153). -/
def Dev.heldOld (s : Dev) (i v h : Nat) : Bool :=
  decide (i < 512) && s.inDevice.any (fun st => st.ingress == i && st.inVc == v && st.d.half == h && st.pool != 1 && decide (st.pool < 4)
    && !st.cells.isEmpty && decide (st.inGen ≠ s.f F.PORT_STATUS_GEN i))

/-- A pool of an enabled ingress is not fully covered in half `h`, or cells of it are not freed yet by an earlier generation (R153). -/
def Dev.shortIn (s : Dev) (i v h : Nat) : Bool :=
  let y := (s.pool i v).half h
  let (c, p, np) := s.claims i v
  s.ingressOn i && (decide (y.covC < c) || decide (y.covP < p) || decide (y.covNP < np) || s.heldOld i v h)

/-- The reservations of an ingress released: it is disabled. Cells that its TLPs hold stay in their pools. -/
def Dev.unclaim (s : Dev) (i : Nat) : Dev :=
  (List.range 8).foldl (fun s v =>
    let x := s.pool i v
    let z (y : PoolHalf) : PoolHalf := { y with covP := 0, covNP := 0, covC := 0 }
    s.setPool i v { w := z x.w, e := z x.e, withhold := x.withhold }) s

/-- The credits of an ingress's previous link forgotten (R160, R163). -/
def Dev.dropCredits (s : Dev) (i : Nat) : Dev :=
  (List.range 8).foldl (fun s v =>
    let x := s.pool i v
    s.setPool i v { w := x.w, e := x.e, withhold := x.withhold }) s

/-- Common cells that may back new credit of an ingress (R155 item 3). -/
def Dev.commonRoom (s : Dev) (i v : Nat) : Nat :=
  let x := s.pool i v
  if x.withhold then 0
  else min (s.share i v - x.heldCommon - ceilDiv (s.pledgeCommon x) 16) (s.backed (s.floorFree 0) (s.floorFree 1))

/-- Credits first advertised for kind `k` on a link that comes up: the split of the pool's room into header and data
credits is the device's own within R154 (log 11). Outside Flit mode the common share backs posted credit too (R155 item 1). -/
def Dev.firstCredits (s : Dev) (i v k : Nat) : Nat × Nat :=
  let x := s.pool i v
  let n := if k = 3 then s.commonRoom i v
    else if k = 0 ∧ i < 512 ∧ s.b F.PORT_STATUS_FLIT i = false then s.roomOf x 0 + s.commonRoom i v
    else s.roomOf x k
  let h := s.crdMost i (min (Config.hdrCredits n) (16 * n / 31))
  (h, s.crdMost i (16 * n - 31 * h))

/-- A link's first credits of kind `k` recorded as advertised and sent. -/
def Dev.advertise (s : Dev) (i v k : Nat) : Dev :=
  let (h, d) := s.firstCredits i v k
  let x := s.pool i v
  ((s.setPool i v { x with adv := (x.adv.set (2 * k) h).set (2 * k + 1) d }).sendCredit i v (2 * k) h).sendCredit i v (2 * k + 1) d

/-- The credits of a link that comes up (R153, R155): dedicated credits of each kind, and shared credits in Flit
mode. -/
def Dev.advertiseAll (s : Dev) (i : Nat) : Dev :=
  (s.vcsOf i).foldl (fun s v =>
    let s1 := ((s.advertise i v 0).advertise i v 1).advertise i v 2
    if s1.b F.PORT_STATUS_FLIT i then s1.advertise i v 3 else s1) s

/-- The pool a TLP is charged to at ingress `i` (R152, R155): 0 reserved, 1 common, 2 completion, 3 escape. One that used shared credits is
charged to the common share that backs them, a completion too (R155 item 2; log 26); any other completion to the completion pool. -/
def Dev.poolFor (s : Dev) (i v h cls n credit : Nat) : Nat :=
  let y := (s.pool i v).half h
  if v = 7 then 3
  else if credit = 1 then 1
  else if cls = 2 then 2
  else if credit = 0 && i < 512 && s.b F.PORT_STATUS_FLIT i then 0
  else
    let room := if cls = 0 then y.covP - y.heldP else y.covNP - y.heldNP
    if n ≤ room then 0 else 1

/-- The held count of a TLP's pool raised, or lowered, by `n` cells in half `h`. -/
def PoolHalf.charge (y : PoolHalf) (pool cls n : Nat) (up : Bool) : PoolHalf :=
  let g (a : Nat) : Nat := if up then a + n else a - n
  if pool = 1 then { y with heldS := g y.heldS }
  else if cls = 2 ∨ pool = 2 ∨ pool = 5 then { y with heldC := g y.heldC }
  else if cls = 0 then { y with heldP := g y.heldP }
  else { y with heldNP := g y.heldNP }

/-- The kind of link credit that a TLP of class `cls` used. -/
def creditOf (cls creditKind : Nat) : Nat := if creditKind = 1 then 3 else cls

/-- The partner holds the credit that a TLP of kind `k` with `d` data credits uses (R343). -/
def Pool.covers (x : Pool) (k d : Nat) : Bool :=
  decide (1 ≤ x.adv.getD (2 * k) 0) && decide (d ≤ x.adv.getD (2 * k + 1) 0)

/-- The credit a TLP used taken from what the partner holds: its pledge is released (R154). -/
def Pool.spend (x : Pool) (k d : Nat) : Pool :=
  { x with adv := (x.adv.set (2 * k) (x.adv.getD (2 * k) 0 - 1)).set (2 * k + 1) (x.adv.getD (2 * k + 1) 0 - d) }

/-- The pool record a TLP is charged to: its ingress's, or the hold pool of a Twin Hall (pool 5, R237); none for a TLP
that holds no pool's cells. -/
def Stored.account (st : Stored) : Option (Nat × Nat) :=
  if st.pool = 5 then some (1000, 0)
  else if st.pool < 4 ∧ st.ingress < 576 then some (st.ingress, st.inVc)
  else none

/-- The held count of a TLP's pool raised or lowered by its cells. -/
def Dev.chargePool (s : Dev) (st : Stored) (n : Nat) (up : Bool) : Dev :=
  match st.account with
  | none => s
  | some (i, v) =>
    let x := s.pool i v
    let h := st.d.half
    let s1 := s.setPool i v (x.setHalf h ((x.half h).charge st.pool (clsOf st.tlp.kind) n up))
    if st.pool = 5 then s1 else s1.withholdUpdate i v

/-- Chunks written: the first `n` of some cells hold no symbol error and no byte of the debug port's or of an earlier TLP's any more. -/
def Dev.writeChunks (s : Dev) (cells : List Nat) (n : Nat) : Dev :=
  let hit (x : Nat) : Bool := match cells.idxOf? (x / 4) with
    | some i => decide (4 * i + x % 4 < n)
    | none => false
  { s with floor := { s.floor with
      chunks := s.floor.chunks.filter (fun e => !hit e.1), data := s.floor.data.filter (fun e => !hit e.1) } }

/-- An armed memory injection of the Floor of half `h` acts on the first chunk written (R350): one symbol error, or three. -/
def Dev.injectFloor (s : Dev) (h : Nat) (cells : List Nat) : Dev :=
  let e := s.errs.look {} (68 + h)
  match cells with
  | c :: _ =>
    if e.memCorr || e.memUncorr then
      let n := b2n e.memCorr + 3 * b2n e.memUncorr
      { s with
        floor := { s.floor with chunks := s.floor.chunks.put 0 (4 * c) n }
        errs := s.errs.put {} (68 + h) { e with memCorr := false, memUncorr := false } }
    else s
  | [] => s

/-- A TLP's cells charged to its pool and allocated in its egress half (R144). -/
def Dev.take (s : Dev) (st : Stored) : Dev × Stored :=
  let (s1, cells) := s.alloc st.d.half (cellsOf (tlpLen st.tlp)) (!([1, 4, 6].contains st.pool))
  let s2 := (s1.writeChunks cells (ceilDiv (32 + tlpLen st.tlp) 64)).injectFloor st.d.half cells
  (s2.chargePool st cells.length true, { st with cells := cells })

/-- The 32 bytes of a cell header as a number (R141). -/
def Stored.header (st : Stored) : Nat :=
  let d := st.d
  d.egress % 2 ^ 10 + d.half * 2 ^ 10 + d.tcq % 16 * 2 ^ 11 + d.vc % 8 * 2 ^ 15 + d.dstMember % 16 * 2 ^ 18 + d.dest % 2 ^ 10 * 2 ^ 22
    + d.bucket % 2 ^ 12 * 2 ^ 32 + d.verdict % 4 * 2 ^ 44 + d.part % 128 * 2 ^ 46 + d.hallPart % 1024 * 2 ^ 53
    + d.ledger.elim 0 (256 + ·) * 2 ^ 63 + d.gen % 2 ^ 16 * 2 ^ 72 + d.action % 8 * 2 ^ 88
    + (tlpLen st.tlp % 2 ^ 13 + st.cells.length % 32 * 2 ^ 13 + clsOf st.tlp.kind * 2 ^ 18 + st.ingress % 1024 * 2 ^ 20
        + st.pool % 4 * 2 ^ 30) * 2 ^ 96
    + (st.inVc % 8 + b2n st.moved * 8 + b2n st.poisoned * 16 + b2n st.ct * 32 + st.inGen % 2 ^ 16 * 2 ^ 16) * 2 ^ 128

/-- Byte `p` of the cells of a stored TLP (R141): the cell header, then the TLP as it was received: header with prefixes or OHC, payload,
trailer. The header of a TLP that the device formed, and what fills its last chunk, are free values (log 123). -/
def Stored.byteAt (st : Stored) (p : Nat) : Byte :=
  let t := st.tlp
  let other := Config.tlpByte st.id p
  if p < 32 then BitVec.ofNat 8 (st.header >>> (8 * p))
  else if p < 32 + t.hdr then t.head.getD (p - 32) other
  else if p < 32 + t.hdr + t.payload.length then t.payload.getD (p - 32 - t.hdr) other
  else t.trailer.getD (p - 32 - t.hdr - t.payload.length) other

/-- The bytes of chunk `g` of a stored TLP. -/
def Stored.chunkBytes (st : Stored) (g : Nat) : List Byte := (List.range 64).map (fun b => st.byteAt (64 * g + b))

/-- The chunks of a stored TLP in order, with their place in it. -/
def Stored.chunksOf (st : Stored) : List (Nat × Nat × Nat) :=
  let n := ceilDiv (32 + tlpLen st.tlp) 64
  ((st.cells.zipIdx.map (fun (c, i) => (List.range 4).map (fun k => (c, k, 4 * i + k)))).flatten).filter
    (fun x => decide (x.2.2 < n))

/-- What a TLP that has been sent leaves in its cells (R161): its bytes, but where the debug port wrote others. -/
def Dev.leaveStale (s : Dev) (st : Stored) : Dev :=
  st.chunksOf.foldl (fun s x =>
    let i := 4 * x.1 + x.2.1
    match s.floor.data.look none i with
    | some _ => s
    | none => { s with floor := { s.floor with data := s.floor.data.put none i (some (BitVec.ofNat 512 (ofLe (st.chunkBytes x.2.2)))) } }) s

/-- Every credit owed to a link partner retried, once cells are free or WITHHOLD is left (R155, R156). -/
def Dev.retryAll (s : Dev) : Dev :=
  (s.floor.pools.filter (fun e => e.2.owed.any (fun n => n != 0))).foldl (fun s e => s.retryOwed (e.1 / 8) (e.1 % 8)) s

/-- A TLP's cells freed (R156, R160, R161): its pool is uncharged, its credit goes back unless its ingress has a new
generation, and the cells join their free lists, wiped where `wipe` says so (the time of the wipe is left out, log 9). -/
def Dev.freeStored (s : Dev) (st : Stored) (wipe : Bool) : Dev :=
  let s0 := (if wipe then { s with floor := s.floor.wipeCells st.cells } else s.leaveStale st).giveBack st.cells
  let s1 := (st.cells.map cellGroup).dedup.foldl Dev.withdrawCells s0
  let s2 := (s1.chargePool st st.cells.length false).retryAll
  if st.ingress < 512 ∧ st.creditKind < 2 ∧ st.inGen = s2.f F.PORT_STATUS_GEN st.ingress then
    s2.grant st.ingress st.inVc (creditOf (clsOf st.tlp.kind) st.creditKind) (dataCredits st.tlp)
  else s2

/-- A bucket's INFLIGHT raised or lowered by one (R133). -/
def Dev.inflight (s : Dev) (b : Nat) (up : Bool) : Dev :=
  let n := s.f F.BUCKET_INFLIGHT b
  s.setF F.BUCKET_INFLIGHT (if up then n + 1 else n - 1) b

/-- The TLP is bound to a fabric egress: it counts in INFLIGHT (R133). -/
def Dev.onFabric (s : Dev) (st : Stored) : Bool :=
  decide (st.d.egress < 512) && (s.role st.d.egress == 2 || s.nstate st.d.egress == 6)

/-- A discarded TLP leaves its bucket. -/
def Dev.leaveBucket (s : Dev) (st : Stored) : Dev := if s.onFabric st then s.inflight st.d.bucket false else s

/-- The arbiter that serves egress point `e` (R165): half and output. -/
def Dev.outputOf (s : Dev) (e : Nat) : Nat × Nat :=
  if e < 512 then (e / 256, e / 16 % 16)
  else if e < 514 then (s.ic, 20)
  else ((e - 514) / 32, 16 + (e - 514) % 32 / 8)

/-- Requester index of the read engine of egress point `e` (R165). -/
def engineIdx (e : Nat) : Nat := if e < 512 then e % 16 else if e < 514 then e - 512 else (e - 514) % 8

/-- An arbiter. -/
def Dev.arb (s : Dev) (h o : Nat) : ArbSt := s.arbs.look {} (21 * h + o)

/-- An arbiter replaced. -/
def Dev.setArb (s : Dev) (h o : Nat) (a : ArbSt) : Dev := { s with arbs := s.arbs.put {} (21 * h + o) a }

/-- A completion that the device generates for a request in half `gen`, where that is not the half it leaves by, and handed there to the
completion generator's place at the arbiter (R115, R159, R165). It keeps the request's ingress, binding number and BUCKET (the manual gives a
generated completion no ingress checker: DESIGN CHOICE, log 114); a fence waits for one that answers ACTION 1 or 2, `fenced` (R136). One that
crosses the Aisle waits in its completion buffer while that does not move (R12, R376). -/
def Dev.generate (s : Dev) (st : Stored) (egress : Nat) (id : BitVec 16) (cs : CplStatus) (data : List Byte := []) (fenced : Bool := false)
    (gen : Option Nat := none) : Dev :=
  let (h, o) := s.outputOf egress
  let origin := gen.getD h
  let c : Stored :=
    { id := st.id, tlp := mkCpl st.tlp id cs data, ingress := st.ingress
      d := { egress := egress, half := origin, part := st.d.part, hallPart := st.d.hallPart, bucket := st.d.bucket
             dstMember := st.src, gen := s.f F.PORT_STATUS_GEN egress }
      pool := 4, creditKind := 2, inVc := st.inVc, quiet := !fenced, made := true }
  let k := 3 * origin + 2
  let stopped := s.b F.DOMAIN_STATE_CLK_STOPPED 204 || s.b F.DOMAIN_STATE_CLK_STOPPED 205
  if origin ≠ h ∧ (stopped || !(s.aisle.look [] k).isEmpty) = true then { s with aisle := s.aisle.put [] k (s.aisle.look [] k ++ [c]) }
  else
    let a := s.arb h o
    s.setArb h o { a with reqs := a.reqs ++ [{ idx := 37, cls := 2, st := c }] }

/-- Egress point through which a request's completion returns: its ingress, the management PF for its own (R115). -/
def backTo (i : Nat) : Nat := if i < 512 then i else if i = 1023 then 512 else i + 2

/-- The ingress number of the function behind an egress point. -/
def ingressOf (e : Nat) : Nat := if e < 512 then e else if e = 512 then 1023 else if e = 513 then 512 else e - 2

/-- A TLP discarded by a purge or a generation check, with its class's outcome (R159, R160, R24): a posted TLP is
counted in P_DROP, a completion in CPL_DROP, a non-posted request is answered in the egress half and counted in NP_UR. The Completer ID is that
of the egress port's function, or CPL_ID for a request that came over the fabric or was bound to it (R222). `cs` is UR, or CA under DPC
Completion Control (R347). A copy with TWIN set on its way is not
answered and is counted in TRANSIT_DROP as well (R235). -/
def Dev.discard (s : Dev) (st : Stored) (cs : CplStatus) : Dev :=
  let e := st.d.egress
  let transit := st.twin.isSome && s.onFabric st
  let s0 := (s.freeStored st true).leaveBucket st
  let s1 := if transit then s0.inc .transitDrop else s0
  match clsOf st.tlp.kind with
  | 0 => s1.inc .pDrop 1 e
  | 2 => s1.inc .cplDrop 1 e
  | _ =>
    if transit then s1.inc .npUr 1 e
    else
      let viaFabric := decide (st.ingress < 512) && s.role st.ingress == 2
      let id := if viaFabric then st.cplId else if s.onFabric st then s.cplIdOf st.ingress else s.cplIdOf (ingressOf e)
      (s1.inc .npUr 1 e).generate st (backTo st.ingress) id cs [] false (some (s.outputOf e).1)

/-- The function of the USP of partition `q`, where it lies on this device. -/
def Dev.uspFn (s : Dev) (q : Nat) : Option Fn :=
  if s.f F.PART_CTL_USP_MEMBER q == s.me then
    let p := s.f F.PART_CTL_USP_PORT q
    if s.b F.PORT_CTL_EN p && s.role p == 1 && s.f F.PORT_CTL_PART p == q then some (portFn p) else none
  else none

/-- An uncorrectable internal error that affected a TLP of partition `q`, reported in the AER of its USP as well (R344). -/
def Dev.uspInternal (s : Dev) (q : Nat) : Dev :=
  match s.uspFn q with
  | some f => s.aerU f AER.uncorrectableInternal
  | none => s

/-- One internal error that affected several TLPs: each of their partitions' USPs reports it (R344). -/
def Dev.uspInternals (s : Dev) (l : List Stored) : Dev := (l.map (fun st => st.d.part)).dedup.foldl Dev.uspInternal s

/-- TLPs discarded in order. -/
def Dev.discardAll (s : Dev) (l : List Stored) (cs : CplStatus) : Dev := l.foldl (fun s st => s.discard st cs) s

/-- The read engine's pending requests of egress point `e`, its own queue's TLPs among them. -/
def XbReq.forEgress (r : XbReq) (e : Nat) : Bool := decide (r.st.d.egress = e) && decide (r.idx ≠ 37)

/-- The scheduler of port `p`. -/
def Dev.sched (s : Dev) (p : Nat) : SchedSt := s.scheds.look {} p

/-- The scheduler of port `p` replaced. -/
def Dev.setSched (s : Dev) (p : Nat) (x : SchedSt) : Dev := { s with scheds := s.scheds.put {} p x }

/-- Parameter writes that wait take effect (R188): the registers take their new values and each token count is
clipped to its new burst; a bucket that was off held its BURST (R182). -/
def Dev.applyPending (s : Dev) (p : Nat) : Dev :=
  let x := s.sched p
  let s1 := x.pend.foldl (fun s e => { s with regs := Store.set RegId.ord RegId.reset s.regs e.1 e.2 }) s
  let clip (t : Tbl Int) (e : RegId × Word) : Tbl Int :=
    match e.1.kind with
    | .pschQShape | .pschPortShape =>
      let k := if e.1.kind = .pschPortShape then 8 else e.1.j
      let old := Store.get RegId.reset s.regs e.1
      let full (v : Word) : Int := (min (getBits v 21 21) 1048576 : Nat) * 1000
      let now := if getBits old 0 21 = 0 then full old else Tbl.look (65536000 : Int) t k
      Tbl.put (65536000 : Int) t k (min now (full e.2))
    | _ => t
  (s1.setSched p { x with pend := [], tok := x.pend.foldl clip x.tok }).setB F.PSCH_CTL_PEND false p

/-- What a purge does to a port's scheduler (R189): deficits 0, lists empty, token counts kept, pending parameters
applied. -/
def Dev.schedPurge (s : Dev) (p : Nat) : Dev :=
  let s1 := s.applyPending p
  let x := s1.sched p
  s1.setSched p { tok := x.tok, gateStarted := x.gateStarted, enAt := x.enAt, swAt := x.swAt, swFrom := x.swFrom }

/-- The purge of egress point `e` (R159, R163): its queues in order, the escape queue last, then what its read engine holds
at the arbiter and a TLP that it holds open. -/
def Dev.purgeQueues (s : Dev) (e : Nat) (cs : CplStatus) : Dev :=
  let l := (List.range 9).flatMap (fun q => s.queue e q)
  let (h, o) := s.outputOf e
  let a := s.arb h o
  let mine := (a.reqs.filter (fun r => r.forEgress e)).filter (fun r => decide (r.idx < 16))
  let s1 := (List.range 9).foldl (fun s q => s.setQueue e q []) s
  let s2 := (s1.setArb h o { a with reqs := a.reqs.filter (fun r => !r.forEgress e) }).setLink e { s1.link e with opened := none }
  let s3 := s2.discardAll (l ++ mine.map XbReq.st ++ (s.link e).opened.toList) cs
  if e < 512 then s3.schedPurge e else s3

/-- A copy with TWIN set is lost on its way (R235): counted. -/
def Dev.twinLost (s : Dev) (st : Stored) : Dev := if st.twin.isSome && s.onFabric st then s.inc .transitDrop else s

/-- The TLPs that a link has sent and not had acknowledged leave the device with its going down; they hold no cells
any more (R133, R136). -/
def Dev.dropReplay (s : Dev) (p : Nat) : Dev :=
  let l := s.link p
  let s1 := l.replay.foldl (fun s x => (s.twinLost x.st).leaveBucket x.st) s
  s1.setLink p { l with replay := [] }

/-- The generation number of port `p` moves on (R24, R159): purge of its queues, the LTSSM held until PURGE_DONE,
credits of the old generation forgotten. -/
def Dev.newGen (s : Dev) (p : Nat) (cs : CplStatus) : Dev :=
  let s1 := s.setF F.PORT_STATUS_GEN ((s.f F.PORT_STATUS_GEN p + 1) % 65536) p
  let s2 := ((s1.purgeQueues p cs).dropReplay p).dropCredits p
  s2.setLink p { s2.link p with purge := true, cr := [], inf := [] }

/-! ### Link memory and cell state table (R142), as the queues and free lists give them -/

/-- A wipe of the Floor runs in half `h`. -/
def Dev.wipes (s : Dev) (h : Nat) : Bool := s.floor.wiping && s.floor.wipeHalf != some (1 - h)

/-- A wipe of one half of the Floor, or of all of it, begins (R161); one that runs already goes on with it. -/
def Dev.wipeBegins (s : Dev) (h : Option Nat) : Dev :=
  let half := if s.floor.wiping && s.floor.wipeHalf != h then none else h
  ({ s with floor := { s.floor with wiping := true, wipeHalf := half } } : Dev).setB F.FLOOR_CTL_FLOOR_WIPED false

/-- State of a cell. -/
inductive CellState where
  | free | wiping | held | retiring
  deriving DecidableEq, Repr

/-- The state of cell `c`; a cell of a group that is not awake is not wiped yet. -/
def Dev.cellState (s : Dev) (c : Nat) : CellState :=
  if s.inDevice.any (fun st => st.cells.contains c) then .held
  else if s.wipes (cellHalf c) || !(s.group (cellGroup c)).live then .wiping
  else if s.outBank (cellGroup c) == some (c % 16) then .retiring
  else .free

/-- The queue that holds cell `c`, numbered 9 × egress point + TCQ. -/
def Dev.cellQueue (s : Dev) (c : Nat) : Option Nat :=
  (s.floor.queues.find? (fun e => e.2.any (fun st => st.cells.contains c))).map (fun e => e.1)

/-- Cell `c` is the first of a TLP. -/
def Dev.firstCell (s : Dev) (c : Nat) : Bool := s.inDevice.any (fun st => st.cells.head? == some c)

/-- The cells of a queue in order: HEAD is the first, TAIL the last. -/
def Dev.queueCells (s : Dev) (e q : Nat) : List Nat := (s.queue e q).flatMap Stored.cells

/-- The link memory entry of cell `c` in queue `q` of egress point `e`: NEXT, EOP and the SECDED code. -/
def Dev.linkEntry (s : Dev) (e q c : Nat) : BitVec 32 :=
  let l := s.queueCells e q
  let next := (l.getD (l.idxOf c + 1) 0) % 196608
  let eop := (s.queue e q).any (fun st => st.cells.getLast? == some c)
  let low := BitVec.ofNat 25 (next + 2 ^ 18 * b2n eop)
  Config.secded low ++ low

/-! ### What a dequeue finds (R147) -/

/-- Symbol errors of a chunk: `k` of cell `c`. -/
def Dev.chunkErrs (s : Dev) (c k : Nat) : Nat := s.floor.chunks.look 0 (4 * c + k)

/-- A chunk's first uncorrectable finding logged and counted (R147, R150). -/
def Dev.logUncorr (s : Dev) (c k src : Nat) : Dev :=
  let s1 := (s.inc .floorUncorrCnt).raise F.FLOOR_STATUS_CELL_UNCORR (cellHalf c)
  let s2 := s1.setB F.FLOOR_BANK_UNCORR_SEEN true (cellBank c)
  if s2.b F.FLOOR_ERR_LOG_VALID then s2
  else
    (((s2.setF F.FLOOR_ERR_LOG_CELL c).setF F.FLOOR_ERR_LOG_CHUNK k).setF F.FLOOR_ERR_LOG_SOURCE src).setB
      F.FLOOR_ERR_LOG_VALID true

/-- A bank becomes a retirement candidate (R150): its group starts to retire it, or RETIRE_BLOCKED is set. While a wipe runs the retirement
waits for it (R163). Of two candidates of one window the lower bank retires (R163). -/
def Dev.candidate (s : Dev) (b : Nat) : Dev :=
  let g := b / 16
  let x := s.group g
  let was := s.f F.GROUP_STATUS_RETIRED_BANK g
  if s.wipes (g / 16) then { s with floor := { s.floor with late := if s.floor.late.contains b then s.floor.late else s.floor.late ++ [b] } }
  else if s.b F.GROUP_STATUS_RETIRED g || s.b F.GROUP_STATUS_RETIRING g then
    if was == b % 16 then s
    else
      let s1 := s.raise F.FLOOR_STATUS_RETIRE_BLOCKED (g / 16)
      if s.b F.GROUP_STATUS_RETIRING g && x.cand && decide (b % 16 < was) then
        ((s1.setGroup g { x with out := 0 }).setF F.GROUP_STATUS_RETIRED_BANK (b % 16) g).withdrawCells g
      else s1
  else
    (((s.setGroup g { x with out := 0, cand := true }).setF F.GROUP_STATUS_RETIRED_BANK (b % 16) g).setB F.GROUP_STATUS_RETIRING true
      g).withdrawCells g

/-- The wipe of the Floor completes (R161): banks that became candidates meanwhile start to retire, the lower first (R163). -/
def Dev.wipeEnds (s : Dev) : Dev :=
  (s.floor.late.mergeSort (fun a b => decide (a ≤ b))).foldl Dev.candidate
    (({ s with floor := { s.floor with wiping := false, wipeHalf := none, late := [] } } : Dev).setB F.FLOOR_CTL_FLOOR_WIPED true)

/-- An uncorrectable chunk makes its bank a candidate while UNCORR_RETIRE is set (R150). -/
def Dev.uncorrCandidate (s : Dev) (c : Nat) : Dev :=
  if s.b F.FLOOR_CTL_UNCORR_RETIRE then s.candidate (cellBank c) else s

/-- A correction in bank `b` counted (R147, R342). -/
def Dev.countCorr (s : Dev) (b : Nat) : Dev :=
  let s1 := (s.bump F.FLOOR_BANK_CORR 1 b).inc .floorCorrCnt
  let x := s1.floor.banks.look {} b
  ({ s1 with floor := { s1.floor with banks := s1.floor.banks.put {} b { x with winCorr := x.winCorr + 1 } } }).aerC
    .mgmtPf AER.correctedInternal

/-- Chunk `g` of a TLP holds a byte that is no payload: of the cell header, the TLP's header or its trailer (R147). -/
def Stored.mixed (st : Stored) (g : Nat) : Bool :=
  let p := 32 + st.tlp.hdr
  decide (64 * g < p) || (!st.tlp.trailer.isEmpty && decide (p + st.tlp.payload.length < 64 * g + 64))

/-- Payload bytes of chunk `g` of a TLP sent as 0 (R147). -/
def zeroChunk (t : Tlp) (g : Nat) : Tlp :=
  { t with ep := true
           payload := t.payload.zipIdx.map (fun (b, i) => if (32 + t.hdr + i) / 64 = g then 0 else b) }

/-- Payload bytes of chunk `g` of a TLP replaced by those that the debug port wrote (R171). -/
def dbgChunk (t : Tlp) (g : Nat) (v : BitVec 512) : Tlp :=
  { t with payload := t.payload.zipIdx.map (fun (b, i) =>
      if (32 + t.hdr + i) / 64 = g then BitVec.ofNat 8 (v.toNat >>> (8 * ((32 + t.hdr + i) % 64))) else b) }

/-- A TLP read out of its cells (R147): the state with what was counted and logged, and the TLP to send, or `none`
where a chunk with header or trailer bytes is uncorrectable. -/
def Dev.readOut (s : Dev) (st : Stored) : Dev × Option Tlp :=
  st.chunksOf.foldl (fun (acc : Dev × Option Tlp) (x : Nat × Nat × Nat) =>
    let (c, k, g) := x
    let n := acc.1.chunkErrs c k
    let t1 := match acc.1.floor.data.look none (4 * c + k) with
      | some v => acc.2.map (fun t => dbgChunk t g v)
      | none => acc.2
    if n = 0 then (acc.1, t1)
    else if n ≤ 2 then (acc.1.countCorr (cellBank c), t1)
    else
      let s1 := ((acc.1.logUncorr c k 0).uncorrCandidate c).aerU .mgmtPf AER.uncorrectableInternal
      if st.mixed g then (s1, none) else (s1, t1.map (fun t => zeroChunk t g))) (s, some st.tlp)

end Sys2Proof.Machine
end

