-- ==== Sys2Proof/Machine/LedgerOps.lean ====
section
/-! DEFINITION. The Ledger's shared operations (R322-R332): which context tracks a request, marking pages in the two
halves' caches, handing entries to the home half, flushes. Set indexes are the device's own (log 16). -/

namespace Sys2Proof.Machine

/-- The secondary bus of service DSP `v` (R79); on a member whose host writes the bridge on another one, the lowest bus that the committed
bus map puts below it (DEDUCED, log 113). -/
def Dev.svcBus (s : Dev) (v : Nat) : Nat :=
  let b := s.cfNum (.svc v) 0x18 8 8
  if b ≠ 0 ∨ s.b F.HALL_CTL_EN = false then b
  else
    let q := if v = 254 then s.f F.SVC_CTL_MGMT_PART else s.f F.SVC_CTL_PORTER_PART
    ((List.range 256).find? (fun b => getBits (s.ac .bus q b) 0 10 == 0x100 + v)).getD 0

/-- Routing ID of the Porter PF (R79): device 0, function 0 of the secondary bus of service DSP 255. -/
def Dev.porterRid (s : Dev) : BitVec 16 := bdf (s.svcBus 255) 0 0

/-- Routing ID of the management PF (R79). -/
def Dev.mgmtRid (s : Dev) : BitVec 16 := bdf (s.svcBus 254) 0 0

/-- Routing ID of Stall `n` (R79): First VF Offset 1, VF Stride 1. -/
def Dev.stallRid (s : Dev) (n : Nat) : BitVec 16 := s.porterRid + 1 + BitVec.ofNat 16 n

/-- STATE of a context. -/
def Dev.ledState (s : Dev) (c : Nat) : Nat := s.f F.LEDGER_CMD_STATE c

/-- Context `c` is enabled and tracks the requester of a request that enters at ingress `i` (R322). -/
def Dev.tracks (s : Dev) (i : Nat) (rid : BitVec 16) (c : Nat) : Bool :=
  s.b F.LEDGER_EN c && s.ledState c == 1 && !s.ledgerSafe (ledgerHome c) &&
    (if s.b F.LEDGER_KIND c then
      s.f F.LEDGER_PORT c == i &&
        ((rid ^^^ BitVec.ofNat 16 (s.f F.LEDGER_RID c)) &&& BitVec.ofNat 16 (s.f F.LEDGER_RID_MASK c)) == 0
    else decide (512 ≤ i ∧ i < 576) && rid == s.stallRid (s.f F.LEDGER_STALL c))

/-- The context that marks a request: the lowest-numbered that tracks it (R323). -/
def Dev.trackedBy (s : Dev) (i : Nat) (rid : BitVec 16) : Option Nat := (List.range 256).find? (s.tracks i rid)

/-- The cache set of a word of a context's bitmap (log 16). -/
def ledgerSet (c word : Nat) : Nat := Config.ledgerIndex c word % 4096

/-- The same word of the same bitmap. -/
def LedEnt.same (a b : LedEnt) : Bool := a.ctx == b.ctx && a.sel == b.sel && a.word == b.word

/-- Two entries of one word as one. -/
def LedEnt.merge (a b : LedEnt) : LedEnt := { a with mask := a.mask ||| b.mask, id := min a.id b.id }

/-- An entry merged into a list that holds its word. -/
def mergeInto (l : List LedEnt) (e : LedEnt) : List LedEnt := l.map (fun x => if x.same e then x.merge e else x)

/-- LEDGER_SYNCs whose flush of context `c` runs have failed, whatever the context's flags say at its end (R330). -/
def Dev.syncFail (s : Dev) (c : Nat) : Dev :=
  let fail (d : Desc) : Desc := if d.sync = some c ∧ d.ended.isNone = true then { d with noted := true } else d
  { s with rings := s.rings.map (fun e => (e.1, { e.2 with prog := e.2.prog.map fail })) }

/-- LOST of a context set (R325). -/
def Dev.ledgerLost (s : Dev) (c : Nat) : Dev := (s.setB F.LEDGER_CMD_LOST true c).syncFail c

/-- FAULT of a context set (R331). -/
def Dev.ledgerFault (s : Dev) (c : Nat) : Dev := (s.setB F.LEDGER_CMD_FAULT true c).syncFail c

/-- An entry handed to its home half, where a second fold of one word merges into the first (R326). -/
def Dev.foldEntry (s : Dev) (e : LedEnt) : Dev :=
  let h := ledgerHome e.ctx
  let f := s.ledger.folds.look [] h
  let q := s.ledger.queue.look [] h
  if f.any (fun x => x.same e) then { s with ledger := { s.ledger with folds := s.ledger.folds.put [] h (mergeInto f e) } }
  else if q.any (fun x => x.same e) then { s with ledger := { s.ledger with queue := s.ledger.queue.put [] h (mergeInto q e) } }
  else { s with ledger := { s.ledger with queue := s.ledger.queue.put [] h (q ++ [e]) } }

/-- An entry leaves the cache. One that reads with an uncorrectable error is gone, and its context's LOST is set (R342). -/
def Dev.toFold (s : Dev) (e : LedEnt) : Dev :=
  let hit (b : Nat) : Option BadWord := s.badWord b (fun w => decide (w = .ledger e.ctx))
  match hit 78, hit 79 with
  | some w, _ => (s.badFound 78 w).ledgerLost e.ctx
  | none, some w => (s.badFound 79 w).ledgerLost e.ctx
  | none, none => s.foldEntry e

/-- Page PAGE_BASE + k of context `c` marked in the cache of half `h` (R324, R325). -/
def Dev.markPage (s : Dev) (h c k : Nat) : Dev :=
  let e : LedEnt :=
    { ctx := c, sel := s.b F.LEDGER_CMD_SEL c, word := k / 64, mask := BitVec.ofNat 64 (2 ^ (k % 64)), id := s.bindCount }
  let i := 4096 * h + ledgerSet c e.word
  let l := s.ledger.cache.look [] i
  let put (s : Dev) (l : List LedEnt) : Dev := { s with ledger := { s.ledger with cache := s.ledger.cache.put [] i l } }
  match l.find? (fun x => x.same e) with
  | some x => put s (x.merge e :: l.erase x)
  | none =>
    if l.length < 16 then put s (e :: l)
    else
      match l.reverse.find? (fun x => !s.b F.LEDGER_CMD_FAULT x.ctx) with
      | some v => (put s (e :: l.erase v)).toFold v
      | none => s.ledgerLost c

/-- Every page of a request's bytes marked, and the request counted in MARKS (R323). -/
def Dev.markRequest (s : Dev) (h c addr len : Nat) : Dev :=
  let p0 := addr / 4096
  let n := (addr + max len 1 - 1) / 4096 + 1 - p0
  let base := s.f F.LEDGER_PAGE_BASE c
  let s1 := (List.range n).foldl (fun s j =>
    let p := p0 + j
    if base ≤ p ∧ p - base < s.f F.LEDGER_PAGES c then s.markPage h c (p - base)
    else s.setB F.LEDGER_CMD_OUT_RANGE true c) s
  s1.inc .ledgerMarks 1 c

/-- The entries of the caches that belong to context `c`, taken out of them. -/
def LedgerSt.takeCtx (l : LedgerSt) (c : Nat) : LedgerSt × List LedEnt :=
  let mine := (l.cache.map (fun e => e.2.filter (fun x => x.ctx == c))).flatten
  let rest := (l.cache.map (fun e => (e.1, e.2.filter (fun x => x.ctx != c)))).filter (fun e => !e.2.isEmpty)
  ({ l with cache := rest }, mine)

/-- A flush of context `c` begins (R328): its entries go to its home half. -/
def Dev.flushStart (s : Dev) (c kind : Nat) : Dev :=
  let (l, mine) := s.ledger.takeCtx c
  let s1 := mine.foldl Dev.toFold { s with ledger := l }
  { s1 with ledger := { s1.ledger with flushes := s1.ledger.flushes ++ [{ ctx := c, kind := kind, mark := s.bindCount }] } }

/-- A flush is complete (R328): every page marked before it is in its bitmap, and every request so marked has left the
device or been discarded. While FAULT is set it is not (R331). -/
def Dev.flushComplete (s : Dev) (f : LedFlush) : Bool :=
  let h := ledgerHome f.ctx
  !s.b F.LEDGER_CMD_FAULT f.ctx
    && (s.ledger.queue.look [] h).all (fun e => e.ctx != f.ctx || decide (f.mark ≤ e.id))
    && (s.ledger.folds.look [] h).all (fun e => e.ctx != f.ctx || decide (f.mark ≤ e.id))
    && s.inDevice.all (fun st => st.d.ledger != some f.ctx || decide (f.mark ≤ st.id))

/-- A swap of the active bitmap (R329): SEL toggles and the old bitmap is flushed. -/
def Dev.ledgerSwap (s : Dev) (c : Nat) : Dev :=
  if s.b F.LEDGER_CMD_SWAP_DONE c && s.ledState c == 1 then
    ((s.setB F.LEDGER_CMD_SEL (!s.b F.LEDGER_CMD_SEL c) c).setB F.LEDGER_CMD_SWAP_DONE false c).flushStart c 2
  else s.setB F.LEDGER_CMD_LEDGER_CFG_ERR true c

/-- A flush asked for by register (R328). -/
def Dev.ledgerFlush (s : Dev) (c : Nat) : Dev := (s.setB F.LEDGER_CMD_FLUSH_DONE false c).flushStart c 1

/-- EN cleared (R332): TEARDOWN, after a swap that is not done (R333). -/
def Dev.ledgerDown (s : Dev) (c : Nat) : Dev :=
  if s.ledState c = 1 then
    let s1 := s.setF F.LEDGER_CMD_STATE 2 c
    if s1.b F.LEDGER_CMD_SWAP_DONE c then s1.flushStart c 3
    else { s1 with ledger := { s1.ledger with downWait := s1.ledger.downWait ++ [c] } }
  else s

/-- EN set (R332): STATE ENABLED, SEL 0, the three flags cleared. -/
def Dev.ledgerUp (s : Dev) (c : Nat) : Dev :=
  ((((s.setF F.LEDGER_CMD_STATE 1 c).setB F.LEDGER_CMD_SEL false c).setB F.LEDGER_CMD_OUT_RANGE false c).setB
    F.LEDGER_CMD_LOST false c).setB F.LEDGER_CMD_FAULT false c

/-- A context's flushes that are complete end: FLUSH_DONE, SWAP_DONE, or DISABLED after a teardown (R328-R332). -/
def Dev.flushesEnd (s : Dev) (c : Nat) : Dev :=
  let done := s.ledger.flushes.filter (fun f => f.ctx == c && s.flushComplete f)
  let rest := s.ledger.flushes.filter (fun f => !(f.ctx == c && s.flushComplete f))
  let s1 : Dev := { s with ledger := { s.ledger with flushes := rest } }
  let has (k : Nat) : Bool := done.any (fun f => f.kind == k)
  let s2 := if has 1 && !rest.any (fun f => f.ctx == c && f.kind == 1) then s1.setB F.LEDGER_CMD_FLUSH_DONE true c else s1
  let s3 := if has 2 then s2.setB F.LEDGER_CMD_SWAP_DONE true c else s2
  let s4 := if has 3 && s3.ledState c == 2 then s3.setF F.LEDGER_CMD_STATE 0 c else s3
  if s4.b F.LEDGER_CMD_SWAP_DONE c && s4.ledger.downWait.contains c then
    ({ s4 with ledger := { s4.ledger with downWait := s4.ledger.downWait.erase c } }).flushStart c 3
  else s4

/-- The Ledger unit of half `h` enters its safe state (R338). -/
def Dev.ledgerSafeEnter (s : Dev) (h : Nat) : Dev :=
  let mine := (List.range 128).map (fun k => 128 * h + k)
  let s1 := mine.foldl (fun s c => (s.ledgerLost c).ledgerFault c) s
  { s1 with ledger := { s1.ledger with
      cache := (s1.ledger.cache.map (fun e => (e.1, e.2.filter (fun x => ledgerHome x.ctx != h)))).filter (fun e => !e.2.isEmpty)
      queue := s1.ledger.queue.put [] h [] } }

end Sys2Proof.Machine
end

