-- ==== Sys2Proof/Machine/SchedOps.lean ====
section
/-! DEFINITION. Choosing the next TLP of a port: link credit (R155, R203), passing (R130), gates (R183-R187), token
buckets (R182), two-level deficit round robin (R176-R181). -/

namespace Sys2Proof.Machine

/-! ### Link credit -/

/-- The VC on which a fabric port sends TCQ `q` (R203); a USP or DSP has VC0 only. -/
def Dev.vcOf (s : Dev) (p q : Nat) : Nat := if s.role p = 2 then (if q = 8 then 7 else min q 6) else 0

/-- Link credit in hand. -/
def LinkSt.credit (l : LinkSt) (vc k : Nat) : Nat := l.cr.look 0 (8 * vc + k)

/-- Both the header credit and `d` data credits of dedicated (`k` 0, 2, 4) or shared (6) kind are in hand. A kind that the partner
advertised without limit is always in hand (log 13). -/
def LinkSt.canSend (l : LinkSt) (vc k d : Nat) : Bool :=
  (l.inf.contains k || decide (1 ≤ l.credit vc k)) && (l.inf.contains (k + 1) || decide (d ≤ l.credit vc (k + 1)))

/-- The TLP has credit on VC `vc` of port `p`: dedicated of its class, or shared (R155 item 2, R203). -/
def Dev.hasCredit (s : Dev) (p vc : Nat) (t : Tlp) : Bool :=
  let l := s.link p
  l.canSend vc (2 * clsOf t.kind) (dataCredits t) || l.canSend vc 6 (dataCredits t)

/-- Flits that a segment takes (R200): each starts a flit, and an NTH that says END follows it wherever it does not fill its last flit (log 27). -/
def nerupFlits (t : Tlp) : Nat :=
  let n := 16 + tlpLen t
  if n % 236 = 0 then n / 236 else ceilDiv (n + 16) 236

/-- Data and control flits of fabric port `p` that are not acknowledged (R206). -/
def Dev.flitsOut (s : Dev) (p : Nat) : Nat := ((s.link p).nextSeq + 1024 - (s.nerupOf p).una) % 1024

/-- The TLP has credit, and on a fabric port the replay buffer takes its flits: at most 511 are unacknowledged (R206). -/
def Dev.maySend (s : Dev) (p vc : Nat) (t : Tlp) : Bool :=
  s.hasCredit p vc t && (s.role p != 2 || decide (s.flitsOut p + nerupFlits t ≤ 511))

/-- The kind of credit used: dedicated when both are available, shared otherwise. -/
def Dev.usesShared (s : Dev) (p vc : Nat) (t : Tlp) : Bool :=
  !(s.link p).canSend vc (2 * clsOf t.kind) (dataCredits t)

/-- The credit of a TLP spent. -/
def Dev.spendLink (s : Dev) (p vc : Nat) (t : Tlp) : Dev :=
  let l := s.link p
  let k := if s.usesShared p vc t then 6 else 2 * clsOf t.kind
  let cr1 := if l.inf.contains k then l.cr else l.cr.put 0 (8 * vc + k) (l.credit vc k - 1)
  let cr2 := if l.inf.contains (k + 1) then cr1
    else Tbl.put 0 cr1 (8 * vc + k + 1) (l.credit vc (k + 1) - dataCredits t)
  s.setLink p { l with cr := cr2 }

/-- A TLP behind a blocked one may pass it (R130). -/
def mayPass (head t : Tlp) : Bool :=
  match clsOf head.kind, clsOf t.kind with
  | 1, 0 => true
  | 1, 2 => true
  | 1, _ => t.ro || (t.ido && t.reqId != head.reqId)
  | 0, 0 => t.ro || (t.ido && t.reqId != head.reqId)
  | 0, 2 => t.ro || (t.ido && t.cplId != head.reqId)
  | 0, _ => false
  | _, 2 => t.reqId != head.reqId || t.tag != head.tag
  | _, 0 => true
  | _, _ => false

/-- A TLP may go to port `p` while its DSP is locked (R218): a completion, or a request of the ingress that holds the lock. -/
def Dev.lockAllows (s : Dev) (p : Nat) (st : Stored) : Bool :=
  match (s.link p).lockDom with
  | none => true
  | some (_, i, m) => clsOf st.tlp.kind == 2 || (st.ingress == i && st.src == m)

/-- The TLP a queue offers on link credit: the first with credit that may pass every TLP ahead of it, each of which lacks credit (R130, R176). Where
only a lock holds the first one that has credit, nothing passes it (log 116). -/
def Dev.offerFrom (s : Dev) (p vc : Nat) (ahead : List Stored) : List Stored → Option Stored
  | [] => none
  | st :: t =>
    if s.hasCredit p vc st.tlp && ahead.all (fun h => mayPass h.tlp st.tlp) then
      (if s.lockAllows p st then some st else none)
    else s.offerFrom p vc (ahead ++ [st]) t

/-- The TLP that TCQ `q` of port `p` offers on link credit. -/
def Dev.offered (s : Dev) (p q : Nat) : Option Stored := s.offerFrom p (s.vcOf p q) [] (s.queue p q)

/-! ### Parameters; in the scheduler block's safe state every register acts with its reset value (R338) -/

/-- A field of a scheduler register as it acts. -/
def Dev.sf (s : Dev) (f : Fld) (p : Nat) (j : Nat := 0) : Nat :=
  if s.safe (70 + p / 256) then getBits f.kind.info.reset f.lo f.w else s.f f p j

/-- Bytes per turn of TCQ `q`. -/
def Dev.quantum (s : Dev) (p q : Nat) : Nat := min (max (s.sf F.PSCH_Q_DRR_QUANTUM p q) 64) 65536

/-- TLPs per turn of group `g`. -/
def Dev.pquantum (s : Dev) (p g : Nat) : Nat := max (s.sf F.PSCH_G_DRR_PQUANTUM p g) 1

/-- The cost of a TLP at TCQ `q` in bytes (R178). -/
def Dev.cost (s : Dev) (p q : Nat) (t : Tlp) : Nat := tlpLen t + s.sf F.PSCH_Q_DRR_OVH p q

/-- RATE of TCQ `q` (8 names the port) in Mb/s. -/
def Dev.rate (s : Dev) (p q : Nat) : Nat :=
  min (if q = 8 then s.sf F.PSCH_PORT_SHAPE_RATE p else s.sf ⟨.pschQShape, 0, 21⟩ p q) 2000000

/-- BURST of TCQ `q` (8 names the port) in bytes. -/
def Dev.burst (s : Dev) (p q : Nat) : Nat :=
  min (if q = 8 then s.sf F.PSCH_PORT_SHAPE_BURST p else s.sf ⟨.pschQShape, 21, 21⟩ p q) 1048576

/-- A token count in millibytes. -/
def SchedSt.tokens (x : SchedSt) (q : Nat) : Int := x.tok.look 65536000 q

/-- The token count of TCQ `q` (8 names the port) as it reads: that of a bucket with RATE 0 is its BURST (R182). -/
def Dev.tokensNow (s : Dev) (p q : Nat) : Int := if s.rate p q = 0 then (1000 * s.burst p q : Nat) else (s.sched p).tokens q

/-- The token count of TCQ `q` allows a TLP: it is at least 0, or the bucket is off (R176, R182). -/
def Dev.tokOk (s : Dev) (p q : Nat) : Bool := s.rate p q == 0 || decide (0 ≤ (s.sched p).tokens q)

/-- A cost charged to a bucket, unless it is off (R182). -/
def Dev.charge (s : Dev) (p q c : Nat) : Dev :=
  if s.rate p q = 0 then s
  else
    let x := s.sched p
    s.setSched p { x with tok := x.tok.put 65536000 q (x.tokens q - 1000 * c) }

/-! ### Gates (R183-R187) -/

/-- Entries of gate list `l`. -/
def Dev.gateLen (s : Dev) (p l : Nat) : Nat := min (max (s.f F.GATE_LEN p l) 1) 64

/-- DURATION of entry `e`, in units of 8 ns. -/
def Dev.gateDur (s : Dev) (p l e : Nat) : Nat := max (s.f F.GATE_LIST_DURATION p (64 * l + e)) 1

/-- MASK of entry `e`. -/
def Dev.gateMask (s : Dev) (p l e : Nat) : Nat := s.f F.GATE_LIST_MASK p (64 * l + e)

/-- CYCLE of list `l`, in units of 8 ns. -/
def Dev.gateCyc (s : Dev) (p l : Nat) : Nat := max (s.f F.GATE_CYCLE p l) 1

/-- Where entry `e` starts in the cycle: the sum of the durations before it. -/
def Dev.gateStart (s : Dev) (p l e : Nat) : Nat := ((List.range e).map (s.gateDur p l)).foldl (· + ·) 0

/-- The entries that a cycle reaches: those that start before the cycle's end (R183). -/
def Dev.gateUsed (s : Dev) (p l : Nat) : Nat :=
  ((List.range (s.gateLen p l)).filter (fun e => decide (s.gateStart p l e < s.gateCyc p l))).length

/-- Ticks that entry `e` runs in a cycle: the last one runs to the cycle's end, and the cycle's end cuts it short (R183). -/
def Dev.gateRun (s : Dev) (p l e : Nat) : Nat :=
  if e + 1 = s.gateUsed p l then s.gateCyc p l - s.gateStart p l e else s.gateDur p l e

/-- Ticks into the cycle at device time `ns`: cycles begin at BASE and at every whole number of cycles before and after it (R183). -/
def Dev.gateTick (s : Dev) (p l ns : Nat) : Nat :=
  ((((ns : Int) - (s.reg .gateBase p l).toNat).fdiv 8).fmod (s.gateCyc p l)).toNat

/-- The entry in force at a tick of the cycle. -/
def Dev.gateEntryAt (s : Dev) (p l t : Nat) : Nat :=
  ((List.range (s.gateUsed p l)).filter (fun e => decide (s.gateStart p l e ≤ t))).length - 1

/-- The list in force. -/
def Dev.gateList (s : Dev) (p : Nat) : Nat := s.f F.GATE_CTL_ACTIVE p

/-- Gating is in force at port `p`: enabled, its first cycle begun, the scheduler block not in its safe state. -/
def Dev.gated (s : Dev) (p : Nat) : Bool :=
  s.b F.GATE_CTL_EN p && (s.sched p).gateStarted && !s.safe (70 + p / 256)

/-- The TCQs open now, as a mask (R183, R186). -/
def Dev.openMask (s : Dev) (p : Nat) : Nat :=
  if s.gated p then s.gateMask p (s.gateList p) (s.f F.GATE_STATUS_ENTRY p) else 0xFF

/-- Ticks that the entries from `e` on keep TCQ `q` open, over at most `n` entries; all `n` open counts as open
without end. -/
def Dev.openRun (s : Dev) (p l q e : Nat) : Nat → Nat
  | 0 => 2 ^ 40
  | n + 1 =>
    if (s.gateMask p l e).testBit q then
      s.gateRun p l e + s.openRun p l q (if e + 1 < s.gateUsed p l then e + 1 else 0) n
    else 0

/-- The first start of a cycle of list `l` at or after device time `ns` (R183). -/
def Dev.gateFirst (s : Dev) (p l ns : Nat) : Nat :=
  let base : Int := (s.reg .gateBase p l).toNat
  let cyc : Int := 8 * s.gateCyc p l
  (base - (base - ns).fdiv cyc * cyc).toNat

/-- The instant at which the other list takes over, where a switch waits for it (R186). -/
def Dev.takeoverAt (s : Dev) (p : Nat) : Option Nat :=
  if s.b F.GATE_CTL_SWITCH_PEND p then some (s.gateFirst p (1 - s.gateList p) (s.sched p).swFrom) else none

/-- A run of `r` ticks that the active list keeps open, `m` ticks before the other list takes over where a switch waits, which keeps TCQ `q` open
for `o` ticks from its first entry on. -/
def runOver (r : Nat) (m : Option Nat) (o : Nat) : Nat :=
  match m with
  | some m => if r < m then r else m + o
  | none => r

/-- Ticks left of TCQ `q`'s window, the tick in progress not counted (R185); the list that is in force, the first cycle of the list that EN has
started and a list that is to take over (R186) each in its time. The tick in progress is that of device time where device time lies in the entry
in force, else the entry's first. -/
def Dev.gateLeft (s : Dev) (p q : Nat) : Nat :=
  let l := s.gateList p
  let fromStart (k : Nat) : Nat := s.openRun p k q 0 (s.gateUsed p k)
  let sw := s.takeoverAt p
  if (s.sched p).gateStarted then
    let e := s.f F.GATE_STATUS_ENTRY p
    let t := s.gateTick p l s.nowNs
    let into := if s.gateEntryAt p l t = e then t - s.gateStart p l e else 0
    let base : Int := (s.reg .gateBase p l).toNat
    let m := sw.map (fun at1 => (((at1 : Int) - base).fdiv 8 - ((s.nowNs : Int) - base).fdiv 8).toNat)
    runOver (s.openRun p l q e (s.gateUsed p l) - into) m (fromStart (1 - l)) - 1
  else
    let at0 := s.gateFirst p l (s.sched p).enAt
    match sw with
    | some at1 =>
      if at1 < at0 then ceilDiv (at1 - s.nowNs) 8 + fromStart (1 - l) - 1
      else ceilDiv (at0 - s.nowNs) 8 + runOver (fromStart l) (some ((at1 - at0) / 8)) (fromStart (1 - l)) - 1
    | none => ceilDiv (at0 - s.nowNs) 8 + fromStart l - 1

/-- The gate leaves TCQ `q` open for a TLP of cost `c` (R176, R185, R186). -/
def Dev.gateOpen (s : Dev) (p q c : Nat) : Bool :=
  if s.b F.GATE_CTL_EN p && !s.safe (70 + p / 256) then
    (s.openMask p).testBit q
      && (!s.b F.GATE_CTL_GUARD p
          || decide (ceilDiv c (max (s.f F.GATE_CTL_GUARD_BPT p) 1) ≤ s.gateLeft p q))
  else true

/-- The first cycle of the list that EN started begins once device time has reached it (R186). -/
def Dev.gateStart1 (s : Dev) (p : Nat) : Dev :=
  let x := s.sched p
  if !x.gateStarted && decide (s.gateFirst p (s.gateList p) x.enAt ≤ s.nowNs) then s.setSched p { x with gateStarted := true } else s

/-- The other list takes over once device time has reached the first start of a cycle of it that a switch may use (R186). -/
def Dev.gateTake (s : Dev) (p : Nat) : Dev :=
  let x := s.sched p
  let l := 1 - s.gateList p
  if s.b F.GATE_CTL_SWITCH_PEND p && decide (s.gateFirst p l x.swFrom ≤ s.nowNs) then
    ((s.setF F.GATE_CTL_ACTIVE l p).setB F.GATE_CTL_SWITCH_PEND false p).setSched p { x with gateStarted := true }
  else s

/-- The entry in force at device time (R183, R184). -/
def Dev.gateEntry (s : Dev) (p : Nat) : Dev :=
  if s.gated p then
    let l := s.gateList p
    s.setF F.GATE_STATUS_ENTRY (s.gateEntryAt p l (s.gateTick p l s.nowNs)) p
  else s

/-- Port `p`'s gating brought to device time. -/
def Dev.gateNow (s : Dev) (p : Nat) : Dev := if s.b F.GATE_CTL_EN p then ((s.gateStart1 p).gateTake p).gateEntry p else s

/-- The earliest device time of a switch written at `at0`: the end of the active list's current cycle, and 1 µs after the write (R186). Before
the active list's first cycle has begun there is no current cycle, and the present device time stands in its place (DESIGN CHOICE, log 135). -/
def Dev.switchFrom (s : Dev) (p at0 : Nat) : Nat :=
  max (if (s.sched p).gateStarted then s.gateFirst p (s.gateList p) (s.nowNs + 1) else s.nowNs) (at0 + 1000)

/-! ### Deficit round robin (R176-R181) -/

/-- TCQ `q` of port `p` is eligible (R176). -/
def Dev.eligible (s : Dev) (p q : Nat) : Bool :=
  match s.offered p q with
  | none => false
  | some st => s.gateOpen p q (s.cost p q st.tlp) && s.tokOk p q && s.tokOk p 8

/-- The group of a port that a Hall partition is in (R174). -/
def Dev.groupOf (s : Dev) (p hp : Nat) : Nat := s.sf ⟨.pschPgrp, 4 * (hp % 8), 3⟩ p (hp / 8)

/-- The TCQ that a TC of group `g` is bound to (R174). -/
def Dev.tcqOf (s : Dev) (p g tc : Nat) : Nat := s.sf ⟨.pschTcmap, 3 * tc, 3⟩ p g

/-- TCQ `q` becomes active in group `g` (R180): it joins the tails of the lists with a deficit of 0, and its turn begins at once
where its group's list was empty. -/
def Dev.activate (s : Dev) (p q g : Nat) : Dev :=
  let x := s.sched p
  if x.tcqs.any (fun e => e.2.contains q) then s
  else
    let l := x.tcqs.look [] g
    let x1 := { x with tcqs := x.tcqs.put [] g (l ++ [q])
                       qdef := x.qdef.put 0 q (if l.isEmpty then s.quantum p q else 0)
                       cur := if l.isEmpty then x.cur.put 0 g (q + 1) else x.cur }
    let x2 := if x1.groups.contains g then x1
      else { x1 with groups := x1.groups ++ [g], gdef := x1.gdef.put 0 g 0
                     left := if x1.round then x1.left ++ [g] else x1.left }
    s.setSched p x2

/-- A TLP linked onto its output queue, which becomes active where it is a port's (R143, R180). The queues of a half whose Floor is in its
safe state are purged, and one that comes for them later is discarded with its class's outcome (R338). -/
def Dev.link1 (s : Dev) (st : Stored) : Dev :=
  let e := st.d.egress
  let q := st.d.tcq
  if s.safe (68 + st.d.half) then s.discard st .ur
  else
    let s1 := s.setQueue e q (s.queue e q ++ [st])
    if e < 512 ∧ q < 8 then s1.activate e q (s.groupOf e st.d.hallPart) else s1

/-- Group `g` has an eligible TCQ. -/
def Dev.hasEligible (s : Dev) (p g : Nat) : Bool := ((s.sched p).tcqs.look [] g).any (fun q => s.eligible p q)

/-- The pick within a group (pick_in_group of R179): empty turns are resolved within the decision. -/
def Dev.pickInGroup (s : Dev) (p g : Nat) : Nat → Dev × Option (Nat × Stored)
  | 0 => (s, none)
  | n + 1 =>
    let x := s.sched p
    let c := x.cur.look 0 g
    let q := c - 1
    let fits : Option Stored := if c = 0 then none
      else match s.offered p q with
        | some st => if s.eligible p q && decide (s.cost p q st.tlp ≤ x.qdef.look 0 q) then some st else none
        | none => none
    match fits with
    | some st => (s.setSched p { x with qdef := x.qdef.put 0 q (x.qdef.look 0 q - s.cost p q st.tlp) }, some (q, st))
    | none =>
      let l := x.tcqs.look [] g
      let emptyQ := decide (c ≠ 0) && (s.queue p q).isEmpty
      let l1 := if c = 0 then l else if emptyQ then l.erase q else l.erase q ++ [q]
      let qd := if emptyQ then x.qdef.put 0 q 0 else x.qdef
      match l1.find? (fun k => s.eligible p k) with
      | none => (s.setSched p { x with tcqs := x.tcqs.put [] g l1, qdef := qd, cur := x.cur.put 0 g 0 }, none)
      | some k =>
        let s1 := s.setSched p { x with tcqs := x.tcqs.put [] g l1
                                        qdef := Tbl.put 0 qd k (Tbl.look 0 qd k + s.quantum p k)
                                        cur := x.cur.put 0 g (k + 1) }
        s1.pickInGroup p g n

/-- A group is empty: no TCQ of its list holds a TLP. -/
def Dev.groupEmpty (s : Dev) (p g : Nat) : Bool := ((s.sched p).tcqs.look [] g).all (fun q => (s.queue p q).isEmpty)

/-- The round ends (R179, R181): counted, and pending parameters take effect (R188). -/
def Dev.endRound (s : Dev) (p : Nat) : Dev :=
  let x := s.sched p
  let s1 := (s.setSched p { x with left := [], visiting := false, round := false }).setF F.PSCH_CTL_ROUND
    ((s.f F.PSCH_CTL_ROUND p + 1) % 65536) p
  s1.applyPending p

/-- A visit to a group ends: an emptied group leaves the list with its deficit 0. -/
def Dev.leaveGroup (s : Dev) (p g : Nat) : Dev :=
  let x := s.sched p
  if s.groupEmpty p g then
    s.setSched p { x with left := x.left.tail, visiting := false, groups := x.groups.erase g, gdef := x.gdef.put 0 g 0
                          tcqs := x.tcqs.put [] g [], cur := x.cur.put 0 g 0 }
  else s.setSched p { x with left := x.left.tail, visiting := false }

/-- With no group eligible a round under way ends at once (R181), the visit under way first. -/
def Dev.settleRound (s : Dev) (p : Nat) : Dev :=
  let x := s.sched p
  if x.round && !(x.groups.any (fun g => s.hasEligible p g)) then
    (match x.left with
      | g :: _ => if x.visiting then s.leaveGroup p g else s
      | [] => s).endRound p
  else s

/-- The group level (R179): the next TLP of the port, over at most `n` group visits. -/
def Dev.pickRound (s : Dev) (p : Nat) : Nat → Dev × Option (Nat × Stored)
  | 0 => (s, none)
  | n + 1 =>
    let x := s.sched p
    if !(x.groups.any (fun g => s.hasEligible p g)) then (s.settleRound p, none)
    else if !x.round then (s.setSched p { x with round := true, left := x.groups, visiting := false }).pickRound p n
    else
      match x.left with
      | [] => (s.endRound p).pickRound p n
      | g :: _ =>
        if !s.hasEligible p g then
          (if x.visiting then (s.leaveGroup p g).pickRound p n
           else (s.setSched p { x with left := x.left.tail }).pickRound p n)
        else
          let d := x.gdef.look 0 g + (if x.visiting then 0 else s.pquantum p g)
          if d = 0 then (s.leaveGroup p g).pickRound p n
          else
            let s1 := s.setSched p { x with visiting := true, gdef := x.gdef.put 0 g (d - 1) }
            match s1.pickInGroup p g 1200 with
            | (s2, some r) => (s2, some r)
            | (s2, none) => (s2.leaveGroup p g).pickRound p n

/-- The TLP chosen for egress from TCQ 0-7 of a port. -/
def Dev.pickPort (s : Dev) (p : Nat) : Dev × Option (Nat × Stored) := s.pickRound p 64

/-- A TCQ that has emptied leaves its group's list with a deficit of 0 (R189), and a group whose list has emptied leaves the port's with a
deficit of 0, its visit over (R179, R180). -/
def Dev.tidyQueue (s : Dev) (p q : Nat) : Dev :=
  if (s.queue p q).isEmpty then
    let x := s.sched p
    let tcqs := (x.tcqs.map (fun e => (e.1, e.2.erase q))).filter (fun e => !e.2.isEmpty)
    let stays (g : Nat) : Bool := tcqs.any (fun e => e.1 == g)
    s.setSched p { x with
      tcqs := tcqs, qdef := x.qdef.put 0 q 0, cur := x.cur.filter (fun e => decide (e.2 ≠ q + 1))
      groups := x.groups.filter stays, gdef := x.gdef.filter (fun e => stays e.1), left := x.left.filter stays
      visiting := x.visiting && (x.left.head?.map stays).getD false }
  else s

/-- Port `p`'s gating brought to device time; a round that no open TCQ is left for ends. -/
def Dev.gateDue (s : Dev) (p : Nat) : Dev := if s.b F.GATE_CTL_EN p then (s.gateNow p).settleRound p else s

/-- Device time was stepped from `old` (R187): what waits for its instant is recomputed from the new time, the time since SWITCH was written
kept. -/
def Dev.gateStep (old : Nat) (s : Dev) (p : Nat) : Dev :=
  let x := s.sched p
  let at0 := s.nowNs - (old - x.swAt)
  (s.setSched p { x with enAt := if x.gateStarted then x.enAt else s.nowNs, swAt := at0, swFrom := s.switchFrom p at0 }).gateDue p

/-- The ports whose gating registers are not at their reset values. -/
def Dev.gatePorts (s : Dev) : List Nat := s.regs.filterMap (fun e => if e.1.kind = .gateCtl then some e.1.i else none)

/-- Every port's gating brought to device time at a TCLK edge (R184). -/
def Dev.gatesNow (s : Dev) : Dev := s.gatePorts.foldl Dev.gateDue s

/-- Every port's gating after a step of device time (R187). -/
def Dev.gatesStep (s : Dev) (old : Nat) : Dev := s.gatePorts.foldl (Dev.gateStep old) s

end Sys2Proof.Machine
end

