-- ==== Sys2Proof/Machine/Lookup.lean ====
section
/-! DEFINITION. The lookup cycle: resolution by request type (R113), the checks of R114 and R121, the Pitch check
(R244-R249), the Hall route and the flow hash (R120, R131), and what ACTION 1 and 3 count and report (R115). -/

namespace Sys2Proof.Machine

/-- What a TLP resolves to (R113): ACTION, whether it goes upstream, virtual DSP, member and DEST (0-511 port, 512 and 513
the PFs; R111), Pitch index, PREFETCH of the window; the AER bit that a refusal reports, whether it is
silent (R338), and whether only a read-ahead would get it (R305). -/
structure Res where
  act : Nat := 0
  up : Bool := false
  v : Option Nat := none
  member : Nat := 0
  dest : Nat := 1023
  pitch : Option Nat := none
  prefetch : Option Bool := none
  bit : Nat := 20
  silent : Bool := false
  ahead : Bool := false
  deriving DecidableEq, Repr

/-- ACTION of a TLP that is refused: 1 for a non-posted request, 3 for a posted one or a completion. -/
def refuseAct (t : Tlp) : Nat := if clsOf t.kind = 1 then 1 else 3

/-- A refusal, reported as AER bit `bit`. -/
def refusal (t : Tlp) (bit : Nat) : Res := { act := refuseAct t, bit := bit }

/-- The bit of a TLP without a route (R115): a completion is an Unexpected Completion. -/
def noRouteBit (t : Tlp) : Nat := if t.kind = .cpl then AER.unexpectedCompletion else AER.unsupportedRequest

/-- No route (R113). -/
def noRoute (t : Tlp) : Res := refusal t (noRouteBit t)

/-- Entry of the virtual DSP map. -/
def Dev.vdsp (s : Dev) (q v : Nat) : Word := s.ac .vdsp q v

/-- To virtual DSP `v` of partition `q` by the virtual DSP map. -/
def Dev.toVdsp (s : Dev) (q v : Nat) (t : Tlp) : Res :=
  let e := s.vdsp q v
  let dest := getBits e 5 10
  if getBits e 0 1 = 0 ∨ 514 ≤ dest then noRoute t
  else { v := some v, member := getBits e 1 4, dest := dest, pitch := some (getBits e 1 4 * 256 + getBits e 15 8) }

/-- Upstream, to the partition's USP (R113, R245). -/
def Dev.toUsp (s : Dev) (q : Nat) : Res :=
  let m := s.f F.PART_CTL_USP_MEMBER q
  { up := true, member := m, dest := s.f F.PART_CTL_USP_PORT q, pitch := some (m * 256 + getBits (s.ac .pidx q) 0 8) }

/-- The valid windows of partition `q` that hold an address (R118). -/
def Dev.windowsAt (s : Dev) (q page : Nat) : List Nat :=
  (List.range 64).filter (fun w =>
    let a := s.ac .win q (4 * w)
    getBits a 0 1 == 1 && decide (getBits a 12 52 ≤ page) && decide (page ≤ getBits (s.ac .win q (4 * w + 1)) 12 52))

/-- The ingress is the partition's USP on this device. -/
def Dev.isUsp (s : Dev) (i : Nat) : Bool := decide (i < 512) && s.role i == 1

/-- A memory request, or a message routed by address (R113). A window whose target is the ingress port itself refuses it. -/
def Dev.resolveMem (s : Dev) (i q : Nat) (t : Tlp) : Except Fault Res :=
  match s.windowsAt q (t.addr.toNat / 4096) with
  | [] => .ok (if s.isUsp i then noRoute t else s.toUsp q)
  | [w] =>
    let k := s.ac .win q (4 * w + 2)
    let r := if getBits k 0 1 = 0 then s.toUsp q else s.toVdsp q (getBits k 1 8) t
    if r.act = 0 ∧ r.member = s.me ∧ r.dest = i then .ok { noRoute t with member := r.member, dest := r.dest }
    else .ok { r with prefetch := some (getBits (s.ac .win q (4 * w)) 1 1 == 1) }
  | _ => .error .twoWindows

/-- The virtual DSP whose committed I/O range holds an address, the lowest if there are several (R113). -/
def Dev.ioDsp (s : Dev) (q a : Nat) : Option Nat :=
  (List.range 256).find? (fun v =>
    let x := s.ac .io q v
    x.getLsbD 63 && decide (getBits x 0 20 ≤ a) && decide (a ≤ getBits x 20 20))

/-- KIND of the bus map entry of a bus (3 acts as 0), and its VNUM. -/
def Dev.busKind (s : Dev) (q bus : Nat) : Nat × Nat :=
  let e := s.ac .bus q bus
  (if getBits e 8 2 = 3 then 0 else getBits e 8 2, getBits e 0 8)

/-- An enabled DSP of partition `q` has virtual number `v` (R113): on this device, or, by the committed map, on another member. -/
def Dev.dspThere (s : Dev) (q v : Nat) : Bool :=
  (v == 254 && s.b F.SVC_CTL_MGMT_EN && s.f F.SVC_CTL_MGMT_PART == q)
    || (v == 255 && s.b F.SVC_CTL_PORTER_EN && s.f F.SVC_CTL_PORTER_PART == q)
    || (decide (v < 254) && (s.dspsOf q).any (fun p => s.f F.PORT_CTL_VNUM p == v))
    || (s.b F.HALL_CTL_EN && getBits (s.vdsp q v) 0 1 == 1 && getBits (s.vdsp q v) 1 4 != s.me)

/-- By the bus map entry of an ID's bus (R113). -/
def Dev.resolveId (s : Dev) (i q : Nat) (id : BitVec 16) (t : Tlp) : Res :=
  match s.busKind q (busOf id) with
  | (1, v) => s.toVdsp q v t
  | (2, _) => if s.dspThere q (devFn id) then { act := 4, v := some (devFn id) } else noRoute t
  | _ => if s.isUsp i then noRoute t else s.toUsp q

/-- A Type 1 configuration request (R113). Below a service DSP it is consumed where the service function is (R79). -/
def Dev.resolveCfg1 (s : Dev) (q : Nat) (t : Tlp) : Res :=
  match s.busKind q (busOf t.destId) with
  | (1, v) =>
    let r := s.toVdsp q v t
    if (v = 254 ∨ v = 255) ∧ r.act = 0 ∧ r.member = s.me then { r with act := 4 } else r
  | (2, _) => { act := 4, v := some (devFn t.destId) }
  | _ => refusal t AER.unsupportedRequest

/-- An INTx Assert or Deassert message (R221, PCI Express Base 7.0): a DSP consumes it and sends it upstream (log 25). -/
def isIntx (t : Tlp) : Bool := t.kind == .msg && decide (0x20 ≤ t.msgCode.toNat) && decide (t.msgCode.toNat ≤ 0x27)

/-- The first matching row of R113 for TLP `t` that arrives at ingress `i` (512 + n names Porter `n`, 1023 the
management PF) of partition `q`. -/
def Dev.resolve (s : Dev) (i q : Nat) (t : Tlp) : Except Fault Res :=
  if i = 1023 then .ok (s.toUsp q)
  else
    match t.kind with
    | .mrd | .mrdlk | .mwr | .dmwr | .fetchAdd | .swap | .cas => s.resolveMem i q t
    | .xlatReq | .pageReq => .ok (s.toUsp q)
    | .iord | .iowr =>
      .ok (match s.ioDsp q t.addr.toNat with
        | some v => s.toVdsp q v t
        | none => if decide (i < 512) && s.role i == 0 then s.toUsp q else noRoute t)
    | .cfgrd0 | .cfgwr0 => .ok (if s.isUsp i then { act := 4 } else refusal t AER.unsupportedRequest)
    | .cfgrd1 | .cfgwr1 => .ok (s.resolveCfg1 q t)
    | .cpl => .ok (s.resolveId i q t.reqId t)
    | .msg =>
      match t.route with
      | .toRoot => .ok (if s.isUsp i then noRoute t else s.toUsp q)
      | .broadcast => .ok (if s.isUsp i then { act := 5 } else refusal t AER.unsupportedRequest)
      | .byId => .ok (s.resolveId i q t.destId t)
      | .byAddr => s.resolveMem i q t
      | .terminate => .ok { act := 4 }
    | .otherNp | .otherP => .ok (noRoute t)

/-- Address inside the USP's committed windows of its kind, with the kind's enable set (R121 item 1). -/
def Dev.uspAllows (s : Dev) (q : Nat) (t : Tlp) : Bool :=
  let a := t.addr.toNat
  let e := s.ac .ena q 256
  match t.kind with
  | .iord | .iowr =>
    let x := s.ac .uspIo q
    e.getLsbD 0 && x.getLsbD 63 && decide (getBits x 0 20 ≤ a) && decide (a ≤ getBits x 20 20)
  | _ =>
    e.getLsbD 1 &&
      ((decide ((s.ac .uspMem q 0).toNat ≤ a) && decide (a ≤ (s.ac .uspMem q 1).toNat))
        || (decide ((s.ac .uspPref q 0).toNat ≤ a) && decide (a ≤ (s.ac .uspPref q 1).toNat)))

/-- The refusals of R121: the USP's windows, the ingress's Bus Master Enable, the USP's Bus Master Enable. -/
def Dev.bridgeRefuses (s : Dev) (i q : Nat) (t : Tlp) (r : Res) : Bool :=
  let mem := isMemReq t.kind || t.kind == .iord || t.kind == .iowr
  if clsOf t.kind = 2 ∨ i = 1023 then false
  else
    (s.isUsp i && mem && !s.uspAllows q t)
      || (decide (i < 512) && s.role i == 0 && !(s.ac .ena q (s.f F.PORT_CTL_VNUM i)).getLsbD 2)
      || (decide (512 ≤ i) && !(s.ac .ena q 255).getLsbD 2)
      || (r.up && !(s.ac .ena q 256).getLsbD 2)

/-- The buses below virtual DSP `v` of partition `q` in the committed bus map, ascending: its secondary bus first. -/
def Dev.busesBelow (s : Dev) (q v : Nat) : List Nat := (List.range 256).filter (fun b => s.busKind q b == (1, v))

/-- ACS Control bit `k` of a DSP (PCI Express Base 7.0, log 13). -/
def Dev.acs (s : Dev) (p k : Nat) : Bool := s.cfBit (portFn p) 0x2E4 (16 + k)

/-- The ACS checks of a DSP ingress (R114 item 1): Source Validation and Translation Blocking refuse, a non-posted request with Completer Abort
(PCI Express Base 7.0); the redirects and Upstream Forwarding, for what would go back by its own port, send the TLP upstream, save a Direct
Translated P2P request. Each overrides the resolution, no route too. -/
def Dev.acsCheck (s : Dev) (i q : Nat) (t : Tlp) (r : Res) : Res :=
  if !(decide (i < 512) && s.role i == 0) then r
  else
    let bus := busOf t.reqId
    let sv := s.acs i 0 && clsOf t.kind != 2 &&
      s.busKind q bus != (1, s.f F.PORT_CTL_VNUM i)
    let tb := s.acs i 1 && isMemReq t.kind && t.atype != 0
    let peer := r.act == 0 && !r.up
    let rr := s.acs i 2 && peer && clsOf t.kind != 2 && !(s.acs i 6 && t.atype == 2)
    let cr := s.acs i 3 && peer && t.kind == .cpl && !t.ro
    let uf := s.acs i 4 && !r.up && r.member == s.me && r.dest == i
    if sv || tb then { refusal t AER.acsViolation with act := if clsOf t.kind = 1 then 2 else 3 }
    else if rr || cr || uf then s.toUsp q
    else r

/-- Max Payload Size in bytes of a function's Device Control. -/
def Dev.mps (s : Dev) (f : Fn) : Nat := 128 * 2 ^ min (s.cfNum f 0x58 5 3) 5

/-- Max Payload Size that a resolution's destination accepts (R114 item 2). For a destination on another member it is the destination
partition's (R220): its USP's where that is on this device; else the destination member makes the check when the TLP arrives there, for only it
knows the value (log 17). -/
def Dev.mpsOf (s : Dev) (q : Nat) (r : Res) : Nat :=
  if r.member ≠ s.me then
    let p := s.f F.PART_CTL_USP_PORT q
    if s.f F.PART_CTL_USP_MEMBER q = s.me ∧ s.b F.PORT_CTL_EN p = true then s.mps (portFn p) else 4096
  else if r.dest < 512 then s.mps (portFn r.dest)
  else if r.dest = 512 then s.mps .mgmtPf
  else s.mps .porterPf

/-! ### Pitch (R244-R249) -/

/-- RTYPE of a request (R247). -/
def rtype (t : Tlp) : Nat :=
  match t.kind with
  | .mrd => if t.atype = 1 then 9 else 0
  | .mwr | .dmwr => 1
  | .fetchAdd | .swap | .cas => 2
  | .mrdlk => 3
  | .iord => 4
  | .iowr => 5
  | .cfgrd0 | .cfgrd1 => 6
  | .cfgwr0 | .cfgwr1 => 7
  | .msg => if t.route = .toRoot ∨ t.route = .byId ∨ t.route = .byAddr then 8 else 10
  | .pageReq => 8
  | .xlatReq => 9
  | _ => 10

/-- The bit of a Pitch that a request type needs (R247). -/
def needBit (rt : Nat) : Option Nat :=
  match rt with
  | 0 | 9 => some 1
  | 1 => some 2
  | 2 => some 3
  | 3 => some 4
  | 4 | 5 => some 5
  | 6 | 7 => some 6
  | 8 => some 7
  | _ => none

/-- AT of a request; only memory requests, AtomicOps and Translation Requests have the field (R247). -/
def atOf (t : Tlp) : BitVec 2 := if isMemReq t.kind || t.kind == .xlatReq then t.atype else 0

/-- A Pitch or default map word allows a request (R247). -/
def pitchAllows (p : Word) (t : Tlp) : Bool :=
  match needBit (rtype t) with
  | none => false
  | some b => p.getLsbD b && atOf t != 3 && (atOf t != 2 || p.getLsbD 8)

/-- A request is privileged: it carries PASID with PMR (R248). -/
def privileged (t : Tlp) : Bool := t.pasid.isSome && t.pmr

/-- The verdict of checker `c` on a request with Pitch index `k` of partition `q` (R248): the verdict, and CAUSE where it is 2. -/
def Dev.verdict (s : Dev) (c q k : Nat) (t : Tlp) : Nat × Nat :=
  if !s.b F.PITCH_CHK_CHECK_EN c then (0, 0)
  else if s.outOf (76 + ingHalf c) then (2, 0)
  else
    let p := s.reg .pitch (s.f F.PITCH_CHK_TABLE c) k
    if p.getLsbD 0 then
      if !pitchAllows p t then (2, 1) else if p.getLsbD 9 && !privileged t then (2, 3) else (0, 0)
    else if !privileged t then (2, 0)
    else
      let d := s.reg .partDefmap q
      if d.getLsbD 0 && pitchAllows d t then (1, 0) else (2, 2)

/-- Dword `k` of the header log that TLP `t` leaves (R115): its header bytes as received, behind a PASID prefix outside Flit mode, byte 0 in bits
31:24 (PRESUMED, log 18); a free value where the header has no such dword. -/
def Dev.logDword (s : Dev) (f : Fn) (t : Tlp) (k : Nat) : BitVec 32 :=
  let flit := match f with
    | .port p => s.b F.PORT_STATUS_FLIT p
    | _ => true
  match t.head.drop (4 * k + (if t.pasid.isSome && !flit then 4 else 0)) with
  | a :: b :: c :: d :: _ => a ++ b ++ c ++ d
  | _ => (Config.freeBits (s.free + k)).truncate 32

/-- An error reported in the AER of a function (R115, R249): the header log takes the header of the first one. -/
def Dev.aerHdr (s : Dev) (f : Fn) (bit : Nat) (t : Tlp) : Dev :=
  if s.cf f 0x104 = 0 then
    let v (k : Nat) : BitVec 32 := s.logDword f t k
    ((((((s.setCf f 0x118 (BitVec.ofNat 32 bit)).setCf f 0x11C (v 0)).setCf f 0x120 (v 1)).setCf f 0x124 (v 2)).setCf f
      0x128 (v 3)).useFree 4).aerU f bit
  else s.aerU f bit

/-- What a Pitch fault records beside the refusal (R249). LABEL is that of the Pitch stored, if it is VALID, also where a safe checker or an
uncorrectable word gave the verdict (DESIGN CHOICE, log 138). -/
def Dev.pitchFault (s : Dev) (c k cause : Nat) (t : Tlp) : Dev :=
  let s1 := (s.inc .pitchFaultCnt 1 c).setB F.PITCH_CHK_FAULT true c
  let s2 :=
    if s1.b F.PITCH_FAULT_LOG_VALID then s1
    else
      let p := s.reg .pitch (s.f F.PITCH_CHK_TABLE c) k
      let label := if p.getLsbD 0 then getBits p 16 8 else 0
      (((((((s1.setF F.PITCH_FAULT_LOG_CHECKER c).setF F.PITCH_FAULT_LOG_INDEX k).setF F.PITCH_FAULT_LOG_RTYPE (rtype t)).setB
        F.PITCH_FAULT_LOG_PMR (privileged t)).setF F.PITCH_FAULT_LOG_CAUSE cause).setB F.PITCH_FAULT_LOG_POSTED
          (clsOf t.kind == 0)).setF F.PITCH_FAULT_LOG_LABEL label).setB F.PITCH_FAULT_LOG_VALID true
  if c < 512 then s2.aerHdr (portFn c) (if s.role c = 0 then AER.acsViolation else AER.unsupportedRequest) t else s2

/-! ### Routes and the flow hash (R120, R131-R134, R208, R210) -/

/-- The bucket of a TLP (R131). The key of a management PF request names checker 1,023 (DESIGN CHOICE, log 114). -/
def Dev.bucketOf (s : Dev) (i q dst : Nat) (t : Tlp) : Nat :=
  let id : BitVec 16 := if t.ido then (if t.kind = .cpl then t.cplId else t.reqId) else 0
  let b01 := i + 1024 * s.me
  let key := leBytes b01 2 ++ leBytes (dst + 16 * t.tc.val) 1 ++ [0] ++ leBytes id.toNat 2 ++ leBytes (s.hallPart q) 2
  let c := (crcBytes (BitVec.ofNat 32 (s.f F.HASH_SEED_SEED)) key ^^^ 0xFFFFFFFF).toNat
  (c % 4096) ^^^ (c / 4096 % 4096) ^^^ (c / 16777216)

/-- An 8-byte word of the Hall route that a bucket uses (R134). -/
def Dev.routeWord (s : Dev) (b m j : Nat) : Word :=
  if s.b F.BUCKET_OLD_LIST b then Store.get (fun _ => 0) s.fwd.oldRoute ⟨.route, m, j⟩ else s.ac .route m j

/-- COUNT of member `m`'s entry; 0 in a Hall of one (R192). -/
def Dev.routeCount (s : Dev) (b m : Nat) : Nat :=
  if s.b F.HALL_CTL_EN then min (getBits (s.routeWord b m 0) 0 5) 16 else 0

/-- PORT_i of member `m`'s entry. -/
def Dev.routePort (s : Dev) (b m i : Nat) : Nat := getBits (s.routeWord b m ((2 + 2 * i) / 8)) ((2 + 2 * i) % 8 * 8) 9


/-- A lookup of bucket `b` may choose fabric port `p` (R210). -/
def Dev.selectable (s : Dev) (p b : Nat) : Bool := !(s.nerupOf p).failed && !(s.nerupOf p).hold.contains b

/-- The first of `n` ports of a list that a TLP may take: the k-th, or the next ACTIVE one (R208). -/
def Dev.pickLink (s : Dev) (b n k : Nat) (port : Nat → Nat) : Option Nat :=
  if n = 0 then none
  else if s.selectable (port (k % n)) b then some (port (k % n))
  else ((List.range n).map (fun j => port ((k + 1 + j) % n))).find? (fun p => s.nstate p == 5 && s.selectable p b)

/-- The fabric port toward member `m` for bucket `b` (R120). -/
def Dev.pickFabric (s : Dev) (m b : Nat) : Option Nat :=
  s.pickLink b (s.routeCount b m) (s.f F.BUCKET_EFF_PATH b) (s.routePort b m)

/-! ### Twin copies (R226, R228-R231) -/

/-- The Twin Hall operates. -/
def Dev.twinOn (s : Dev) : Bool := s.b F.TWIN_CTL_EN && s.b F.HALL_CTL_EN

/-- Twin ports in use. -/
def Dev.twinCount (s : Dev) : Nat := min (s.f F.TWIN_ROUTE_COUNT) 4

/-- PORT_k of TWIN_ROUTE. -/
def Dev.twinPort (s : Dev) (k : Nat) : Nat := getBits (s.reg .twinRoute) (3 + 9 * k) 9

/-- The twin ports. -/
def Dev.twinPorts (s : Dev) : List Nat := (List.range s.twinCount).map s.twinPort

/-- The bytes of the active TWIN_PART and their CRC-32C (R229). -/
def Dev.twinCrc (s : Dev) : Nat :=
  (crc32c ((List.range 128).flatMap (fun k => leBytes (s.ac .twinPart k).toNat 4))).toNat

/-- The last TWIN_CHECK received on a twin port differs from this device's value (R229). -/
def Dev.twinDiffers (s : Dev) (p : Nat) : Bool :=
  match (s.nerupOf p).crc with
  | some c => c != s.twinCrc
  | none => false

/-- PROTECTED and HOME of a Hall partition in the active TWIN_PART (R228). -/
def Dev.twinPart (s : Dev) (hp : Nat) : Bool × Nat :=
  let v := getBits (s.ac .twinPart (hp / 8)) (4 * (hp % 8)) 2
  (v % 2 == 1, v / 2)

/-- The TLP is protected (R230): bound here, at ingress `i`, for another member, its partition protected with its home in this Hall. Requests of the
management PF are not. -/
def Dev.isProtected (s : Dev) (i hp dst : Nat) : Bool :=
  let (on, home) := s.twinPart hp
  s.twinOn && i != 1023 && dst != s.me && on && home == s.f F.TWIN_CTL_SIDE

/-- The twin port that carries a bucket's twin copies (R231): one of TWIN_ROUTE that is not FAILED and whose TWIN_CHECK agrees; none while no
twin port is ACTIVE (R242). -/
def Dev.twinPath (s : Dev) (b : Nat) : Option Nat :=
  if s.twinPorts.any (fun p => s.nstate p == 5) then
    match s.pickLink b s.twinCount (s.f F.BUCKET_EFF_PATH b) s.twinPort with
    | some p => if s.b F.PORT_CTL_EN p && !s.twinDiffers p then some p else none
    | none => none
  else none

/-- The twin port by which a transit copy leaves its last member (R233, R234): PORT_k, else the next ACTIVE one (DEDUCED, log 127); none that
disagrees (R229). -/
def Dev.lastTwinLink (s : Dev) (b : Nat) : Option Nat :=
  (((List.range s.twinCount).map (fun j => s.twinPort ((s.f F.BUCKET_EFF_PATH b + j) % s.twinCount))).find? (fun p => s.nstate p == 5)).filter
    (fun p => !s.twinDiffers p)

/-- Both Aisle ends are ON, out of reset and out of their safe states (R338, R378). -/
def Dev.aisleOk (s : Dev) : Bool :=
  [204, 205].all (fun d => s.f F.DOMAIN_STATE_POWER d == 2 && !s.b F.DOMAIN_STATE_IN_RESET d) && !s.safe 72 && !s.safe 73

/-- The half of an ingress. -/
def Dev.ingressHalf (s : Dev) (i : Nat) : Nat := if i < 576 then ingHalf i else s.ic

/-- The clocks of an Aisle end are stopped: what would cross waits in the Aisle's buffers (R376). -/
def Dev.aisleStopped (s : Dev) : Bool := s.b F.DOMAIN_STATE_CLK_STOPPED 204 || s.b F.DOMAIN_STATE_CLK_STOPPED 205

/-- The buffer of the Aisle that a TLP takes (R12): its direction and its class. -/
def Dev.aisleNo (s : Dev) (st : Stored) : Nat := 3 * s.ingressHalf st.ingress + clsOf st.tlp.kind

/-- A TLP crosses the Aisle (R13). -/
def Dev.crosses (s : Dev) (st : Stored) : Bool := s.ingressHalf st.ingress != st.d.half

/-- A TLP waits in the Aisle's buffers: its clocks are stopped, or one of its direction and class waits already. -/
def Dev.aisleWaits (s : Dev) (st : Stored) : Bool := s.crosses st && (s.aisleStopped || !(s.aisle.look [] (s.aisleNo st)).isEmpty)

/-- TLPs that wait in buffer `k` of the Aisle, and behind it. -/
def Dev.aisleLen (s : Dev) (k : Nat) : Nat := (s.aisle.look [] k).length

/-- What a TLP makes of the state, `t`, keeps to the Aisle's credit pools (R12). -/
def Dev.aisleKeeps (s t : Dev) : Bool :=
  (List.range 6).all (fun k => decide (t.aisleLen k ≤ s.aisleLen k) || decide (t.aisleLen k ≤ Config.aisleDepth (k / 3) (k % 3)))

/-- What a TLP from outside makes of the state, `t`, where it keeps to the Aisle's credit pools (R12, R14): otherwise it waits where it came
from, with every copy of it. A completion that the device forms and a held copy wait bound, in order behind their buffer. -/
def Dev.ifAisle (s t : Dev) : Dev := if s.aisleKeeps t then t else s

/-- The TCQ bound at an egress point (R174). -/
def Dev.bindTcq (s : Dev) (e hp : Nat) (t : Tlp) : Nat :=
  if e < 512 then s.tcqOf e (s.groupOf e hp) t.tc.val else t.tc.val

/-- VC of a TCQ at an egress point. -/
def Dev.bindVc (s : Dev) (e q : Nat) : Nat := if e < 512 then s.vcOf e q else 0

/-- The egress cannot be reached: its half's Floor is in its safe state, or the Aisle is needed and not ready. -/
def Dev.unreachable (s : Dev) (i e : Nat) : Bool :=
  s.safe (68 + egHalf s.ic e) || (s.ingressHalf i != egHalf s.ic e && !s.aisleOk)

/-- The decision of a TLP with ACTION 0 on its way to egress point `e` (R111). -/
def Dev.bindTo (s : Dev) (i q e b v : Nat) (r : Res) (t : Tlp) : Decision :=
  let hp := s.hallPart q
  let tcq := s.bindTcq e hp t
  { egress := e, half := egHalf s.ic e, tcq := tcq, vc := s.bindVc e tcq, dstMember := r.member, dest := r.dest, bucket := b
    verdict := v, part := q, hallPart := hp, gen := s.f F.PORT_STATUS_GEN e
    ledger := if r.up && (t.kind == .mwr || t.kind == .dmwr || t.kind == .fetchAdd || t.kind == .swap || t.kind == .cas)
      then s.trackedBy i t.reqId else none }

/-- The decision of a refused TLP. -/
def Dev.bindRefused (s : Dev) (q v : Nat) (act : Nat) : Decision :=
  { egress := 1023, verdict := v, part := q, hallPart := s.hallPart q, action := act }

/-- The egress of a resolution with ACTION 0 (R114 item 4, R120, R231, R347): the port or function, for a completion to the Porter PF the
Porter that its tag names (R273), or a fabric port, which is a twin
port where only the twin copy can be sent (R231); or the ACTION and AER bit of its refusal. -/
def Dev.egressOf (s : Dev) (i b hp : Nat) (r : Res) (t : Tlp) : Except Res Nat :=
  if r.member = s.me then
    if 514 ≤ r.dest ∨ (r.dest < 512 ∧ s.b F.PORT_CTL_EN r.dest = false) then .error (noRoute t)
    else if r.dest < 512 ∧ (s.link r.dest).dpc = true then
      .error { noRoute t with act := if refuseAct t = 1 ∧ s.cfBit (portFn r.dest) 0x2F4 18 = true then 2 else refuseAct t }
    else if r.dest = i ∧ i < 512 then .error (noRoute t)
    else
      let e := if r.dest = 513 ∧ t.kind = .cpl then 514 + t.tag.toNat / 256 else r.dest
      if s.unreachable i e then .error { noRoute t with silent := true } else .ok e
  else
    let reach (p : Nat) : Bool := s.b F.PORT_CTL_EN p && !s.unreachable i p
    let main := s.pickFabric r.member b
    let twin := if s.isProtected i hp r.member && s.twin.resetWait.isEmpty then s.twinPath b else none
    match (main.filter reach).or (twin.filter reach) with
    | some p => .ok p
    | none => .error { noRoute t with silent := main.any (fun p => s.b F.PORT_CTL_EN p) }

/-- What a refusal counts and reports at its ingress (R115, R338). -/
def Dev.countRefused (s : Dev) (i : Nat) (r : Res) (t : Tlp) : Dev :=
  let s1 := if r.act = 1 then s.inc .fwdUrNp else if r.act = 3 then s.inc .fwdDropP else s
  if i < 512 ∧ r.silent = false then s1.aerHdr (portFn i) r.bit t else s1

/-- Whether a lookup of TLP `t` of partition `q`, of bucket hash apart, reads word `r` of the active sets: `x` is its resolution. -/
def Dev.readsWord (s : Dev) (q : Nat) (t : Tlp) (x : Res) (r : TblId) : Bool :=
  let byAddr := isMemReq t.kind || (decide (t.kind = .msg) && decide (t.route = .byAddr))
  let io := decide (t.kind = .iord ∨ t.kind = .iowr)
  match r.kind with
  | .win | .uspMem | .uspPref => r.i == q && byAddr
  | .io | .uspIo => r.i == q && io
  | .bus | .buses => r.i == q && !byAddr && !io
  | .vdsp | .pidx | .ena => r.i == q
  | .route => s.b F.HALL_CTL_EN && x.member != s.me && r.i == x.member
  | .twinPart => s.b F.TWIN_CTL_EN && r.j == s.hallPart q / 8
  | .tree | .lockdom => false

/-- The word with an uncorrectable error that a lookup reads (R342). -/
def Dev.badFwd (s : Dev) (i q : Nat) (t : Tlp) : Option BadWord :=
  match s.resolve i q t with
  | .ok x => s.badWord (66 + s.ingressHalf i) (fun w => match w with
      | .fwd r => s.readsWord q t x r
      | _ => false)
  | .error _ => none

/-- The Pitch or default map word with an uncorrectable error that checker `c` reads (R342). -/
def Dev.badPitch (s : Dev) (c q k : Nat) (t : Tlp) : Option BadWord :=
  if s.b F.PITCH_CHK_CHECK_EN c then
    let e : RegId := ⟨.pitch, s.f F.PITCH_CHK_TABLE c, k⟩
    s.badWord (76 + ingHalf c) (fun w => match w with
      | .pitch r => decide (r = e) || (decide (r = ⟨.partDefmap, q, 0⟩) && !(s.reg .pitch e.i e.j).getLsbD 0 && privileged t)
      | _ => false)
  else none

/-- The verdict of checker `c`; a word that reads with an uncorrectable error gives verdict 2 with CAUSE 0 (R248, R342). -/
def Dev.verdictAt (s : Dev) (c q k : Nat) (t : Tlp) : Nat × Nat :=
  if (s.badPitch c q k t).isSome then (2, 0) else s.verdict c q k t

/-- The lookup cycle of a TLP at ingress `i` of partition `q`; `ahead` marks a Porter's read-ahead (R305), `own` a message of the ingress
function itself, to which its ACS controls do not apply. The refusals of R121 are made before the Pitch check, as R114 item 2 is (DESIGN CHOICE,
log 137). A resolution to be consumed on this device (ACTION 4 and 5) comes back for the caller. -/
def Dev.lookupIn (s : Dev) (i q : Nat) (t : Tlp) (ahead : Bool) (hostRa : Bool) (own : Bool := false) : Except Fault (Dev × Decision × Res) := do
  if s.outOf (66 + s.ingressHalf i) then
    let r : Res := { refusal t 20 with silent := true }
    return (s.countRefused i r t, s.bindRefused q 0 r.act, r)
  else
    let r0 ← s.resolve i q t
    let r1 := if own then r0 else s.acsCheck i q t r0
    let r2 := if (r1.act = 0 ∨ r1.act = 4 ∨ r1.act = 5) ∧ s.bridgeRefuses i q t r1 = true
      then refusal t AER.unsupportedRequest else r1
    let r3 := if r2.act = 0 ∧ s.mpsOf q r2 < t.payload.length then
        { refusal t (noRouteBit t) with bit := noRouteBit t } else r2
    let r4 := if ahead && r3.act == 0 && ((r3.up && !hostRa) || r3.prefetch == some false) then
      { refusal t 20 with ahead := true } else r3
    let checked := (r4.act = 0 ∨ r4.act = 4) ∧ clsOf t.kind ≠ 2 ∧ i < 576
    let (v, cause) := match r4.pitch with
      | some k => if checked then s.verdictAt i q k t else (0, 0)
      | none => (0, 0)
    if v = 2 then
      let k := r4.pitch.getD 0
      let s0 := match s.badPitch i q k t with
        | some w => (s.badFound (76 + ingHalf i) w).uspInternal q
        | none => s
      let s1 := s0.pitchFault i k cause t
      let act := refuseAct t
      let s2 := if act = 1 then s1.inc .fwdUrNp else s1.inc .fwdDropP
      return (s2, s.bindRefused q 2 act, { act := act })
    else if r4.act = 0 then
      let b := s.bucketOf i q r4.member t
      match s.egressOf i b (s.hallPart q) r4 t with
      | .ok e =>
        let d := s.bindTo i q e b v r4 t
        let s1 := match d.ledger with
          | some c =>
            let n := if t.kind = .cas then t.payload.length / 2 else t.payload.length
            s.markRequest (s.ingressHalf i) c t.addr.toNat n
          | none => s
        return (s1, d, r4)
      | .error r => return (s.countRefused i r t, s.bindRefused q v r.act, r)
    else
      return (if 1 ≤ r4.act ∧ r4.act ≤ 3 then s.countRefused i r4 t else s, s.bindRefused q v r4.act, r4)

/-- The lookup cycle. A TLP that reads a forwarding word with an uncorrectable error is bound with ACTION 1 or 3, and the word is
rewritten from the copy in the other half (R342). -/
def Dev.lookup (s : Dev) (i q : Nat) (t : Tlp) (ahead : Bool) (hostRa : Bool) (own : Bool := false) : Except Fault (Dev × Decision × Res) :=
  match s.badFwd i q t with
  | some w =>
    let r : Res := { refusal t 20 with silent := true }
    let s1 := (s.badFound (66 + s.ingressHalf i) w).uspInternal q
    .ok (s1.countRefused i r t, s1.bindRefused q 0 r.act, r)
  | none => s.lookupIn i q t ahead hostRa own

end Sys2Proof.Machine
end

