-- ==== Sys2Proof/Machine/FwdOps.lean ====
section
/-! DEFINITION. The forwarding tables: what the controller derives from the virtual bridges (R121-R123), WIN_COMMIT
(R124, R125), the buckets' repin rule (R133, R134), the fences (R136). -/

namespace Sys2Proof.Machine

/-! ### What the bridges say (R121) -/

/-- The bytes that byte enables name, as a mask. -/
def beMask (be : BitVec 4) : BitVec 32 :=
  (List.range 4).foldl (fun m k => if be.getLsbD k then m ||| (0xFF <<< (8 * k)) else m) 0

/-- The function whose registers are the bridge of virtual DSP `v` of partition `q`: the port's, a service DSP's, or this member's
copy where the virtual DSP map places the DSP on another member. -/
def Dev.bridgeOf (s : Dev) (q v : Nat) : Option Fn :=
  let here : Option Fn :=
    if v = 254 then (if s.b F.SVC_CTL_MGMT_EN && s.f F.SVC_CTL_MGMT_PART == q then some (.svc 254) else none)
    else if v = 255 then (if s.b F.SVC_CTL_PORTER_EN && s.f F.SVC_CTL_PORTER_PART == q then some (.svc 255) else none)
    else ((s.dspsOf q).find? (fun p => s.f F.PORT_CTL_VNUM p == v)).map portFn
  match here with
  | some f => some f
  | none =>
    let e := s.sh .vdsp q v
    if s.b F.HALL_CTL_EN && getBits e 0 1 == 1 && getBits e 1 4 != s.me then some (.remote q v) else none

/-- The USP's bridge of partition `q`: on this device, or this member's copy of one on another member. -/
def Dev.uspBridge (s : Dev) (q : Nat) : Option Fn :=
  match s.uspFn q with
  | some f => some f
  | none => if s.b F.HALL_CTL_EN && s.f F.PART_CTL_USP_MEMBER q != s.me then some (.remote q 256) else none

/-- A bridge's non-prefetchable memory range as addresses: base and limit, the limit included. -/
def Dev.memRange (s : Dev) (f : Fn) : Nat × Nat :=
  (s.cfNum f 0x20 4 12 * 2 ^ 20, s.cfNum f 0x20 20 12 * 2 ^ 20 + (2 ^ 20 - 1))

/-- A bridge's prefetchable memory range. -/
def Dev.prefRange (s : Dev) (f : Fn) : Nat × Nat :=
  ((s.cf f 0x28).toNat * 2 ^ 32 + s.cfNum f 0x24 4 12 * 2 ^ 20,
    (s.cf f 0x2C).toNat * 2 ^ 32 + s.cfNum f 0x24 20 12 * 2 ^ 20 + (2 ^ 20 - 1))

/-- A bridge's I/O range. -/
def Dev.ioRange (s : Dev) (f : Fn) : Nat × Nat :=
  (s.cfNum f 0x1C 4 4 * 4096, s.cfNum f 0x1C 12 4 * 4096 + 4095)

/-- A range of the memory windows: first and last page, PREFETCH, virtual DSP. -/
structure Range where
  lo : Nat
  hi : Nat
  pre : Bool
  v : Nat
  deriving DecidableEq, Repr

/-- The ranges of virtual DSP `v` of partition `q`. -/
def Dev.rangesOf (s : Dev) (q v : Nat) : List Range :=
  match s.bridgeOf q v with
  | none => []
  | some f =>
    if s.cfBit f 0x04 1 then
      let (a, b) := s.memRange f
      let (c, d) := s.prefRange f
      (if a ≤ b then [{ lo := a / 4096, hi := b / 4096, pre := false, v := v }] else []) ++
        (if c ≤ d then [{ lo := c / 4096, hi := d / 4096, pre := true, v := v }] else [])
    else []

/-- Adjacent ranges of one target and one PREFETCH as one (R123). -/
def mergeRange (l : List Range) (r : Range) : List Range :=
  match l.find? (fun x => x.v == r.v && x.pre == r.pre && (x.hi + 1 == r.lo || r.hi + 1 == x.lo)) with
  | some x => l.map (fun y => if y = x then { x with lo := min x.lo r.lo, hi := max x.hi r.hi } else y)
  | none => l ++ [r]

/-- A partition's memory ranges in ascending order of virtual DSP. -/
def Dev.partRanges (s : Dev) (q : Nat) : List Range :=
  ((List.range 256).flatMap (s.rangesOf q)).foldl mergeRange []

/-- Window `w` of partition `q` written in the shadow set. -/
def Dev.putWindow (s : Dev) (q w : Nat) (r : Option Range) : Dev :=
  let (a, b, c) : Word × Word × Word := match r with
    | some r => (BitVec.ofNat 64 (1 + 2 * b2n r.pre + 4096 * r.lo), BitVec.ofNat 64 (4096 * r.hi), BitVec.ofNat 64 (1 + 2 * r.v))
    | none => (0, 0, 0)
  ((s.setSh .win a q (4 * w)).setSh .win b q (4 * w + 1)).setSh .win c q (4 * w + 2)

/-- The bus map entry of bus `b` (R78, R79). -/
def Dev.busEntry (s : Dev) (q b : Nat) : Word :=
  let sec := match s.uspBridge q with
    | some f => s.cfNum f 0x18 8 8
    | none => getBits (s.sh .buses q) 0 8
  if b = sec then 0x200
  else
    match (List.range 256).find? (fun v =>
      match s.bridgeOf q v with
      | some f => decide (s.cfNum f 0x18 8 8 ≤ b) && decide (b ≤ s.cfNum f 0x18 16 8) && decide (0 < s.cfNum f 0x18 8 8)
      | none => false) with
    | some v => BitVec.ofNat 64 (0x100 + v)
    | none => 0

/-- The I/O range of virtual DSP `v` as it is committed (R121). -/
def Dev.ioEntry (s : Dev) (q v : Nat) : Word :=
  match s.bridgeOf q v with
  | none => 0
  | some f =>
    let (a, b) := s.ioRange f
    if s.cfBit f 0x04 0 && decide (a ≤ b) then BitVec.ofNat 64 (2 ^ 63 + 2 ^ 20 * b + a) else 0

/-- Bus Master Enable of virtual DSP `v` as it is committed, at bit 2. -/
def Dev.enaEntry (s : Dev) (q v : Nat) : Word :=
  match s.bridgeOf q v with
  | some f => if s.bme f then 4 else 0
  | none => 0

/-- What the USP's own bridge commits: its windows, enables and bus numbers (R78, R121). -/
def Dev.rebuildUsp (s : Dev) (q : Nat) : Dev :=
  match s.uspBridge q with
  | none => s
  | some f =>
    let (a, b) := s.memRange f
    let (c, d) := s.prefRange f
    let (e, g) := s.ioRange f
    let s1 := ((s.setSh .uspMem (BitVec.ofNat 64 a) q 0).setSh .uspMem (BitVec.ofNat 64 b) q 1).setSh .uspIo
      (if e ≤ g then BitVec.ofNat 64 (2 ^ 63 + 2 ^ 20 * g + e) else 0) q
    let s2 := (s1.setSh .uspPref (BitVec.ofNat 64 c) q 0).setSh .uspPref (BitVec.ofNat 64 d) q 1
    (s2.setSh .ena (BitVec.ofNat 64 ((s.cf f 0x04).toNat % 8)) q 256).setSh .buses
      (BitVec.ofNat 64 (s.cfNum f 0x18 8 8 + 256 * s.fwd.captured.look 0 q)) q

/-- The controller's rebuild of a partition in the shadow sets (R121, R123): windows, bus map, I/O ranges, enables and bus
numbers; a partition whose ranges do not fit posts an event and leaves the rest out. One rebuilt while a copy runs is rebuilt again when the
copy is done (R122). -/
def Dev.rebuild (s0 : Dev) (q : Nat) : Dev :=
  let s : Dev := if s0.fwd.copying then { s0 with fwd := { s0.fwd with dirty := s0.fwd.dirty.insert q } } else s0
  let l := s.partRanges q
  let s1 := (List.range 64).foldl (fun s w => s.putWindow q w l[w]?) s
  let s2 := (List.range 256).foldl (fun t b => ((t.setSh .bus (s.busEntry q b) q b).setSh .io (s.ioEntry q b) q b).setSh .ena
    (s.enaEntry q b) q b) s1
  let s3 := s2.rebuildUsp q
  match l[64]? with
  | some r => s3.post 0x05 2 [BitVec.ofNat 32 (q + 256 * r.v)]
  | none => s3

/-! ### WIN_COMMIT (R124, R125, R134) -/

/-- Some bucket has OLD_LIST set. -/
def Dev.listDrain (s : Dev) : Bool := s.regs.any (fun e => e.1.kind == .bucket && e.2.getLsbD 9)

/-- The Hall route words of a set. -/
def routeWords (l : Store TblId Word) : List (TblId × Word) := l.filter (fun e => e.1.kind == .route)

/-- The exchange of the shadow and the active sets (R124, R134, R192). -/
def Dev.exchange (s : Dev) : Dev :=
  let old := routeWords s.active
  let s1 : Dev := { s with active := s.shadow, shadow := s.active, fwd := { s.fwd with copying := true, held := false } }
  let s2 := s1.setF F.FWD_CTL_COMMIT_COUNT ((s.f F.FWD_CTL_COMMIT_COUNT + 1) % 65536)
  let s3 :=
    if old = routeWords s.shadow then s2
    else
      let used := s2.regs.filterMap (fun e => if e.1.kind = .bucket ∧ getBits e.2 16 21 ≠ 0 then some e.1.i else none)
      used.foldl (fun s b => s.setB F.BUCKET_OLD_LIST true b) { s2 with fwd := { s2.fwd with oldRoute := old } }
  if s.b F.HALL_CTL_EN then s3 else s3.setF F.HALL_STATUS_EPOCH ((s.f F.HALL_STATUS_EPOCH + 1) % 2 ^ 32)

/-- A commit is held: another is under way, a bucket still drains, or a forwarding block is in its safe state or in reset (R124,
R125, R134). -/
def Dev.commitBlocked (s : Dev) : Bool :=
  s.fwd.copying || s.listDrain || s.outOf 66 || s.outOf 67

/-- The controller commits, or the commit is held (R124, R125). -/
def Dev.commitReq (s : Dev) : Dev := if s.commitBlocked then { s with fwd := { s.fwd with held := true } } else s.exchange

/-- COMMIT_BUSY. -/
def Dev.commitBusy (s : Dev) : Bool := s.fwd.copying || s.fwd.held

/-- A held commit takes effect (R125). -/
def Dev.commitHeld (s : Dev) : Dev := if s.fwd.held && !s.commitBlocked then s.exchange else s

/-- The copy of the new active sets into the new shadow sets is done (R124); partitions rebuilt meanwhile are rebuilt again (R122), and words that
a master pushed meanwhile stay (R213). A member whose tables a master replaces keeps what it has of them (R215): `joins`. -/
def Dev.copyDone (s : Dev) (joins : Bool) : Dev :=
  if s.fwd.copying then
    let s1 : Dev := { s with shadow := if joins then s.shadow else s.active, fwd := { s.fwd with copying := false, dirty := [], late := [] } }
    let s2 := s.fwd.late.foldl (fun d w => d.setSh w.kind (s.sh w.kind w.i w.j) w.i w.j) s1
    s.fwd.dirty.foldl Dev.rebuild s2
  else s

/-- The routing ID with which the virtual bridge that a configuration request names completes it (R78). -/
def Dev.bridgeRid (s : Dev) (q : Nat) (t : Tlp) : BitVec 16 :=
  if t.kind = .cfgrd0 ∨ t.kind = .cfgwr0 then s.uspId q else s.dspId q (devFn t.destId)

/-- A host's bridge write completes (R122). -/
def Dev.bridgeDone (s : Dev) (w : BridgeWait) : Dev :=
  match w.reply with
  | some st => s.generate st (backTo st.ingress) (s.bridgeRid w.q st.tlp) .sc
  | none => s.emit (.cfgDone w.q .sc)

/-! ### Buckets (R133, R134) and fences (R136) -/

/-- A bucket that holds no TLP in flight takes its requested path and the current route, and every port may be selected for it
again (R133, R134, R210). -/
def Dev.repin (s : Dev) (b : Nat) : Dev :=
  if s.f F.BUCKET_INFLIGHT b = 0 then
    let s1 := ((s.setF F.BUCKET_EFF_PATH (s.f F.BUCKET_PATH b) b).setB F.BUCKET_PENDING false b).setB F.BUCKET_OLD_LIST false b
    { s1 with nerup := (s1.nerup.map (fun e => (e.1, { e.2 with hold := e.2.hold.erase b }))).filter (fun e => decide (e.2 ≠ {})) }
  else s

/-- PATH of a bucket written (R133). -/
def Dev.wrPath (s : Dev) (b path : Nat) : Dev :=
  let s1 := s.setF F.BUCKET_PATH path b
  s1.setB F.BUCKET_PENDING (path != s1.f F.BUCKET_EFF_PATH b) b

/-- A fence on checker `c` (R136): every TLP bound before it is marked. -/
def Dev.fence (s : Dev) (c : Nat) : Dev :=
  ({ s with fences := s.fences.put 0 c s.bindCount }).setB F.PITCH_FENCE_FENCE_DONE false c

/-- No marked TLP of checker `c` remains, nor the completion that answers one with ACTION 1 (R136). -/
def Dev.fenceClear (s : Dev) (c : Nat) : Bool :=
  s.inDevice.all (fun st => st.ingress != c || st.quiet || decide (s.fences.look 0 c ≤ st.id))

/-- A write of HASH_SEED (R132). -/
def Dev.wrSeed (s : Dev) (v : Word) : Dev :=
  if s.fabricPorts.isEmpty then s.setF F.HASH_SEED_SEED v.toNat else s.setB F.FWD_CTL_FWD_CFG_ERR true

end Sys2Proof.Machine
end

