-- ==== Sys2Proof/Machine/HandOps.lean ====
section
/-! DEFINITION. How a TLP is put on its link: what it becomes on the wire (R113, R147, R200, R201), the replay buffer that holds it (R206), and one
whose ingress link goes down while it is being cut through (R163). -/

namespace Sys2Proof.Machine

/-- Lock domain of a Hall partition. -/
def Dev.lockDomain (s : Dev) (hp : Nat) : Nat := getBits (s.ac .lockdom (hp / 8)) (4 * (hp % 8)) 4

/-- A forwarded Type 1 configuration request becomes Type 0 on the DSP's secondary bus (R113). -/
def Dev.onWire (s : Dev) (p : Nat) (t : Tlp) : Tlp :=
  let here := s.role p == 0 && (s.busesBelow (s.partOf p) (s.f F.PORT_CTL_VNUM p)).head? == some (busOf t.destId)
  match t.kind with
  | .cfgrd1 => if here then { t with kind := .cfgrd0 } else t
  | .cfgwr1 => if here then { t with kind := .cfgwr0 } else t
  | _ => t

/-- The Nerup header of a TLP on its way out of port `p` (R200, R201, R230). -/
def Dev.nthOf (s : Dev) (p : Nat) (st : Stored) (shared : Bool) : Nth :=
  let relayed := decide (st.ingress < 512) && s.role st.ingress == 2 && st.pool != 4
  { vc := Fin.ofNat 8 (s.vcOf p st.d.tcq), moved := st.moved
    srcMember := Fin.ofNat 16 (if relayed then st.src else s.me), dstMember := Fin.ofNat 16 st.d.dstMember
    dest := BitVec.ofNat 10 st.d.dest, bucket := Fin.ofNat 4096 st.d.bucket
    verdict := BitVec.ofNat 2 (if relayed then st.carried else st.d.verdict), hallPart := Fin.ofNat 1024 st.d.hallPart
    twin := st.twin.map (fun n => BitVec.ofNat 24 n), locked := st.locked, shared := shared
    cplId := if relayed then st.cplId else s.cplIdOf st.ingress
    hops := Fin.ofNat 16 (if relayed then st.hops + 1 else 0) }

/-- The replay record of a TLP just sent: it holds no cells any more. -/
def Stored.sent (st : Stored) (t : Tlp) : Stored := { st with tlp := t, cells := [] }

/-- A TLP on a PCIe link: it takes link credit and a sequence number, and stays in the replay buffer until it is acknowledged. A locked
read locks a DSP, and Unlock frees it (R218). -/
def Dev.sendPcie (s : Dev) (p : Nat) (st : Stored) (t : Tlp) : Dev :=
  let w := s.onWire p t
  let s1 := s.spendLink p 0 t
  let l := s1.link p
  let dom := if t.kind = .msg ∧ t.msgCode = 0 then none
    else if st.locked then some (s1.lockDomain st.d.hallPart, st.ingress, st.src)
    else l.lockDom
  (s1.setLink p { l with replay := l.replay ++ [{ seq := l.nextSeq, st := st.sent w }], nextSeq := (l.nextSeq + 1) % 4096
                         lockDom := dom }).emit (.tlp p w)

/-- A TLP on a Nerup link (R200, R203, R206). -/
def Dev.sendNerup (s : Dev) (p : Nat) (st : Stored) (t : Tlp) : Dev :=
  let vc := s.vcOf p st.d.tcq
  let n := s.nthOf p st (s.usesShared p vc t)
  let s1 := s.spendLink p vc t
  let l := s1.link p
  let k := nerupFlits t
  let last := (l.nextSeq + k - 1) % 1024
  let x := s1.nerupOf p
  ((s1.setLink p { l with replay := l.replay ++ [{ seq := last, st := st.sent t }], nextSeq := (last + 1) % 1024 }).setNerup p
    { x with crdTurn := (x.crdTurn + k) % 65 }).emit (.fabric p (s1.seqHdrs p 1 l.nextSeq k) n t)

/-- A TLP handed to its egress point. -/
def Dev.handOver (s : Dev) (st : Stored) (t : Tlp) : Dev :=
  let e := st.d.egress
  if e < 512 then (if s.role e = 2 then s.sendNerup e st t else s.sendPcie e st t)
  else if e = 512 then s.emit (.toFn .mgmtPf t)
  else if e = 513 then s.emit (.toFn .porterPf t)
  else s.emit (.toPorter (e - 514) t)

/-- A TLP of ingress `p` that an egress holds open is completed at its stated length, with the missing bytes 0 and EP set (R163). -/
def Dev.closeOpened (s : Dev) (p : Nat) : Dev :=
  (s.links.filterMap (fun e => (e.2.opened.filter (fun st => st.ingress == p)).map (fun st => (e.1, st)))).foldl (fun s x =>
    (s.setLink x.1 { s.link x.1 with opened := none }).handOver x.2 x.2.tlp) s

end Sys2Proof.Machine
end

