-- ==== Sys2Proof/Machine/ControlOps.lean ====
section
/-! DEFINITION. Control flits of a fabric port (R202, R203, R206, R212): the transmit queue and its priorities, control credits, sequence
numbers, the messages of the sparing exchange (R59, R60). -/

namespace Sys2Proof.Machine

/-- A control message of this member (R202): its payload is filled up to whole units of 4 bytes. -/
def Dev.msg (s : Dev) (mtype dst : Nat) (bcast : Bool) (epoch tag : Nat) (payload : List Byte) : CtlMsg :=
  { mtype := BitVec.ofNat 8 mtype, src := Fin.ofNat 16 s.me, dst := Fin.ofNat 16 dst, bcast := bcast
    epoch := BitVec.ofNat 32 epoch, tag := BitVec.ofNat 16 tag, hallId := BitVec.ofNat 16 (s.f F.HALL_CTL_HALL_ID)
    payload := payload ++ List.replicate ((4 - payload.length % 4) % 4) 0 }

/-- The epoch of the active tables. -/
def Dev.epoch (s : Dev) : Nat := s.f F.HALL_STATUS_EPOCH

/-- A fabric port that is enabled. -/
def Dev.isFabric (s : Dev) (p : Nat) : Bool := s.b F.PORT_CTL_EN p && s.role p == 2

/-- Priority of a message type (R211, R239). -/
def ctlPrio (m : CtlMsg) : Nat :=
  let t := m.mtype.toNat
  if t ≤ 4 ∨ t = 0x40 then 0 else if [0x13, 0x14, 0x15, 0x20, 0x2B].contains t then 2 else 1

/-- A message put in a control transmit queue: priority 0, 1, 2, first in first out within each (R212). -/
def ctlPut (m : CtlMsg) (l : List CtlMsg) : List CtlMsg :=
  l.takeWhile (fun x => decide (ctlPrio x ≤ ctlPrio m)) ++ m :: l.dropWhile (fun x => decide (ctlPrio x ≤ ctlPrio m))

/-- Control credits in hand at port `p`: the peer's counter, which starts at 8, less the control flits sent (R203). -/
def Dev.ctlCredit (s : Dev) (p : Nat) : Nat :=
  ((s.nerupOf p).crd.look 0 64 + 8 + 65536 - (s.nerupOf p).ctlSent) % 65536

/-- The head of the control queue of port `p` may go (R197, R203, R206, R212): HELLO alone in the state HELLO; a credit is in hand, and
more than 2 where the message is not of priority 0, for 2 of the peer's buffers take only those (log 23). -/
def Dev.ctlMayGo (s : Dev) (p : Nat) (m : CtlMsg) : Bool :=
  s.f F.PORT_STATUS_LTSSM p == 3 && (s.nstate p == 4 || s.nstate p == 5 || (s.nstate p == 2 && m.mtype == 1))
    && decide (s.flitsOut p < 511) && decide ((if ctlPrio m = 0 then 0 else 2) < s.ctlCredit p)

/-- A receive buffer of port `p` is free again: its control credit goes back (R203, R212). -/
def Dev.ctlFreed (s : Dev) (p : Nat) : Dev := s.sendCredit p 8 0 1

/-- The head of the control queue leaves in a control flit with the next SEQ and stays in the replay buffer (R206, R212). -/
def Dev.ctlSendHead (s : Dev) (p : Nat) (m : CtlMsg) : Dev :=
  let l := s.link p
  let x := s.nerupOf p
  ((s.setLink p { l with nextSeq := (l.nextSeq + 1) % 1024 }).setNerup p { x with
    ctlQ := x.ctlQ.drop 1, ctlSent := (x.ctlSent + 1) % 65536, ctlReplay := x.ctlReplay ++ [(l.nextSeq, m)]
    crdTurn := (x.crdTurn + 1) % 65 }).emit (.ctl p ((s.seqHdrs p 2 l.nextSeq 1).getD 0 0) m)

/-- A message that waited for room moves to the control queue. A relayed one gives its receive buffer back once no queue awaits it. -/
def Dev.ctlFill (s : Dev) (p : Nat) : Dev :=
  let x := s.nerupOf p
  match x.ctlWait with
  | [] => s
  | (m, r) :: t =>
    if 32 ≤ x.ctlQ.length then s
    else
      let s1 := s.setNerup p { x with ctlQ := ctlPut m x.ctlQ, ctlWait := t }
      match r with
      | none => s1
      | some q => if s1.nerup.any (fun e => e.2.ctlWait.contains (m, r)) then s1 else s1.ctlFreed q

/-- The control queue of port `p` sends what it may. -/
def Dev.ctlDrain (s : Dev) (p : Nat) : Nat → Dev
  | 0 => s
  | n + 1 =>
    match (s.nerupOf p).ctlQ with
    | [] => s
    | m :: _ => if s.ctlMayGo p m then ((s.ctlSendHead p m).ctlFill p).ctlDrain p n else s

/-- The control queue of port `p` sends what it may, and takes what waits for room. -/
def Dev.ctlRun (s : Dev) (p : Nat) : Dev :=
  s.ctlDrain p ((s.nerupOf p).ctlQ.length + (s.nerupOf p).ctlWait.length)

/-- A control message for port `p`: it joins the queue of 32, or waits for room in it (R212). -/
def Dev.sendCtl (s : Dev) (p : Nat) (m : CtlMsg) (buf : Option Nat := none) : Dev :=
  let x := s.nerupOf p
  if x.ctlQ.length < 32 then (s.setNerup p { x with ctlQ := ctlPut m x.ctlQ }).ctlRun p
  else s.setNerup p { x with ctlWait := x.ctlWait ++ [(m, buf)] }

/-- Port `p` takes data and control flits: an enabled fabric port in L0 that has reached HELLO (R197, R206). -/
def Dev.hearsFlits (s : Dev) (p : Nat) : Bool :=
  s.isFabric p && decide (2 ≤ s.nstate p) && decide (s.nstate p ≤ 5) && s.f F.PORT_STATUS_LTSSM p == 3

/-- The next `n` flits expected on port `p` are accepted (R206): NAK ends, and ACK_SEQ covers them. -/
def Dev.flitsTaken (s : Dev) (p n : Nat) : Dev :=
  let x := s.nerupOf p
  (s.setNerup p { x with rx := (x.rx + n) % 1024, nakOut := false }).sendIdle p [none]

/-- A flit that is not the next one (R206): one that fails its check or comes too late in SEQ sets NAK in every header until the expected
flit arrives; one accepted before is discarded. -/
def Dev.flitMissed (s : Dev) (p seq : Nat) (good : Bool) : Dev :=
  let x := s.nerupOf p
  let ahead := (seq + 1024 - x.rx) % 1024
  if good && decide (512 ≤ ahead) then s else (s.setNerup p { x with nakOut := true }).sendIdle p [none]

/-- A control flit with SEQ `seq` arrives on port `p` (R206): accepted when it is the next expected and its check holds; one that lay among the data
flits of a segment has been accepted with those. -/
def Dev.ctlFlit (s : Dev) (p seq : Nat) (good : Bool) (k : Dev → Dev) : Dev :=
  let x := s.nerupOf p
  if !s.hearsFlits p then s
  else if good && x.among.contains seq then k (s.setNerup p { x with among := x.among.erase seq })
  else if good && seq == x.rx then k (s.flitsTaken p 1) else s.flitMissed p seq good

/-- The control messages of a port's queue are dropped; receive buffers that waited for it are free. -/
def Dev.ctlClear (s : Dev) (p : Nat) : Dev :=
  let x := s.nerupOf p
  x.ctlWait.foldl (fun s e => match e.2 with
    | some q => if s.nerup.any (fun y => y.2.ctlWait.contains e) then s else s.ctlFreed q
    | none => s) (s.setNerup p { x with ctlQ := [], ctlWait := [] })

/-- A link-local message. -/
def Dev.sendLocal (s : Dev) (p mtype : Nat) (payload : List Byte) : Dev :=
  s.sendCtl p (s.msg mtype (s.f F.NERUP_STATUS_PEER_MEMBER p) false s.epoch 0 payload)

/-- The 24 bits of a message of the sparing exchange (R59). -/
def SpareMsg.bits : SpareMsg → Nat
  | .offer cap => 0x106A00 + cap
  | .accept cap => 0x206A00 + cap
  | .req lane => 0x300000 + 65536 * lane
  | .ack lane seq => 0x400000 + 65536 * lane + seq
  | .nak lane => 0x500000 + 65536 * lane

/-- The owner port of a Row's spare. -/
def Dev.spareOwner (s : Dev) (r : Nat) : Nat := 16 * r + s.f F.ROW_SPARE_CTL_OWNER_SLOT r

/-- A message of the sparing exchange: a Vendor-Specific DLLP on a PCIe link, the control message SPARE on a Nerup link (R59, R60). -/
def Dev.sendSpare (s : Dev) (r : Nat) (m : SpareMsg) : Dev :=
  if s.role (s.spareOwner r) = 2 then s.sendLocal (s.spareOwner r) 0x02 (leBytes m.bits 3) else s.emit (.spare r m)

/-- A message of the sparing exchange has come in; on a Nerup link it came in a control flit, the next in order, whose receive buffer is free
again (R60, R206). -/
def Dev.spareIn (s : Dev) (r : Nat) : Dev :=
  let p := s.spareOwner r
  if s.hearsFlits p then (s.flitsTaken p 1).ctlFreed p else s

end Sys2Proof.Machine
end

