-- ==== Sys2Proof/Machine/SlotOps.lean ====
section
/-! DEFINITION. Slot power channels (R353-R364) and hot-plug slots (R91-R105): the shared operations. -/

namespace Sys2Proof.Machine

/-! ### Slot Status events (R100, R109) -/

/-- Byte offset of Slot Control and Slot Status in a port's function (R82, log 13). -/
def slotCtlOff : Nat := 0x68

/-- Some Slot Status event is set whose notification is enabled, with Hot-Plug Interrupt Enable (PCI Express Base 7.0, log 13). -/
def slotIrq (v : BitVec 32) : Bool :=
  v.getLsbD 5 && ((List.range 5).any (fun k => v.getLsbD k && v.getLsbD (16 + k)) || (v.getLsbD 12 && v.getLsbD 24))

/-- Slot Status event `k` set: 0 button, 1 power fault, 2 MRL, 3 presence, 4 Command Completed, 8 link state. It is signalled
through the DSP's MSI vector where it raises the condition (R109). -/
def Dev.slotEvent (s : Dev) (p k : Nat) : Dev :=
  let old := s.cf (portFn p) slotCtlOff
  let new := old ||| BitVec.ofNat 32 (2 ^ (16 + k))
  let s1 := s.setCf (portFn p) slotCtlOff new
  if slotIrq new && !slotIrq old then s1.sendMsi p else s1

/-- Presence Detect State and MRL Sensor State of Slot Status. -/
def Dev.setSlotState (s : Dev) (p bit : Nat) (v : Bool) : Dev :=
  s.setCfBits (portFn p) slotCtlOff (BitVec.ofNat 32 (2 ^ (16 + bit))) v

/-- `SLOT_STATE.STATE`: 0 EMPTY, 1 PRESENT_OFF, 2 POWERING, 3 ON, 4 POWERING_OFF, 5 COOLING. -/
def Dev.slotState (s : Dev) (p : Nat) : Nat := s.f F.SLOT_STATE_STATE p

/-- The slot's state replaced; a change posts a SLOT record (R411). -/
def Dev.toSlot (s : Dev) (p st : Nat) : Dev :=
  let s1 := s.setF F.SLOT_STATE_STATE st p
  if s.slotState p = st then s1
  else s1.post 0x06 2 [BitVec.ofNat 32 (p + 512 * st + 4096 * b2n (s.cfBit (portFn p) slotCtlOff 17))]

/-- Port `p` is a DSP with a slot. -/
def Dev.hasSlot (s : Dev) (p : Nat) : Bool := s.slotEn p && s.role p == 0

/-- Power Controller Control says on (0b). -/
def Dev.powerCtlOn (s : Dev) (p : Nat) : Bool := !s.cfBit (portFn p) slotCtlOff 10

/-- Command Completed, once neither the SB_LOAD of the new output values nor the gate drive is awaited (R99). -/
def Dev.cmdDone (s : Dev) (p : Nat) (wasWaiting : Bool) : Dev :=
  let x := s.slot p
  if wasWaiting && !x.cmdWait && !x.cmdOut && !x.gateWait then s.slotEvent p 4 else s

/-! ### Slot power channels -/

/-- The channel's record. -/
def Dev.spc (s : Dev) (n : Nat) : SpcSt := s.spcs.look {} n

/-- The channel's record replaced. -/
def Dev.setSpc (s : Dev) (n : Nat) (x : SpcSt) : Dev := { s with spcs := s.spcs.put {} n x }

/-- `SPC_STATUS.STATE`: 0 OFF, 1 RAMP, 2 ON, 3 DISCHARGE, 4 LATCHED, 5 FET_FAULT. -/
def Dev.spcState (s : Dev) (n : Nat) : Nat := s.f F.SPC_STATUS_STATE n

/-- The port that channel `n` names. -/
def Dev.spcPort (s : Dev) (n : Nat) : Nat := 16 * n + s.f F.SPC_CFG_SLOT n

/-- Channel `n` serves the slot of the port it names (R353). -/
def Dev.spcServing (s : Dev) (n : Nat) : Bool := s.b F.SPC_CFG_EN n && s.hasSlot (s.spcPort n)

/-- The slot of port `p` is powered by its Row's channel (R20, R353); otherwise through PWR_EN. -/
def Dev.integrated (s : Dev) (p : Nat) : Bool := s.spcServing (p / 16) && s.spcPort (p / 16) == p

/-- ILIM_V in units of 25 µV, in which 0.2 mV is 8 (R356). -/
def Dev.spcIlim (s : Dev) (n : Nat) : Nat := 8 * min (max (s.f F.SPC_CFG_ILIM n) 25) 250

/-- V_LIM as a fraction of units of 25 µV (R356), from V_DS in units of 5 mV; 0.1 V is 20 of them. -/
def Dev.spcLimit (s : Dev) (n vds : Nat) : Nat × Nat :=
  let il := s.spcIlim n
  let d := max vds 20
  let fold := 40 * max (s.f F.SPC_CFG_FOLD_P n) 1 * max (s.f F.SPC_CFG_SHUNT n) 1
  if fold * 8 < il * d then (il, 8) else if il * d < fold then (il, 1) else (fold, d)

/-- Power Fault Detected of the DSP that channel `n` serves (R359). -/
def Dev.spcFaultSeen (s : Dev) (n : Nat) : Dev := if s.spcServing n then s.slotEvent (s.spcPort n) 1 else s

/-- A discharge begins: SLOT_PG drops, the gate is released and the restart hold-off starts (R359, R360, R362). LIMIT stays that of the last
tick. -/
def Dev.spcDischarge (s : Dev) (n : Nat) (fault : Bool) : Dev :=
  let s1 := (s.setF F.SPC_STATUS_STATE 3 n).setB F.SPC_STATUS_PG false n
  let s2 := s1.setSpc n { fault := fault, holdoff := true }
  let s3 := if s.b F.SPC_STATUS_PG n then s2.emit (.slotPg n false) else s2
  s3.emit (.gate n false)

/-- The power-on of the slot that channel `n` serves ends without power (R360): from POWERING back to PRESENT_OFF, with the Command Completed
that waited. -/
def Dev.spcPowerEnds (s : Dev) (n : Nat) : Dev :=
  let p := s.spcPort n
  if s.spcServing n && s.slotState p == 2 then
    let x := s.slot p
    ((s.toSlot p 1).setSlot p { x with valid := false, perstN := false, gateWait := false }).cmdDone p x.gateWait
  else s

/-- A fault of the channel while its gate is driven (R359, R360): `f` is the cause's bit. -/
def Dev.spcFault (s : Dev) (n : Nat) (f : Fld) : Dev :=
  if s.spcState n = 1 ∨ s.spcState n = 2 then (((s.spcDischarge n true).setB f true n).spcFaultSeen n).spcPowerEnds n else s

/-- Current limit counts as reached: the gate is driven and V_SENSE is at least 0.95 V_LIM (R356). -/
def Dev.spcInLimit (s : Dev) (n vsense vds : Nat) : Bool :=
  let (num, den) := s.spcLimit n vds
  decide (s.spcState n = 1 ∨ s.spcState n = 2) && decide (95 * num ≤ 100 * vsense * den)

/-- The fault timer of a tick (R358): up by 1 in limit, down by 1 for each 16 consecutive ticks out of it. -/
def spcTimer (limit : Bool) (timer run : Nat) : Nat × Nat :=
  if limit then (timer + 1, 0) else if run + 1 = 16 then (timer - 1, 0) else (timer, run + 1)

/-- The power-good conditions of a tick: VIN at least 10.5 V, V_DS at most PG_VDS × 10 mV, no current limit (R362). -/
def Dev.spcPgCond (s : Dev) (n vin vds : Nat) (limit : Bool) : Bool :=
  decide (2100 ≤ vin) && decide (vds ≤ 2 * max (s.f F.SPC_CFG_PG_VDS n) 1) && !limit

/-- The samples of a tick stored in SPC_MEAS (R355). A V_LIM between two steps of 25 µV is rounded down (DESIGN CHOICE, log 141). -/
def Dev.spcSample (s : Dev) (n vsense vin vout : Nat) : Dev :=
  let (num, den) := s.spcLimit n (vin - vout)
  (((s.setF F.SPC_MEAS_VSENSE vsense n).setF F.SPC_MEAS_VIN vin n).setF F.SPC_MEAS_VOUT vout n).setF F.SPC_MEAS_VLIM
    (num / den) n

/-- One tick with the gate driven (R355, R358, R359, R362): the timer, then the first of breaker, FET check and VIN check that
applies, else power-good. -/
def Dev.spcDrivenTick (s : Dev) (n vin vds : Nat) (limit : Bool) : Dev :=
  let x := s.spc n
  let (timer, run) := spcTimer limit (s.f F.SPC_STATUS_TIMER n) x.outRun
  let hi := if s.spcState n = 2 ∧ 2 * max (s.f F.SPC_CFG_PG_VDS n) 1 < vds ∧ limit = false then x.hiRds + 1 else 0
  let uv := if vin < 1960 then x.uv + 1 else 0
  let pg := s.spcPgCond n vin vds limit
  let s1 := (s.setF F.SPC_STATUS_TIMER timer n).setB F.SPC_STATUS_LIMIT limit n
  let s2 := s1.setSpc n { x with outRun := run, hiRds := hi, uv := uv, pgPrev := pg, short := 0 }
  if max (s.f F.SPC_CFG_FAULT_TIME n) 1 * 250 ≤ timer then s2.spcFault n F.SPC_STATUS_BREAKER
  else if 16 ≤ hi then s2.spcFault n F.SPC_STATUS_FET_HIGH_RDS
  else if 4 ≤ uv then s2.spcFault n F.SPC_STATUS_VIN_UV
  else if s.spcState n = 1 ∧ pg = true ∧ x.pgPrev = true then
    ((s2.setF F.SPC_STATUS_STATE 2 n).setB F.SPC_STATUS_PG true n).emit (.slotPg n true)
  else s2

/-- The FET is judged shorted (R361). -/
def Dev.spcShort (s : Dev) (n : Nat) : Dev :=
  ((((s.setF F.SPC_STATUS_STATE 5 n).setB F.SPC_STATUS_FET_SHORT true n).setSpc n { holdoff := (s.spc n).holdoff }).spcFaultSeen
    n).spcPowerEnds n

/-- One tick with the gate not driven (R361): the shunt should carry nothing. -/
def Dev.spcIdleTick (s : Dev) (n vsense : Nat) : Dev :=
  let x := s.spc n
  let dis := x.disTicks + 1
  let watched := decide (s.spcState n = 0 ∨ s.spcState n = 4) || (decide (s.spcState n = 3) && decide (100 < dis))
  let short := if watched && decide (80 ≤ vsense) then x.short + 1 else 0
  let s1 := (s.setB F.SPC_STATUS_LIMIT false n).setSpc n { x with disTicks := dis, short := short, pgPrev := false }
  if 1000 ≤ short then s1.spcShort n else s1

/-- One measurement tick (R355). A channel that is not enabled samples and no more (DESIGN CHOICE, log 129). -/
def Dev.spcTick (s : Dev) (n vsense vin vout : Nat) : Dev :=
  let s1 := s.spcSample n vsense vin vout
  if !s.b F.SPC_CFG_EN n then s1
  else if s.spcState n = 1 ∨ s.spcState n = 2 then s1.spcDrivenTick n vin (vin - vout) (s1.spcInLimit n vsense (vin - vout))
  else s1.spcIdleTick n vsense

/-- A power-on command to an assigned channel (R360). -/
def Dev.spcOn (s : Dev) (n : Nat) : Dev :=
  let st := s.spcState n
  if st = 4 ∨ st = 5 then s.spcFaultSeen n
  else if (s.spc n).holdoff || st == 3 then s.setSpc n { s.spc n with want := true }
  else if st = 0 then
    if s.f F.SPC_MEAS_VIN n < 2100 then (s.setB F.SPC_STATUS_VIN_UV true n).spcFaultSeen n
    else (((s.setF F.SPC_STATUS_STATE 1 n).setF F.SPC_STATUS_TIMER 0 n).setSpc n {}).emit (.gate n true)
  else s

/-- The power of an assigned channel turned off (R105, R364): a commanded discharge; a power-on that waits is given up. -/
def Dev.spcOff (s : Dev) (n : Nat) : Dev :=
  if s.spcState n = 1 ∨ s.spcState n = 2 then s.spcDischarge n false else s.setSpc n { s.spc n with want := false }

/-- Power Controller Control of port `p` written off: its channel leaves LATCHED (R360), unless in its safe state (R363). -/
def Dev.latchRelease (s : Dev) (p : Nat) : Dev :=
  let n := p / 16
  if s.integrated p && s.spcState n == 4 && !s.safe (34 + n) then s.setF F.SPC_STATUS_STATE 0 n else s

/-- The safe state of a channel: a fault discharge, LATCHED after it (R338, R363). One that discharges already does so for the fault; one that is
LATCHED or in FET_FAULT stays so (DESIGN CHOICE, log 142). A power-on that waits ends. -/
def Dev.spcSafe (s : Dev) (n : Nat) : Dev :=
  let s1 := if s.spcState n ≤ 2 then (s.spcDischarge n true).spcPowerEnds n
    else if s.spcState n = 3 then (s.setSpc n { s.spc n with fault := true, want := false }).spcPowerEnds n
    else s
  s1.spcFaultSeen n

/-! ### Slots -/

/-- Power-on of a slot (R105): it enters POWERING once power is turned on, or while that waits for the hold-off; `cmd` says that a command
waits with it for its Command Completed (R360). -/
def Dev.slotPowerOn (s : Dev) (p : Nat) (cmd : Bool := false) : Dev :=
  let s0 := s.setSlot p { s.slot p with indOff := false, gateWait := false }
  if s0.integrated p then
    let n := p / 16
    let s1 := s0.spcOn n
    if s1.spcState n = 1 ∨ s1.spcState n = 2 then s1.toSlot p 2
    else if (s1.spc n).want then (s1.setSlot p { s1.slot p with gateWait := cmd }).toSlot p 2
    else s1
  else (s0.setSlot p { s0.slot p with pwrEn := true }).toSlot p 2

/-- A commanded power-off of a slot begins: PERST_N goes to 0 (R105). -/
def Dev.slotPowerOff (s : Dev) (p : Nat) : Dev :=
  let n := p / 16
  let s0 := if s.integrated p && (s.spc n).want then s.setSpc n { s.spc n with want := false } else s
  let x := s0.slot p
  if s.slotState p = 2 ∨ s.slotState p = 3 then
    (s0.setSlot p { x with perstN := false, pwrEn := false, valid := false, offAtLoad := true, gateWait := false }).toSlot p 4
  else
    let s1 := s0.setSlot p { x with gateWait := false }
    if s.slotState p = 4 then s1 else if s.integrated p then s1.spcOff n else s1.setSlot p { x with pwrEn := false, gateWait := false }

/-- Power Controller Control written (R99, R103, R105). A power-on command that comes in POWERING_OFF waits for its end (R360, R364). One that comes
while the slot is EMPTY is stored and turns nothing on, then or when a card comes (DESIGN CHOICE, log 132). -/
def Dev.powerWrite (s : Dev) (p : Nat) (on : Bool) : Dev :=
  let s0 := s.setCfBits (portFn p) slotCtlOff 0x400 (!on)
  let s1 := if on then s0 else s0.latchRelease p
  if s.slotState p = 5 then s1.slotEvent p 4
  else
    let s2 := if !on then s1.slotPowerOff p
      else match s.slotState p with
        | 1 => s1.slotPowerOn p true
        | 4 => s1.setSlot p { s1.slot p with gateWait := true }
        | _ => s1
    s2.setSlot p { s2.slot p with cmdWait := true }

/-- Power and Attention Indicator Control written (R99). -/
def Dev.indicatorWrite (s : Dev) (p : Nat) (power attn : Nat) : Dev :=
  let v := s.cf (portFn p) slotCtlOff &&& 0xFFFFFC3F
  let s1 := s.setCf (portFn p) slotCtlOff (v ||| BitVec.ofNat 32 (power * 256 + attn * 64))
  s1.setSlot p { s1.slot p with cmdWait := true, indOff := false }

/-- Power turned off at the SB_LOAD that latches PERST_N at 0 (R102, R105). -/
def Dev.slotCut (s : Dev) (p : Nat) : Dev :=
  let s1 := s.setSlot p { s.slot p with offAtLoad := false, pwrEn := false }
  if s1.integrated p then s1.spcOff (p / 16) else s1

/-- `HP_RETRY_TIME` as it acts. -/
def Dev.hpRetry (s : Dev) (p : Nat) : Nat := min (max (s.f F.SLOT_CFG_HP_RETRY_TIME p) 100) 2000

/-- COOLING entered by a surprise down (R102 steps 3 and 4). -/
def Dev.toCooling (s : Dev) (p : Nat) : Dev :=
  let s1 := ((s.toSlot p 5).setF F.SLOT_STATE_COOL_LEFT (s.hpRetry p) p).setF F.SLOT_STATE_PRESENCE_BOUNCE 0 p
  s1.setSlot p { s1.slot p with perstN := false, valid := false, offAtLoad := true, indOff := true, debounce := false
                                pwrEn := false, coolPresent := s.cfBit (portFn p) slotCtlOff 22 }

/-- A surprise down (R102), `mrl` saying that an MRL opening caused it. -/
def Dev.surpriseDown (s : Dev) (p : Nat) (mrl : Bool) : Dev :=
  let s1 := (s.setF F.PORT_STATUS_LTSSM 0 p).setB F.PORT_STATUS_DL_ACTIVE false p
  let s2 := (s1.newGen p .ur).slotEvent p 8
  let s3 := if mrl then s2.slotEvent p 2 else s2
  let s4 := s3.toCooling p
  if s.b F.SLOT_CFG_SURPRISE p then s4 else s4.aerU (portFn p) AER.surpriseDown

/-- A slot settles after COOLING or a power-off: EMPTY or PRESENT_OFF (R104, R105). -/
def Dev.slotRest (s : Dev) (p : Nat) : Dev := s.toSlot p (if (s.slot p).present then 1 else 0)

/-- The slot of port `p` is taken away: EMPTY, its power off. -/
def Dev.slotGone (s : Dev) (p : Nat) : Dev :=
  ((if s.integrated p then s.spcOff (p / 16) else s).setReg .slotState 0 p).setSlot p { latched := (s.slot p).latched }

/-! ### What a port needs to train -/

/-- The port that holds lane `m` of Row `r`. -/
def Dev.portOfLane (s : Dev) (r m : Nat) : Nat := 16 * r + (splitBlock (s.f F.ROW_SPLIT_TREE r) m).1

/-- The configured width of port `p`. -/
def Dev.portWidth (s : Dev) (p : Nat) : Nat := (splitBlock (s.f F.ROW_SPLIT_TREE (p / 16)) (p % 16)).2

/-- Row lanes of port `p`, as registers see them. -/
def Dev.lanesOf (s : Dev) (p : Nat) : List Nat := (List.range (s.portWidth p)).map (fun k => p % 16 + k)

/-- Every lane of port `p` lies in a PHY quad that is ready, and so is its Row's logic (R379). -/
def Dev.lanesReady (s : Dev) (p : Nat) : Bool :=
  s.b F.DOMAIN_STATE_READY (128 + p / 16)
    && (s.lanesOf p).all (fun m => s.b F.DOMAIN_STATE_READY (4 * (p / 16) + min (m / 4) 3))

/-- The LTSSM of port `p` may leave Detect: enabled, purged, held by nothing, its slot powered (R76, R105, R159, R347, R450), its
lanes powered (R379). -/
def Dev.mayTrain (s : Dev) (p : Nat) : Bool :=
  let l := s.link p
  s.b F.PORT_CTL_EN p && !l.purge && !l.disable && !l.hotReset && !l.dpc && (!s.hasSlot p || s.slotState p == 3)
    && s.lanesReady p && !s.safe (p / 16) && !s.rst.perstLow

/-- The LTSSM told to train, where it may. -/
def Dev.trainNow (s : Dev) (p : Nat) : Dev := if s.mayTrain p then s.emit (.link p .train) else s

/-! ### Signboard (R90-R97) -/

/-- The chain of half `h`. -/
def Dev.chain (s : Dev) (h : Nat) : ChainSt := s.chains.look {} h

/-- The chain of half `h` replaced. -/
def Dev.setChain (s : Dev) (h : Nat) (x : ChainSt) : Dev := { s with chains := s.chains.put {} h x }

/-- Rows covered by the chain. -/
def Dev.sbRows (s : Dev) (h : Nat) : Nat := min (s.f F.SB_CTL_LENGTH h) 16

/-- The chain of half `h` runs: enabled, not in its safe state, PERST_IN_N high (R387). -/
def Dev.sbRuns (s : Dev) (h : Nat) : Bool := s.b F.SB_CTL_EN h && !s.safe (32 + h) && !s.rst.perstLow

/-- The inputs of port `p`'s position are frozen or not read (R93, R338). -/
def Dev.sbFrozen (s : Dev) (p : Nat) : Bool := (s.chain (p / 256)).frozen || !s.sbRuns (p / 256)

/-- An indicator's bit: on, off, or the level that a 1.5 Hz wave has at this frame, which is a free value. -/
def indBit (ctl : Nat) (wave : Bool) : Bool := ctl == 1 || (ctl == 2 && wave)

/-- The output bits of port `p`'s chain position (R91, R94, R99). CLKREQ_N is pulled low while the slot has power and its link
is not in L1 (PRESUMED, log 14). -/
def Dev.sbOut (s : Dev) (p : Nat) (wave : Bool) : Byte :=
  if s.role p ≠ 0 then 0
  else if s.slotEn p then
    let x := s.slot p
    let powered := s.slotState p == 2 || s.slotState p == 3
    BitVec.ofNat 8 (b2n x.perstN + 2 * b2n x.pwrEn
      + 4 * b2n (!x.indOff && indBit (s.cfNum (portFn p) slotCtlOff 8 2) wave)
      + 8 * b2n (indBit (s.cfNum (portFn p) slotCtlOff 6 2) wave)
      + 16 * b2n (!powered || s.f F.PORT_STATUS_LTSSM p == 6))
  else if s.b F.PORT_CTL_EN p then 1 else 0

/-- Outputs latched by one chain position at SB_LOAD, and what the slot does at that SB_LOAD (R99, R102, R105). -/
def Dev.sbLatchOne (s : Dev) (p : Nat) (v : Byte) : Dev :=
  let x := s.slot p
  let s1 := s.setSlot p { x with latched := v, cmdOut := false }
  let s2 := if x.latched = v then s1 else s1.emit (.sbLatch (p / 256) (p % 256) v)
  if s.hasSlot p then
    let s3 := if x.offAtLoad && !v.getLsbD 0 then s2.slotCut p
      else if x.perstN && v.getLsbD 0 && s2.slotState p == 2 then (s2.toSlot p 3).trainNow p else s2
    s3.cmdDone p x.cmdOut
  else s2

/-- The bits of a frame on SB_DOUT (R91): eight 0 bits, then from the last stage to the first, where stage 8j + b holds bit b of chain
position j. -/
def sbDoutBits (out : List Byte) : List Bool :=
  List.replicate 8 false ++ (out.flatMap (fun v => (List.range 8).map v.getLsbD)).reverse

/-- The byte that eight sampled stages hold, the lowest first; what was not sampled is 0. -/
def sbByte (din : List Bool) (j : Nat) : Byte :=
  BitVec.ofNat 8 (((List.range 8).map (fun b => if din.getD (8 * j + b) false then 2 ^ b else 0)).foldl (· + ·) 0)

/-- The reported power fault of a slot changes: a fault sets Power Fault Detected (R96, R100). -/
def Dev.pwrfltTaken (s : Dev) (p : Nat) (fault : Bool) : Dev :=
  let x := s.slot p
  if x.pwrflt = fault then s
  else
    let s1 := s.setSlot p { x with pwrflt := fault, pfRun := 0 }
    if fault then s1.slotEvent p 1 else s1

/-- The L1 substate of port `p` follows CLKREQ# (R87; PCI Express Base 7.0, log 118): L1.0 while the line is low; with the line released L1.2 or
L1.1, where L1 PM Substates enables it, L1.2 of ASPM only where the partner tolerates the threshold. -/
def Dev.l1Sub (s : Dev) (p : Nat) (low : Bool) : Dev :=
  let l := s.link p
  let en (k : Nat) : Bool := s.cfBit (portFn p) 0x288 (if l.pmL1 then k else k + 2)
  let far := l.pmL1 || decide (s.cfNum (portFn p) 0x288 16 10 * 32 ^ s.cfNum (portFn p) 0x288 29 3
    ≤ min (ltrLatency ((l.ltr.getD 0).toNat % 65536)) (ltrLatency ((l.ltr.getD 0).toNat / 65536)))
  if s.f F.PORT_STATUS_LTSSM p = 6 then
    s.setLink p { l with sub := if low then 0 else if en 0 && far then 2 else if en 1 then 1 else 0 }
  else s

/-- The inputs of a position in an accepted frame (R92, R96): CLKREQ_N as it is, at every port's position (R87); of a slot also PWRFLT_N once two
consecutive frames agree, and a button that is up may be pressed again. -/
def Dev.sbInput (s : Dev) (p : Nat) (v : Byte) : Dev :=
  if s.hasSlot p then
    let x := s.slot p
    let fault := !v.getLsbD 3
    let s1 := s.setSlot p { x with clkreq := !v.getLsbD 4, btnDown := x.btnDown && !v.getLsbD 1
                                   pfRun := if fault = x.pwrflt then 0 else x.pfRun + 1 }
    (if fault ≠ x.pwrflt ∧ 2 ≤ x.pfRun + 1 then s1.pwrfltTaken p fault else s1).l1Sub p (!v.getLsbD 4)
  else if s.role p < 2 then s.l1Sub p (!v.getLsbD 4)
  else s

/-- What slot `p` awaits of a frame: a new frame begins, and its command's bits are shifted out in it. -/
def Dev.sbBegin (s : Dev) (p : Nat) : Dev :=
  let x := s.slot p
  if x.cmdWait || x.lost then s.setSlot p { x with cmdWait := false, cmdOut := x.cmdOut || x.cmdWait, lost := false } else s

/-- One Signboard frame (R90-R93): SB_LOAD latches what the frame before has shifted in; then the new bits go out on SB_DOUT, and `din` is what
SB_DIN shows, stage by stage. -/
def Dev.sbFrame (s : Dev) (h : Nat) (din : List Bool) : Dev :=
  let n := 16 * s.sbRows h
  let wave := s.freeVal.getLsbD 0
  let c := s.chain h
  let s1 := ((c.shifted.zipIdx).foldl (fun s (v, j) => s.sbLatchOne (256 * h + j) v) s).useFree
  let out := (List.range n).map (fun j => s1.sbOut (256 * h + j) wave)
  let s2 := ((List.range n).foldl (fun s j => s.sbBegin (256 * h + j)) s1).emit (.sbDout h (sbDoutBits out))
  if sbByte din n = 0xA5 then
    let inputs := (List.range n).map (sbByte din)
    inputs.zipIdx.foldl (fun s (v, j) => s.sbInput (256 * h + j) v)
      (s2.setChain h { bad := 0, frozen := false, shifted := out, inputs := inputs })
  else if 3 ≤ c.bad + 1 then
    (s2.setChain h { c with bad := 3, frozen := true, shifted := out }).setB F.SB_CTL_CHAIN_FAULT true h
  else s2.setChain h { c with bad := c.bad + 1, shifted := out }

/-- An input of port `p`'s chain position has not been sampled at the other level in the last accepted frame (R96): bit `b` of the position
reads `v`. -/
def Dev.sbAgrees (s : Dev) (p b : Nat) (v : Bool) : Bool :=
  match (s.chain (p / 256)).inputs[p % 256]? with
  | some x => x.getLsbD b == v
  | none => true

end Sys2Proof.Machine
end

