-- ==== Sys2Proof/Machine/RowOps.lean ====
section
/-! DEFINITION. Rows and lanes: the split into ports (R37-R39), equalization (R49-R51), sparing (R58-R69), PRBS (R70-R72). -/

namespace Sys2Proof.Machine

/-! ### Splits (R37, R38) -/

/-- The registers of a port slot but the slot's own. -/
def portSlotKinds : List RegKind :=
  [.portCtl, .portStatus, .portPmCtl, .nerupCtl, .nerupStatus, .nerupReplay, .nerupMoved, .nerupUnsure]

/-- Every register of port slot `p` that begins to serve a port at its reset value but `PORT_STATUS.GEN` (R39). A slot that a reset has kept
is the port's again (R388, R389; DEDUCED, log 111). -/
def Dev.freshSlot (s : Dev) (p : Nat) : Dev :=
  let gen := s.f F.PORT_STATUS_GEN p
  { s with regs := s.regs.filter (fun e => !(portSlotKinds.contains e.1.kind && e.1.i == p)) }.setF F.PORT_STATUS_GEN gen p

/-- Port slot `p` serves no port any more: its slot goes with it (R38, R39). -/
def Dev.unusedSlot (s : Dev) (p : Nat) : Dev :=
  let s1 := if s.slotEn p then s.slotGone p else s
  { s1 with regs := s1.regs.filter (fun e => !((e.1.kind == .slotCfg || e.1.kind == .slotState) && e.1.i == p)) }

/-- A write of ROW_SPLIT (R39). -/
def Dev.wrRowSplit (s : Dev) (r : Nat) (v : Word) : Dev :=
  let slots := (List.range 16).map (fun k => 16 * r + k)
  if slots.any (fun p => s.b F.PORT_CTL_EN p) then s.setB F.ROW_SPLIT_SPLIT_ERR true r
  else
    let s1 := s.setF F.ROW_SPLIT_TREE (getBits v 0 15) r
    let s2 := if getBits v 16 1 = 1 then s1.setB F.ROW_SPLIT_SPLIT_ERR false r else s1
    slots.foldl (fun t p =>
      let t1 := if s2.isPort p && !s.isPort p then t.freshSlot p else if s.isPort p && !s2.isPort p then t.unusedSlot p else t
      t1.setF F.PORT_STATUS_GEN ((t1.f F.PORT_STATUS_GEN p + 1) % 65536) p) s2

/-! ### Lanes -/

/-- A lane's record. -/
def Dev.lane (s : Dev) (r m : Nat) : LaneSt := s.lanes.look {} (17 * r + m)

/-- A lane's record replaced. -/
def Dev.setLane (s : Dev) (r m : Nat) (x : LaneSt) : Dev := { s with lanes := s.lanes.put {} (17 * r + m) x }

/-- A Row's sparing record. -/
def Dev.row (s : Dev) (r : Nat) : RowSt := s.rows.look {} r

/-- A Row's sparing record replaced. -/
def Dev.setRow (s : Dev) (r : Nat) (x : RowSt) : Dev := { s with rows := s.rows.put {} r x }

/-- Rate code of a lane. -/
def Dev.laneRate (s : Dev) (r m : Nat) : Nat := s.f F.LANE_STATUS_RATE r m

/-- The lane's port is enabled. -/
def Dev.laneUsed (s : Dev) (r m : Nat) : Bool := decide (m < 16) && s.b F.PORT_CTL_EN (s.portOfLane r m) && !s.safe r

/-- A receiver error reported to the port (R44, R46, R343). -/
def Dev.rxError (s : Dev) (r m : Nat) : Dev := if m < 16 then s.aerC (portFn (s.portOfLane r m)) 0 else s

/-- `n` receiver errors of a lane, each reported. -/
def Dev.rxErrorN (s : Dev) (r m : Nat) : Nat → Dev
  | 0 => s
  | n + 1 => (s.rxError r m).rxErrorN r m n

/-- `n` code violations, disparity errors or invalid sync headers on lane `m` of Row `r`, at the rates of 8b/10b and 128b/130b (R44-R46): each
is counted in LANE_CODE_ERR and reported as a receiver error. -/
def Dev.codeError (s : Dev) (r m n : Nat) : Dev :=
  if s.laneUsed r m && decide (s.laneRate r m ≤ 4) then (s.inc .laneCodeErr n r m).rxErrorN r m n else s

/-- Code errors on lanes of port `p`, by lane from its lowest. -/
def Dev.codeErrors (s : Dev) (p : Nat) (bad : List Nat) : Dev :=
  (s.lanesOf p).foldl (fun s m => s.codeError (p / 16) m (bad.getD (m - p % 16) 0)) s

/-- Lanes of port `p` found out of alignment in L0: DESKEWED clear and a receiver error (R53, R54). The receiver ignores a lane that the spare
replaces (R65). -/
def Dev.skewErrors (s : Dev) (p : Nat) (bad : BitVec 16) : Dev :=
  let r := p / 16
  (s.lanesOf p).foldl (fun s m =>
    if bad.getLsbD (m - p % 16) && s.laneUsed r m && decide (s.laneRate r m ≤ 6) && !s.b F.LANE_STATUS_SUBSTITUTED r m then
      (s.setB F.LANE_STATUS_DESKEWED false r m).rxError r m
    else s) s

/-- What the lanes' receivers report of a TLP that comes in (R44-R46, R54). -/
def Dev.rxErrors (s : Dev) (p : Nat) (rx : RxErr) : Dev := (s.codeErrors p rx.code).skewErrors p rx.skew

/-- The lane's partner may set these coefficients: the rules that PCI Express Base 7.0 derives from FS = 48 and LF = 12 (R49,
log 13). -/
def coefOk (rate cM2 cM1 c0 cP1 : Nat) : Bool :=
  decide (cM1 ≤ 12) && decide (cM2 ≤ 6) && (decide (5 ≤ rate) || cM2 == 0)
    && cM2 + cM1 + c0 + cP1 == 48 && decide (12 + cM1 + cP1 ≤ c0 + cM2)

/-- Neighbour `k` of a coefficient set (R50): one step of pre-cursor, post-cursor or second pre-cursor, the main cursor taking
up the difference; `none` where a magnitude would leave 0-63. -/
def neighbour (c : List Nat) (k : Nat) : Option (List Nat) :=
  let place := if k < 2 then 1 else if k < 4 then 3 else 0
  let x := c.getD place 0
  let m := c.getD 2 0
  if k % 2 = 0 then (if x = 0 ∨ 63 ≤ m then none else some ((c.set place (x - 1)).set 2 (m + 1)))
  else (if m = 0 ∨ 63 ≤ x then none else some ((c.set place (x + 1)).set 2 (m - 1)))

/-- The first neighbour from `k` on that exists, with its number. -/
def nextNbr (c : List Nat) (lim k : Nat) : Option (Nat × List Nat) :=
  (List.range lim).findSome? (fun j => if k ≤ j then (neighbour c j).map (fun d => (j, d)) else none)

/-- A request of coefficients sent to the partner. -/
def Dev.askCoef (s : Dev) (r m : Nat) (preset : Option Nat) (c : List Nat) : Dev :=
  (s.emit (.eqRequest r m preset (c.getD 0 0) (c.getD 1 0) (c.getD 2 0) (c.getD 3 0))).bump F.LANE_EQ_STATUS_REQ_COUNT 1 r m

/-- The coefficients of a partner's transmitter that the device does not set itself: a free value, since a preset's coefficients and the
initial setting are the partner's to know. -/
def Dev.presetCoef (s : Dev) : List Nat :=
  (List.range 4).map (fun k => (s.freeVal.toNat >>> (6 * k)) % 64)

/-- The MODE of an equalization (R50): MODE 2 with a preset that does not exist acts as MODE 3. -/
def eqMode (ctl : Word) : Nat := if getBits ctl 0 2 = 2 ∧ 11 ≤ getBits ctl 2 4 then 3 else getBits ctl 0 2

/-- An upstream port requests in phase 2 and answers in phase 3, a downstream port answers first (R49). A fabric port has neither direction by
any rule; it requests first and answers throughout (log 107). -/
def Dev.answersFirst (s : Dev) (r m : Nat) : Bool := s.role (s.portOfLane r m) == 0

/-- Equalization of a lane ends with the best set, or with what the partner's transmitter had (R50, R51, R48). -/
def Dev.eqFinish (s : Dev) (r m : Nat) (x : LaneSt) (preset : Nat) : Dev :=
  let s1 := if x.best.isSome then s.askCoef r m (if x.scan = 11 then none else x.best) x.coef else s
  let c := x.coef
  let pre := decide (5 ≤ x.rate) && decide (c.getD 2 0 < 2 * c.getD 3 0)
  let s2 := (((s1.setF F.LANE_EQ_STATUS_FINAL_PRESET preset r m).setF F.LANE_EQ_STATUS_C_M1 (c.getD 1 0) r m).setF
    F.LANE_EQ_STATUS_C_P1 (c.getD 3 0) r m).setF F.LANE_EQ_STATUS_C_M2 (if 5 ≤ x.rate then c.getD 0 0 else 0) r m
  let s3 := if pre then s2.emit (.eqPrecode r m) else s2
  ((s3.setB F.LANE_EQ_STATUS_EQ_DONE true r m).setB F.LANE_EQ_STATUS_PRECODE pre r m).setLane r m
    { rate := x.rate, phase := 3, tx := x.tx, txPre := x.txPre, margin := x.margin, limit := x.limit }

/-- Equalization ends with the coefficients that the partner's transmitter has of itself (R50, R51). -/
def Dev.eqKeep (s : Dev) (r m : Nat) (x : LaneSt) : Dev :=
  s.useFree.eqFinish r m { x with best := none, coef := s.presetCoef } 15

/-- The next neighbour of the best set is requested, or the search ends (R50). -/
def Dev.eqNext (s : Dev) (r m : Nat) (x : LaneSt) (k maxReq : Nat) : Dev :=
  match (if x.n < maxReq then nextNbr x.coef (if 5 ≤ x.rate then 6 else 4) k else none) with
  | some (j, c) => (s.askCoef r m none c).setLane r m { x with nbr := j, tryC := c, n := x.n + 1 }
  | none => s.eqFinish r m x (x.best.getD 15)

/-- The device begins to request on a lane (R50): preset 0 of the scan, FIXED_PRESET, or nothing. -/
def Dev.eqFirst (s : Dev) (r m : Nat) : Dev :=
  let x := { s.lane r m with phase := if s.answersFirst r m then 3 else 2 }
  let ctl := x.ctl.getD 0
  if eqMode ctl = 3 then s.eqKeep r m x
  else (s.askCoef r m (some (if eqMode ctl = 2 then getBits ctl 2 4 else 0)) []).setLane r m x

/-- The end of an evaluation in the course of a lane's requests (R50, R51). -/
def Dev.eqStep (s : Dev) (r m fom : Nat) (rejected : Bool) : Dev :=
  let x := s.lane r m
  let ctl := x.ctl.getD 0
  let s1 := if rejected then s.setB F.LANE_EQ_STATUS_REJECTED true r m else s
  let maxReq := getBits ctl 16 6
  if eqMode ctl = 2 then s1.eqKeep r m x
  else if x.scan < 11 then
    let better := !rejected && (x.best.isNone || decide (x.fom < fom))
    let y := if better then { x with best := some x.scan, fom := fom } else x
    if x.scan < 10 then (s1.askCoef r m (some (x.scan + 1)) []).setLane r m { y with scan := x.scan + 1 }
    else if y.best.isNone then s1.eqKeep r m y
    else
      let z := { y with coef := s.presetCoef }
      if eqMode ctl = 1 ∨ maxReq = 0 then (s1.useFree).eqFinish r m z (y.best.getD 15)
      else (s1.useFree).eqNext r m { z with scan := 11 } 0 maxReq
  else if !rejected && decide (x.fom < fom) then s1.eqNext r m { x with coef := x.tryC, fom := fom } 0 maxReq
  else s1.eqNext r m x (x.nbr + 1) maxReq

/-- The end of one evaluation. A downstream port that still answers its partner's requests begins its own with it (R49). -/
def Dev.eqEval (s : Dev) (r m fom : Nat) (rejected : Bool) : Dev :=
  let x := s.lane r m
  if x.ctl.isNone then s
  else if s.answersFirst r m && x.phase == 2 then
    let s1 := s.eqFirst r m
    if (s1.lane r m).ctl.isNone then s1 else s1.eqStep r m fom rejected
  else s.eqStep r m fom rejected

/-- Equalization of one lane begins at `rate`, with LANE_EQ_CTL as it stands (R49, R52). -/
def Dev.eqStartLane (s : Dev) (rate r m : Nat) : Dev :=
  let x := s.lane r m
  let s1 := ((s.setB F.LANE_EQ_STATUS_EQ_DONE false r m).setF F.LANE_EQ_STATUS_REQ_COUNT 0 r m).setB F.LANE_EQ_STATUS_REJECTED false r m
  let keep : LaneSt := { tx := x.tx, txPre := x.txPre, limit := x.limit }
  if rate < 2 then s1.setLane r m keep
  else
    let s2 := (s1.emit (.eqReport r m 48 12)).setLane r m { keep with ctl := some (s.reg .laneEqCtl r m), rate := rate, phase := 2 }
    if s2.answersFirst r m then s2 else s2.eqFirst r m

/-- Equalization begins on a port's lanes for a rate (R49, R52). -/
def Dev.eqStart (s : Dev) (p rate : Nat) : Dev := (s.lanesOf p).foldl (fun s m => s.eqStartLane rate (p / 16) m) s

/-- The end of a lane's equalization whose evaluations no command has told, or not to their end (log 131): MODE 3 keeps what the partner has; the
best set found so far stands; where none was found, the preset, the count of requests and a rejection are free values. -/
def Dev.eqUnseen (s : Dev) (r m : Nat) : Dev :=
  let x := s.lane r m
  let mode := eqMode (x.ctl.getD 0)
  if mode = 3 then s.eqKeep r m x
  else if x.best.isSome then
    if x.scan = 11 then s.eqFinish r m x (x.best.getD 15) else s.useFree.eqFinish r m { x with coef := s.presetCoef } (x.best.getD 15)
  else
    let v := s.freeVal.toNat >>> 24
    let s1 := s.useFree.eqFinish r m { x with best := none, coef := s.presetCoef } (if mode = 2 then 15 else v % 11)
    (s1.setF F.LANE_EQ_STATUS_REQ_COUNT (if mode = 2 then 1 else v / 16 % 64) r m).setB F.LANE_EQ_STATUS_REJECTED (v.testBit 10) r m

/-- A lane in L0 at `rate`: its equalization at that rate, which is performed at 8.0 GT/s and above, is completed (R49); below it there is none. -/
def Dev.eqSettleLane (s : Dev) (rate r m : Nat) : Dev :=
  if rate < 2 then s.eqStartLane rate r m
  else
    let x := s.lane r m
    let s1 := if x.phase ≠ 0 ∧ x.rate = rate then s else s.eqStartLane rate r m
    if s1.b F.LANE_EQ_STATUS_EQ_DONE r m then s1 else s1.eqUnseen r m

/-- The lanes of port `p` that its link uses, as it enters L0 at `rate`: where the rate is a new one, or an equalization is under way. -/
def Dev.eqSettle (s : Dev) (p rate : Nat) (fresh : Bool) : Dev :=
  (s.lanesOf p).foldl (fun s m =>
    if s.laneRate (p / 16) m ≠ 7 ∧ (fresh = true ∨ (s.lane (p / 16) m).phase ≠ 0) then s.eqSettleLane rate (p / 16) m else s) s

/-- Equalization of a port's lanes is over: the link is in L0, or gone. -/
def Dev.eqEnd (s : Dev) (p : Nat) : Dev :=
  (s.lanesOf p).foldl (fun s m =>
    let x := s.lane (p / 16) m
    if x.phase = 0 then s
    else s.setLane (p / 16) m { tx := x.tx, txPre := x.txPre, margin := x.margin, limit := x.limit }) s

/-- A partner's request to lane `m`'s transmitter is answered now: in phase 3 by an upstream port, in phase 2 by a downstream one (R49). -/
def Dev.eqAnswers (s : Dev) (r m : Nat) : Bool :=
  let p := s.portOfLane r m
  let x := s.lane r m
  s.laneUsed r m && s.f F.PORT_STATUS_LTSSM p == 4 && decide (2 ≤ x.rate)
    && (if s.role p = 0 then x.phase == 2 else if s.role p = 1 then x.phase == 3 else decide (x.phase ≠ 0))

/-! ### Flit logging and margining in configuration space (R5, R55; places of PCI Express Base 7.0, log 13) -/

/-- FBER measurement of the link of port `p` is enabled. -/
def Dev.fberOn (s : Dev) (p : Nat) : Bool := s.cfBit (portFn p) 0x2B0 0

/-- `n` more in the field of `w` bits at `lo` of an FBER counter, which stops at its highest value. -/
def Dev.fberAdd (s : Dev) (p off lo w n : Nat) : Dev :=
  let f := portFn p
  let old := s.cfNum f off lo w
  if s.fberOn p then s.setCf f off (s.cf f off + BitVec.ofNat 32 (2 ^ lo * (min (old + n) (2 ^ w - 1) - old))) else s

/-- The FBER counters cleared. -/
def Dev.fberClear (s : Dev) (p : Nat) : Dev := (List.range 6).foldl (fun s k => s.setCf (portFn p) (0x2B4 + 4 * k) 0) s

/-- `n` Flits with errors on the link of port `p` are counted while Flit Error Counter Enable is set; the count of Flit Error Counter Status
stops at 255, and one that reaches the trigger count interrupts where that is enabled. -/
def Dev.flitCount (s : Dev) (p n : Nat) : Dev :=
  let f := portFn p
  let old := s.cfNum f 0x2AC 24 8
  let new := min (old + n) 255
  let at_ := s.cfNum f 0x2AC 8 8
  if s.cfBit f 0x2AC 0 then
    let s1 := s.setCf f 0x2AC ((s.cf f 0x2AC &&& 0xFFFFFF) ||| BitVec.ofNat 32 (2 ^ 24 * new))
    if decide (0 < at_) && decide (old < at_) && decide (at_ ≤ new) && s.cfBit f 0x2AC 1 && s.role p == 0 then s1.sendMsi p else s1
  else s

/-- The Flit Error Log takes a Flit that could not be corrected: its width and kind, and its syndromes, which are free, where no entry is valid;
else it says that there are more. It is an invalid Flit for the FBER measurement. -/
def Dev.flitLog (s : Dev) (p : Nat) : Dev :=
  let f := portFn p
  let w := Nat.log2 (s.f F.PORT_STATUS_WIDTH p)
  ((if s.cfBit f 0x2A4 0 then s.setCfBits f 0x2A4 0x8000 true
    else ((s.setCf f 0x2A4 (BitVec.ofNat 32 (0x20001 + 2 * w))).setCf f 0x2A8 (s.freeVal.truncate 32)).useFree).flitCount p 1).fberAdd p 0x2B8 16 16 1

/-- The lane's Margining Lane Status shows an answer beside what the control asked. -/
def Dev.marginShow (s : Dev) (r m st : Nat) : Dev :=
  let f := portFn (s.portOfLane r m)
  let off := 0x238 + 4 * s.f F.LANE_STATUS_LOGICAL_LANE r m
  s.setCf f off ((s.cf f off &&& 0xFFFF) ||| BitVec.ofNat 32 (65536 * (s.cfNum f off 0 7 + 256 * st)))

/-- A margining answer. -/
def Dev.marginSay (s : Dev) (r m : Nat) (ok : Bool) (errs : Nat) : Dev :=
  (s.marginShow r m ((if ok then 128 else 0) + min errs 63)).emit (.marginAnswer r m ok errs)

/-- What a report command answers (R55): the table's parameters in the coding of PCI Express Base 7.0 (PRESUMED, log 13). The sampling rates and
the count of samples are not stated: free values. -/
def Dev.marginParam (s : Dev) (r m : Nat) (w : MarginReport) : BitVec 8 :=
  match w with
  | .capabilities => 0x17
  | .voltageSteps => 64
  | .timingSteps => 32
  | .maxTimingOffset => 50
  | .maxVoltageOffset => if 5 ≤ s.laneRate r m then 10 else 30
  | .maxLanes => BitVec.ofNat 8 (s.portWidth (s.portOfLane r m) - 1)
  | .samplingRateVoltage | .samplingRateTiming | .sampleCount => s.freeVal.truncate 8

/-- A margining command on a traffic lane at 8.0 GT/s or above whose link is up (R55-R57). `errs` is what the sampler sees. A step on a lane
that was condemned or substituted before it is answered as one that is stopped: not carried out, with 63 errors (DESIGN CHOICE, log 110). -/
def Dev.marginCmd (s : Dev) (r m : Nat) (c : MarginCmd) (errs : Nat) : Dev :=
  let x := s.lane r m
  let step (ok : Bool) : Dev :=
    if ok then
      if s.b F.LANE_STATUS_CONDEMNED r m || s.b F.LANE_STATUS_SUBSTITUTED r m then s.marginSay r m false 63
      else
        let n := min errs 63
        (s.setLane r m { x with margin := decide (n ≤ x.limit) }).marginSay r m (decide (n ≤ x.limit)) n
    else s.marginSay r m false 0
  match c with
  | .report w => ((s.marginShow r m (s.marginParam r m w).toNat).emit (.marginReport r m w (s.marginParam r m w))).useFree
  | .timing _ k => step (decide (k.val ≤ 32))
  | .voltage _ k => step (decide (k.val ≤ 64))
  | .setErrorLimit n => (s.setLane r m { x with limit := n }).marginSay r m true n
  | .clearLog => s.marginSay r m true 0
  | .stop => (s.setLane r m { x with margin := false }).marginSay r m true 0

/-- Lane `m` can be margined now: a traffic lane at 8.0 GT/s or above whose link is up (R55). -/
def Dev.marginable (s : Dev) (r m : Nat) : Bool :=
  s.laneUsed r m && decide (2 ≤ s.laneRate r m) && decide (s.laneRate r m ≤ 6) && s.b F.PORT_STATUS_DL_ACTIVE (s.portOfLane r m)

/-- What a report command's payload asks for (PCI Express Base 7.0, log 13). -/
def reportOf (payload : Nat) : Option MarginReport :=
  match payload with
  | 0x88 => some .capabilities
  | 0x89 => some .voltageSteps
  | 0x8A => some .timingSteps
  | 0x8B => some .maxTimingOffset
  | 0x8C => some .maxVoltageOffset
  | 0x8D => some .samplingRateVoltage
  | 0x8E => some .samplingRateTiming
  | 0x8F => some .sampleCount
  | 0x90 => some .maxLanes
  | _ => none

/-- The command that Margining Lane Control gives: Receiver Number in [2:0], which names this receiver or every one, Margin Type in [5:3], Margin
Payload in [15:8] (PCI Express Base 7.0, log 13). -/
def marginOf (own w : Nat) : Option MarginCmd :=
  let pay := w / 256 % 256
  if w % 8 ≠ 0 ∧ w % 8 ≠ own then none
  else match w / 8 % 8 with
    | 1 => (reportOf pay).map .report
    | 2 => if 0xC0 ≤ pay then some (.setErrorLimit (Fin.ofNat 64 pay)) else if pay = 0x0F then some .stop
        else if pay = 0x55 then some .clearLog else none
    | 3 => some (.timing (!pay.testBit 6) (Fin.ofNat 64 pay))
    | 4 => some (.voltage (!pay.testBit 7) (Fin.ofNat 128 pay))
    | _ => none

/-! ### Sparing -/

/-- Row lane that carries logical lane `l` of port `p`, if any does. -/
def Dev.laneFor (s : Dev) (p l : Nat) : Option Nat :=
  (s.lanesOf p).find? (fun m => s.f F.LANE_STATUS_LOGICAL_LANE (p / 16) m == l && s.laneRate (p / 16) m != 7)

/-- Margining Lane Control of logical lane `l` of port `p` is written with `w`: the command it gives is carried out. What the sampler sees at a
step no command tells: a free value. -/
def Dev.marginWrite (s : Dev) (p l w : Nat) : Dev :=
  match s.laneFor p l, marginOf (if s.role p = 1 then 6 else 1) w with
  | some m, some c => if s.marginable (p / 16) m then (s.useFree).marginCmd (p / 16) m c (s.freeVal.toNat % 64) else s
  | _, _ => s
/-! ### Sparing -/

/-- Sparing is available (R58). -/
def Dev.spareAvail (s : Dev) (r : Nat) : Bool :=
  let p := s.spareOwner r
  s.b F.ROW_SPARE_CTL_SPARE_EN r && s.isPort p && s.b F.PORT_CTL_EN p && s.f F.PORT_STATUS_LTSSM p == 3
    && s.b F.PORT_STATUS_FLIT p && decide (5 ≤ s.f F.PORT_STATUS_RATE p) && decide (s.f F.PORT_STATUS_RATE p ≤ 6)
    && !s.safe r

/-- RX_STATE. -/
def Dev.rxSpare (s : Dev) (r : Nat) : Nat := s.f F.ROW_SPARE_STATUS_RX_STATE r
/-- TX_STATE. -/
def Dev.txSpare (s : Dev) (r : Nat) : Nat := s.f F.ROW_SPARE_STATUS_TX_STATE r

/-- The spare lane at rest: OFF, and idle. -/
def Dev.spareIdle (s : Dev) (r : Nat) : Dev :=
  ((((s.setF F.LANE_STATUS_RATE 7 r 16).setB F.LANE_STATUS_RX_LOCK false r 16).setB F.LANE_STATUS_CODE_LOCK false r 16).setB
    F.LANE_STATUS_DESKEWED false r 16).setF F.LANE_STATUS_LOGICAL_LANE 0 r 16

/-- Sparing is negotiated: shadow training of logical lane 0 begins, at its rate and with its transmitter coefficients (R61, R62). A spare that
already carries a lane goes on with it. -/
def Dev.spareNegotiated (s : Dev) (r : Nat) : Dev :=
  let p := s.spareOwner r
  let x := match s.laneFor p 0 with
    | some m => s.lane r m
    | none => {}
  let s1 := if s.rxSpare r ≤ 1 then
      ((s.setF F.ROW_SPARE_STATUS_RX_STATE 2 r).setF F.LANE_STATUS_RATE (s.f F.PORT_STATUS_RATE p) r 16).setF F.LANE_STATUS_LOGICAL_LANE 0 r 16
    else s
  if s.txSpare r ≤ 1 then
    ((s1.setF F.ROW_SPARE_STATUS_TX_STATE 2 r).setF F.ROW_SPARE_STATUS_TX_MIRROR_LANE 0 r).setLane r 16
      { s1.lane r 16 with tx := x.tx, txPre := x.txPre }
  else s1

/-- The exchange for logical lane `l` starts, or the lane cannot be spared (R65, R69 and the collisions). An exchange for that same lane goes
on. -/
def Dev.spareStart (s : Dev) (r l : Nat) : Dev :=
  if s.rxSpare r = 3 then
    (((s.setF F.ROW_SPARE_STATUS_RX_STATE 4 r).setF F.ROW_SPARE_STATUS_RX_SUBST_LANE l r).setRow r
      { s.row r with seq := none }).sendSpare r (.req l)
  else if s.rxSpare r = 4 ∧ s.f F.ROW_SPARE_STATUS_RX_SUBST_LANE r = l then s
  else s.setB F.ROW_SPARE_STATUS_SPARE_MISSED true r

/-- Margining of a lane stops with an error count of 63 (R57). -/
def Dev.marginStop (s : Dev) (r m : Nat) : Dev :=
  let x := s.lane r m
  if x.margin then (s.setLane r m { x with margin := false }).marginSay r m false 63 else s

/-- Lane `m` condemned; in the owner port with AUTO_SWITCH the exchange follows (R64, R65, R69). Errors at the spare's position condemn the
logical lane that it carries (DEDUCED, log 107). -/
def Dev.condemn (s : Dev) (r m : Nat) : Dev :=
  let s1 := (s.setB F.LANE_STATUS_CONDEMNED true r m).marginStop r m
  if s.b F.ROW_SPARE_CTL_SPARE_EN r && (m == 16 || s.portOfLane r m == s.spareOwner r) && s.b F.ROW_SPARE_CTL_AUTO_SWITCH r then
    s1.spareStart r (s.f F.LANE_STATUS_LOGICAL_LANE r m)
  else s1

/-- Lanes of the Row in the order of their logical numbers. -/
def Dev.byLogical (s : Dev) (r : Nat) : List Nat :=
  (List.range 16).flatMap (fun l => (List.range 16).filter (fun m => s.f F.LANE_STATUS_LOGICAL_LANE r m == l))

/-- The spare lane carries a position of the owner port's Flits: from the Flit that SPARE_ACK named on (R65). -/
def Dev.spareCarries (s : Dev) (r : Nat) : Bool := s.rxSpare r == 5 || (s.rxSpare r == 4 && (s.row r).seq.isSome)

/-- The FEC symbols of a window charged to the lane that carried them, and condemnation (R47, R64). A lane whose lock is still lost is
condemned again, since condemnation is re-evaluated each window. -/
def Dev.fecWindow (s : Dev) (r m n : Nat) : Dev :=
  let up := if m = 16 then s.spareCarries r && !s.safe r
    else s.laneUsed r m && decide (5 ≤ s.laneRate r m) && decide (s.laneRate r m ≤ 6) && !s.b F.LANE_STATUS_SUBSTITUTED r m
  let lost := decide (m < 16) && !s.b F.LANE_STATUS_RX_LOCK r m && s.f F.PORT_STATUS_LTSSM (s.portOfLane r m) == 3
  if up then
    let p := if m = 16 then s.spareOwner r else s.portOfLane r m
    let l := s.f F.LANE_STATUS_LOGICAL_LANE r m
    let s1 := ((s.inc .laneFecCorr n r m).flitCount p n).fberAdd p (0x2BC + l / 4 * 4) (8 * (l % 4)) 8 n
    if s.f F.ROW_CONDEMN_CORR_LIMIT r < n ∨ lost = true then s1.condemn r m else s1
  else s

/-- Errors that a locked checker counted (R71). -/
def Dev.prbsCount (s : Dev) (r m n : Nat) : Dev := if s.b F.LANE_PRBS_CTL_LOCKED r m then s.inc .lanePrbsErr n r m else s

/-- The end of a condemnation window (R44-R47, R64, R71). A transmitter that has mirrored a lane since before the window takes the
substitution as made (log 15). -/
def Dev.condemnWindow (s : Dev) (r : Nat) (e : RowErrs) : Dev :=
  let s0 := if s.txSpare r = 4 then s.setF F.ROW_SPARE_STATUS_TX_STATE 5 r else s
  let s1 := (s.byLogical r ++ [16]).foldl (fun s m => s.fecWindow r m (e.fec.getD m 0)) s0
  (List.range 17).foldl (fun s m => (s.codeError r m (e.code.getD m 0)).prbsCount r m (e.prbs.getD m 0)) s1

/-- A substitution or an exchange ends with the link: DL_Down, a rate change, the owner port disabled (R68). -/
def Dev.spareEnd (s : Dev) (r : Nat) : Dev :=
  let s1 := (((((s.setF F.ROW_SPARE_STATUS_RX_STATE 0 r).setF F.ROW_SPARE_STATUS_TX_STATE 0 r).setF
    F.ROW_SPARE_STATUS_RX_SUBST_LANE 0 r).setF F.ROW_SPARE_STATUS_TX_MIRROR_LANE 0 r).setRow r {}).spareIdle r
  (List.range 16).foldl (fun s m => if s.b F.LANE_STATUS_SUBSTITUTED r m then s.setB F.LANE_STATUS_SUBSTITUTED false r m else s) s1

/-- The owner port enters L0 (R61, R63): the offers are made anew, and an UNFIT spare may be trained again. -/
def Dev.spareL0 (s : Dev) (p : Nat) : Dev :=
  let r := p / 16
  if s.spareOwner r = p then
    let s1 := s.setRow r { seq := (s.row r).seq }
    if s.rxSpare r = 6 then s1.setF F.ROW_SPARE_STATUS_RX_STATE 2 r else s1
  else s

/-- The sparing of port `p`'s Row ends if the port owns the spare. -/
def Dev.spareEndOf (s : Dev) (p : Nat) : Dev := if s.spareOwner (p / 16) = p then s.spareEnd (p / 16) else s

/-- A switchover is in progress at port `p`, or a lane of it is condemned and neither SWITCH_DONE nor SPARE_MISSED is set: replays are not
counted (R67, R206). -/
def Dev.switching (s : Dev) (p : Nat) : Bool :=
  let r := p / 16
  s.spareOwner r == p && s.b F.ROW_SPARE_CTL_SPARE_EN r && (s.rxSpare r == 4
    || (!s.b F.ROW_SPARE_STATUS_SWITCH_DONE r && !s.b F.ROW_SPARE_STATUS_SPARE_MISSED r
      && (s.lanesOf p).any (fun m => s.b F.LANE_STATUS_CONDEMNED r m && !s.b F.LANE_STATUS_SUBSTITUTED r m)))

/-- Recovery at the same rate abandons a switchover that is under way (collisions of 02_rows_and_lanes.md). -/
def Dev.spareRecovery (s : Dev) (p : Nat) : Dev :=
  let r := p / 16
  if s.spareOwner r = p then
    let s1 := if s.rxSpare r = 4 then
      (((s.setF F.ROW_SPARE_STATUS_RX_STATE 2 r).setF F.ROW_SPARE_STATUS_RX_SUBST_LANE 0 r).setF F.LANE_STATUS_LOGICAL_LANE 0 r 16).setRow r
        { s.row r with seq := none } else s
    if s1.txSpare r = 4 then (s1.setF F.ROW_SPARE_STATUS_TX_STATE 2 r).setF F.ROW_SPARE_STATUS_TX_MIRROR_LANE 0 r else s1
  else s

/-! ### PRBS -/

/-- A lane on which the generator and checker may run (R70). -/
def Dev.prbsOk (s : Dev) (r m : Nat) : Bool :=
  if m = 16 then !s.b F.ROW_SPARE_CTL_SPARE_EN r else !s.b F.PORT_CTL_EN (s.portOfLane r m)

/-- One error injected by the generator (R72). -/
def Dev.prbsInject (s : Dev) (r m : Nat) : Dev := if s.b F.LANE_PRBS_CTL_TX_EN r m then s.emit (.prbsError r m) else s

/-- A write of LANE_PRBS_CTL (R70-R72). -/
def Dev.wrPrbs (s : Dev) (r m : Nat) (v : Word) : Dev :=
  if getBits v 0 2 ≠ 0 ∧ s.prbsOk r m = false then s.intErr r
  else
    let locked := s.b F.LANE_PRBS_CTL_LOCKED r m && getBits v 1 1 == 1
    let s1 := s.setReg .lanePrbsCtl ((v &&& 0x3E3F) ||| (if locked then 0x80 else 0)) r m
    let s2 := if getBits v 6 1 = 1 then s1.setReg .lanePrbsErr 0 r m else s1
    if getBits v 8 1 = 1 then s2.prbsInject r m else s2

/-- A write of ROW_SPARE_CTL (R69 and the collisions): OWNER_SLOT and SPARE_EN hold while the owner port is enabled. FORCE for a lane number that no
logical lane of the owner port has starts nothing (log 103). -/
def Dev.wrSpareCtl (s : Dev) (r : Nat) (v : Word) : Dev :=
  let old := s.reg .rowSpareCtl r
  if getBits old 0 5 ≠ getBits v 0 5 ∧ s.b F.PORT_CTL_EN (s.spareOwner r) = true then s.intErr r
  else if getBits v 10 1 = 1 ∧ s.rxSpare r = 4 then s
  else
    let s1 := s.setReg .rowSpareCtl (v &&& 0x3FF) r
    if getBits v 10 1 = 1 ∧ (s1.laneFor (s1.spareOwner r) (getBits v 6 4)).isSome = true then s1.spareStart r (getBits v 6 4) else s1

end Sys2Proof.Machine
end

