-- ==== Sys2Proof/Machine/HallOps.lean ====
section
/-! DEFINITION. The Hall's shared operations: control messages (R202, R211), link states and failover (R197,
R206-R210), the master's routes and tree (R204), the Hall Commit (R213-R216), lock arbitration (R217, R218). -/

namespace Sys2Proof.Machine

/-! ### Control messages -/

/-- The port of the tree path toward member `m`. -/
def Dev.treePort (s : Dev) (m : Nat) : Option Nat :=
  let e := s.ac .tree m
  if e.getLsbD 9 then some (getBits e 0 9) else none

/-- Port `p` is a twin port (R226). -/
def Dev.isTwinPort (s : Dev) (p : Nat) : Bool :=
  s.b F.TWIN_CTL_EN &&
    (List.range (min (s.f F.TWIN_ROUTE_COUNT) 4)).any (fun k => getBits (s.reg .twinRoute) (3 + 9 * k) 9 == p)

/-- The Hall's own fabric ports that carry control messages: JOIN or ACTIVE. -/
def Dev.ctlPorts (s : Dev) : List Nat :=
  s.fabricPorts.filter (fun p => !s.isTwinPort p && (s.nstate p == 4 || s.nstate p == 5))

/-- The tree ports of this member; before any tree is known, every port that carries control messages (log 19). -/
def Dev.treePorts (s : Dev) : List Nat :=
  let l := ((List.range 16).filterMap s.treePort).dedup
  if l.isEmpty then s.ctlPorts else l

/-- The port toward member `m` for a tree message: the tree's, else a port whose peer it is, else the first (log 19). -/
def Dev.portToward (s : Dev) (m : Nat) : Option Nat :=
  match s.treePort m with
  | some p => some p
  | none =>
    match s.ctlPorts.find? (fun p => s.f F.NERUP_STATUS_PEER_MEMBER p == m) with
    | some p => some p
    | none => s.ctlPorts.head?

/-- The standby gets a copy of a message of this type to `dst` (R195): tables pushed and phase messages. -/
def Dev.copied (s : Dev) (dst mtype : Nat) : Bool :=
  let b := s.f F.HALL_CTL_STANDBY_ID
  [0x20, 0x21, 0x23, 0x25, 0x27, 0x29].contains mtype && b != s.f F.HALL_CTL_MASTER_ID && b != s.me && b != dst
    && (s.f F.HALL_STATUS_MEMBERS).testBit b

/-- A message sent along the tree to its addressee, and its copy to the standby where it has one. A Hall block in its safe state
sends no phase message (R338). -/
def Dev.sendTree (s : Dev) (dst mtype epoch tag : Nat) (payload : List Byte) : Dev :=
  let m := s.msg mtype dst false epoch tag payload
  if s.safe (74 + s.ic) && [0x21, 0x23, 0x25, 0x27, 0x29].contains mtype then s else
  let s1 := if dst = s.me then s else match s.portToward dst with
    | some p => s.sendCtl p m
    | none => s
  if s.copied dst mtype then
    match s.portToward (s.f F.HALL_CTL_STANDBY_ID) with
    | some p => s1.emit (.standbyCopy p m)
    | none => s1
  else s1

/-- STAGE for member `dst` (R211, R213): broadcast, and since it carries that member's CRC, with DST_MEMBER naming it (DEDUCED, log 126). -/
def Dev.sendStage (s : Dev) (dst epoch tag : Nat) (payload : List Byte) : Dev :=
  let m := s.msg 0x21 dst true epoch tag payload
  if s.safe (74 + s.ic) then s
  else
    let s1 := s.treePorts.foldl (fun s p => s.sendCtl p m) s
    if s.copied dst 0x21 then
      match s.portToward (s.f F.HALL_CTL_STANDBY_ID) with
      | some p => s1.emit (.standbyCopy p m)
      | none => s1
    else s1

/-- A message broadcast on the tree. -/
def Dev.sendBcast (s : Dev) (mtype epoch tag : Nat) (payload : List Byte) : Dev :=
  s.treePorts.foldl (fun s p => s.sendCtl p (s.msg mtype 0 true epoch tag payload)) s

/-- A HALL record posted (R411). -/
def Dev.postHall (s : Dev) (code member epoch : Nat) : Dev :=
  s.post 0x07 2 [BitVec.ofNat 32 (code + 16 * member), BitVec.ofNat 32 epoch]

/-- Members in the Hall, as bits. -/
def Dev.members (s : Dev) : List Nat := (List.range 16).filter (fun m => (s.f F.HALL_STATUS_MEMBERS).testBit m)

/-- A member's bit in MEMBERS set or cleared. -/
def Dev.setMember (s : Dev) (m : Nat) (on : Bool) : Dev :=
  let x := s.f F.HALL_STATUS_MEMBERS
  if x.testBit m = on then s
  else (s.setF F.HALL_STATUS_MEMBERS (if on then x + 2 ^ m else x - 2 ^ m)).postHall (if on then 4 else 3) m s.epoch

/-- A Hall of one reads as its own master (R192). -/
def Dev.isMaster (s : Dev) : Bool := if s.b F.HALL_CTL_EN then s.b F.HALL_STATUS_IS_MASTER else true

/-- The device is CURRENT (R192, R215). -/
def Dev.current (s : Dev) : Bool := if s.b F.HALL_CTL_EN then s.b F.HALL_STATUS_CURRENT else true

/-! ### Link states (R197, R210) -/

/-- LINK_STATE recorded at the master: member, port, state, peer (R210). -/
def Dev.noteLink (s : Dev) (m p st peer peerPort : Nat) : Dev :=
  { s with hall := { s.hall with links := s.hall.links.put (0, 0, 0) (512 * m + p) (st, peer, peerPort) } }

/-- STATE of a fabric port changes, and the master is told (R210); a twin port tells no one (R226). In JOIN the control queue may go. -/
def Dev.toState (s : Dev) (p st : Nat) : Dev :=
  let s0 := s.setF F.NERUP_STATUS_STATE st p
  let s1 := if st = 4 then s0.ctlRun p else s0
  if s1.isTwinPort p then s1
  else
    let peer := s1.f F.NERUP_STATUS_PEER_MEMBER p
    let pp := s1.f F.NERUP_STATUS_PEER_PORT p
    let s2 := s1.noteLink s1.me p st peer pp
    if s2.isMaster then s2
    else s2.sendTree (s2.f F.HALL_STATUS_MASTER_NOW) 0x13 s2.epoch 0
      (leBytes p 2 ++ leBytes st 1 ++ leBytes peer 1 ++ leBytes pp 2)

/-- HELLO sent: PORT, RESET, CURRENT, version 1 (R198, R211). -/
def Dev.sendHello (s : Dev) (p : Nat) : Dev :=
  let s1 := s.sendLocal p 0x01 (leBytes p 2 ++ leBytes (b2n s.hall.fresh + 2 * b2n s.current) 1 ++ leBytes 1 1)
  s1.setNerup p { s1.nerupOf p with sentCur := s.current }

/-- A port in JOIN becomes ACTIVE when the last HELLO of each side carried CURRENT (R197). It is selectable again at once for the
buckets that hold nothing in flight (R210). -/
def Dev.tryActive (s : Dev) (p : Nat) : Dev :=
  let x := s.nerupOf p
  if s.nstate p = 4 ∧ x.sentCur = true ∧ x.gotCur = true then
    let busy := if x.failed then s.regs.filterMap (fun e =>
      if e.1.kind = .bucket ∧ getBits e.2 16 21 ≠ 0 then some e.1.i else none) else []
    (s.setNerup p { x with failed := false, hold := busy }).toState p 5
  else s

/-- CURRENT changes: every link says so (R198). -/
def Dev.setCurrent (s : Dev) (on : Bool) : Dev :=
  if s.b F.HALL_STATUS_CURRENT = on then s
  else
    let s1 := s.setB F.HALL_STATUS_CURRENT on
    let ps := s1.fabricPorts.filter (fun p => decide (2 ≤ s1.nstate p ∧ s1.nstate p ≤ 5))
    ps.foldl (fun s p => (s.sendHello p).tryActive p) { s1 with hall := { s1.hall with fresh := s1.hall.fresh && !on } }

/-! ### Failover (R207-R209) -/

/-- Where a FAILOVER message to the peer of port `p` travels (R208, R227). -/
def Dev.failPath (s : Dev) (p peer : Nat) : Option Nat :=
  if s.isTwinPort p then
    ((List.range (min (s.f F.TWIN_ROUTE_COUNT) 4)).map (fun k => getBits (s.reg .twinRoute) (3 + 9 * k) 9)).find? (fun q =>
      q != p && s.nstate q == 5)
  else
    let w (j : Nat) : Word := s.ac .route peer j
    ((List.range (min (getBits (w 0) 0 5) 16)).map (fun i => getBits (w ((2 + 2 * i) / 8)) ((2 + 2 * i) % 8 * 8) 9)).find?
      (fun q => decide (s.nstate q < 6) && q != p)

/-! ### Messages received (R202, R211, R212) -/

/-- A control message moved on (R27, R202, R211): a broadcast on every tree port but its own, a FAILOVER message on the Hall
route, any other along the tree. It stays in its receive buffer while a queue that it goes to is full (R212). -/
def Dev.relay (s : Dev) (p : Nat) (m : CtlMsg) : Dev :=
  let m1 := { m with hops := Fin.ofNat 16 (m.hops.val + 1) }
  let freed (t : Dev) : Dev := if t.nerup.any (fun e => e.2.ctlWait.contains (m1, some p)) then t else t.ctlFreed p
  if m.bcast then freed ((s.treePorts.erase p).foldl (fun s q => s.sendCtl q m1 (some p)) s)
  else
    let route := if m.mtype.toNat ≤ 4 then s.failPath 512 m.dst else s.portToward m.dst
    match route with
    | some q => freed (s.sendCtl q m1 (some p))
    | none => (s.ctlFreed p).inc .hallMsgDrop

/-- A control message that is discarded and counted (R202, R211). -/
def Dev.dropMsg (s : Dev) (p : Nat) : Dev := (s.ctlFreed p).inc .hallMsgDrop

/-- A received message in its receive buffer (R206): one that has crossed 15 links, or of another Hall, is discarded and counted (R202, R211);
`ok` says which HALL_ID its port takes. -/
def Dev.hearMsg (s : Dev) (m : MsgHdr) (ok : Dev → Bool) (k : Dev → Dev) : Dev :=
  s.ctlFlit m.port m.seq.toNat m.good (fun t => if m.hops.val = 15 ∨ ok t = false then t.dropMsg m.port else k t)

/-- The message is of this member's Hall, and did not come on a twin port (R211, R226). -/
def Dev.ofHall (s : Dev) (m : MsgHdr) : Bool :=
  s.b F.HALL_CTL_EN && m.hallId.toNat == s.f F.HALL_CTL_HALL_ID && !s.isTwinPort m.port.val

/-- A received message that concerns this member alone. -/
def Dev.onMsg (s : Dev) (m : MsgHdr) (k : Dev → Dev) : Dev := s.hearMsg m (fun t => t.ofHall m) (fun t => k (t.ctlFreed m.port))

/-- A received broadcast (R211): it is relayed on every tree port but its own, and its receive buffer is free once each copy has room (R212). -/
def Dev.onBcast (s : Dev) (m : MsgHdr) (mtype dst : Nat) (payload : List Byte) (k : Dev → Dev) : Dev :=
  s.hearMsg m (fun t => t.ofHall m) (fun t => k (t.relay m.port
    { t.msg mtype dst true m.epoch.toNat m.tag.toNat payload with src := m.src, hops := m.hops }))

/-- A message that a twin port accepts too (R226), with the HALL_ID of its own kind of port. -/
def Dev.onFailMsg (s : Dev) (m : MsgHdr) (k : Dev → Dev) : Dev :=
  s.hearMsg m (fun t => t.b F.HALL_CTL_EN
    && m.hallId.toNat == (if t.isTwinPort m.port then t.f F.TWIN_CTL_TWIN_HALL_ID else t.f F.HALL_CTL_HALL_ID)) (fun t => k (t.ctlFreed m.port))

/-- The link of fabric port `p` fails (R207, R208): a substitution on it ends (R68), and a TLP from it that an egress holds open is completed
(R163). -/
def Dev.linkFail (s0 : Dev) (p : Nat) : Dev :=
  if 2 ≤ s0.nstate p ∧ s0.nstate p ≤ 5 then
    let s := s0.closeOpened p
    let x := s.nerupOf p
    let peer := s.f F.NERUP_STATUS_PEER_MEMBER p
    let s1 := (s.setB F.NERUP_STATUS_LINK_FAIL true p).setF F.PORT_STATUS_GEN ((s.f F.PORT_STATUS_GEN p + 1) % 65536) p
    let s2 := (((s1.setB F.PORT_STATUS_DL_ACTIVE false p).spareEndOf p).dropCredits p).setNerup p
      { x with part := none, among := [], frozen := some ((x.rx + 1023) % 1024), count := 0, query := true, unseen := [] }
    let s3 := (s2.setLink p { s2.link p with cr := [], inf := [] }).toState p 6
    match s3.failPath p peer with
    | some q => s3.sendCtl q (s3.msg 0x03 peer false s3.epoch 0 (leBytes (s3.f F.NERUP_STATUS_PEER_PORT p) 2 ++ leBytes p 2))
    | none => s3
  else s0

/-- The alternate link of a TLP bound to port `p` (R208, R227): the first ACTIVE port after the k-th, the k-th itself last; no copy goes to a
twin port whose TWIN_PART differs (R229). -/
def Dev.alternate (s : Dev) (st : Stored) (p : Nat) : Option Nat :=
  let b := st.d.bucket
  let twin := s.isTwinPort p
  let n := if twin then min (s.f F.TWIN_ROUTE_COUNT) 4 else s.routeCount b st.d.dstMember
  let port (i : Nat) : Nat := if twin then getBits (s.reg .twinRoute) (3 + 9 * i) 9 else s.routePort b st.d.dstMember i
  let k := s.f F.BUCKET_EFF_PATH b
  ((List.range n).map (fun j => port ((k + j + 1) % n))).find? (fun q => s.nstate q == 5 && !(twin && st.twin.isSome && s.twinDiffers q))

/-- A TLP taken to egress port `q`: it keeps its cells, but for a port in the other half, into whose Floor it crosses (R13, R16); a TLP that holds
none is stored again. -/
def Dev.rehome (s : Dev) (st : Stored) (q : Nat) : Dev × Stored :=
  let d := { st.d with egress := q, half := egHalf s.ic q, gen := s.f F.PORT_STATUS_GEN q }
  if st.cells.isEmpty then s.take { st with d := d, pool := 6, creditKind := 2 }
  else if d.half = st.d.half then (s, { st with d := d })
  else (((s.leaveStale st).chargePool st st.cells.length false).giveBack st.cells).take { st with d := d, cells := [] }

/-- A TLP moved to its alternate link, at the tail of the same TCQ (R208), or purged where it has none. -/
def Dev.moveOne (s : Dev) (p : Nat) (st : Stored) : Dev :=
  match s.alternate st p with
  | none => s.discard st .ur
  | some q =>
    let (s1, st1) := s.rehome st q
    (s1.link1 st1).inc .nerupMoved 1 p

/-- The TLPs of a port's queues: the escape queue, then TCQ 0 to 7 (R208), and what its read engine holds at the arbiter. -/
def Dev.queuedOf (s : Dev) (p : Nat) : List Stored :=
  let (h, o) := s.outputOf p
  let mine := ((s.arb h o).reqs.filter (fun r => r.forEgress p)).filter (fun r => decide (r.idx < 16))
  mine.map XbReq.st ++ s.queue p 8 ++ (List.range 8).flatMap (fun q => s.queue p q)

/-- A port's queues emptied; a TLP that it holds open is incomplete, and purged (R163). -/
def Dev.clearQueues (s : Dev) (p : Nat) : Dev :=
  let (h, o) := s.outputOf p
  let a := s.arb h o
  let s1 := (List.range 9).foldl (fun s q => s.setQueue p q []) s
  let s2 := (s1.setArb h o { a with reqs := a.reqs.filter (fun r => !r.forEgress p) }).schedPurge p
  (s2.setLink p { s2.link p with opened := none }).discardAll (s.link p).opened.toList .ur

/-- The move of R208 is complete: the port is FAILED. It trains anew where its LTSSM has passed through Detect meanwhile, and is DOWN where a
HELLO of another Hall has disabled it (R197, R198). -/
def Dev.moveDone (s : Dev) (p : Nat) (l : List Stored) : Dev :=
  let s1 := s.setLink p { s.link p with replay := [], replayNum := 0 }
  let s2 := l.foldl (fun s st => s.moveOne p st) s1
  let s3 := (s2.setNerup p { s2.nerupOf p with query := false, failed := true, hold := [], ctlReplay := [] }).toState p 7
  if !s3.isFabric p then s3
  else if s3.f F.PORT_STATUS_LTSSM p = 0 then s3.toState p 1
  else if s3.f F.PORT_STATUS_LTSSM p = 8 then s3.toState p 0
  else s3

/-- SEQ `a` comes after the acknowledged `b`, modulo 1,024 (R206). -/
def seqAfter (a b : Nat) : Bool := let d := (a + 1024 - b) % 1024; decide (0 < d ∧ d < 512)

/-- FAILOVER_REPLY with the peer's last accepted SEQ (R208). -/
def Dev.failMove (s : Dev) (p seq : Nat) : Dev :=
  let l := s.link p
  let keep := l.replay.filter (fun x => seqAfter x.seq seq)
  let gone := l.replay.filter (fun x => !seqAfter x.seq seq)
  let q := s.queuedOf p
  let s1 := (gone.foldl (fun s x => s.leaveBucket x.st) s).clearQueues p
  s1.moveDone p (keep.map Sent.st ++ q)

/-- No FAILOVER_REPLY (R209): the replay buffer is discarded, the queues are moved. -/
def Dev.failUnsure (s : Dev) (p : Nat) : Dev :=
  let l := s.link p
  let q := s.queuedOf p
  let s1 := l.replay.foldl (fun s x =>
    let t := (s.leaveBucket x.st).inc .nerupUnsure 1 p
    if x.st.twin.isSome then t.inc .transitDrop else t) s
  ((s1.clearQueues p).setB F.NERUP_STATUS_FAILOVER_PURGE true p).moveDone p q

/-- A port's registers are about to be reset in FAILOVER: no reply can be taken any more, so the move is as without one (DEDUCED from R209,
log 126). -/
def Dev.failoverEnd (s : Dev) (p : Nat) : Dev := if s.nstate p = 6 then s.failUnsure p else s

/-! ### Credits and acknowledgements (R203, R206) -/

/-- The counters of a link in the order of R203: VC and kind, 64 the control credit. -/
def crdIdx (vc kind : Nat) : Option Nat := if vc < 8 then some (8 * vc + kind) else if vc = 8 then some 64 else none

/-- A cumulative credit counter received (R203). The control credit's is held less the 8 that it starts from. -/
def Dev.crdIn (s : Dev) (p vc kind crd : Nat) : Dev :=
  match crdIdx vc kind with
  | none => s
  | some i =>
    let x := s.nerupOf p
    if i = 64 then
      (s.setNerup p { x with crd := x.crd.put 0 64 ((crd + 65528) % 65536), unseen := x.unseen.erase 64 }).ctlRun p
    else
    let d := (crd + 65536 - x.crd.look 0 i) % 65536
    let s1 := s.setNerup p { x with crd := x.crd.put 0 i crd, unseen := x.unseen.erase i }
    let l := s1.link p
    s1.setLink p { l with cr := l.cr.put 0 i (l.cr.look 0 i + d) }

/-- ACK_SEQ received: the TLPs and control messages it covers leave the device (R133, R206); progress resets the replay count. -/
def Dev.nerupAck (s : Dev) (p ack : Nat) : Dev :=
  let x := s.nerupOf p
  let n := (ack + 1025 - x.una) % 1024
  let covers (seq : Nat) : Bool := decide ((seq + 1024 - x.una) % 1024 < n)
  if n = 0 ∨ s.flitsOut p < n then s
  else
    let l := (s.link p).replay
    let s1 := (l.filter (fun y => covers y.seq)).foldl (fun s y => s.leaveBucket y.st) s
    ((s1.setLink p { s1.link p with replay := l.filter (fun y => !covers y.seq) }).setNerup p { x with
      count := 0, una := (ack + 1) % 1024, ctlReplay := x.ctlReplay.filter (fun y => !covers y.1) }).ctlRun p

/-- The TLP of the replay buffer of port `p` whose word has an uncorrectable error (R342). -/
def Dev.badReplay (s : Dev) (p : Nat) : Option BadWord :=
  s.badWord (p / 16) (fun w => match w with
    | .replay q id => q == p && (s.link p).replay.any (fun x => x.st.id == id)
    | _ => false)

/-- The TLPs of a bad word of the replay buffer are purged, with their class's outcome (R342). -/
def Dev.purgeReplayed (s : Dev) (p : Nat) (w : BadWord) : Dev :=
  let bad (x : Sent) : Bool := decide (w = .replay p x.st.id)
  let l := s.link p
  let gone := (l.replay.filter bad).map Sent.st
  (((s.badFound (p / 16) w).setLink p { l with replay := l.replay.filter (fun x => !bad x) }).discardAll gone .ur).uspInternals gone

/-- The transmitter replays (R206): counted where `counts` says so, and the link fails at REPLAY_NUM (R207), save during a switchover. A word of
the replay buffer with an uncorrectable error is met: its TLP is purged and the link fails (R342). -/
def Dev.nerupReplay (s : Dev) (p : Nat) (counts : Bool := true) : Dev :=
  match s.badReplay p with
  | some w => (s.purgeReplayed p w).linkFail p
  | none =>
  let s1 := (s.inc .nerupReplay 1 p).emit (.link p .replay)
  if s1.switching p || !counts then s1
  else
    let x := s1.nerupOf p
    let s2 := s1.setNerup p { x with count := x.count + 1 }
    if max (s1.f F.NERUP_CTL_REPLAY_NUM p) 1 ≤ x.count + 1 then s2.linkFail p else s2

/-- Flits of port `p` wait for their acknowledgement. -/
def Dev.unacked (s : Dev) (p : Nat) : Bool := !(s.link p).replay.isEmpty || !(s.nerupOf p).ctlReplay.isEmpty

/-- A SPARE_REQ that the device grants on a Nerup link makes it replay what the condemned lane may have lost (R206); the replay does not count
(DESIGN CHOICE: R206 does not say which SPARE message; log 125). -/
def Dev.spareReplay (s : Dev) (p : Nat) : Dev := if s.hearsFlits p && s.unacked p then s.nerupReplay p false else s

/-! ### Spanning tree and routes of the master (R204) -/

/-- A link of the Hall: member, port, peer member, peer port. -/
structure Edge where
  a : Nat
  p : Nat
  b : Nat
  q : Nat
  deriving DecidableEq, Repr

/-- The links known to the master that are in JOIN or ACTIVE: each end of a link as its own member has reported it (R204, R210). A link that only
one end has reported leads from that end alone (DESIGN CHOICE, log 134). -/
def Dev.edges (s : Dev) : List Edge :=
  s.hall.links.filterMap (fun e =>
    if e.2.1 = 4 ∨ e.2.1 = 5 then some { a := e.1 / 512, p := e.1 % 512, b := e.2.2.1, q := e.2.2.2 } else none)

/-- A place in the tree: member, level, parent, the parent's port toward it, its own port toward the parent. -/
structure TreeNode where
  m : Nat
  level : Nat
  parent : Nat
  down : Nat
  up : Nat
  deriving DecidableEq, Repr

/-- One level of the breadth-first search: members in ascending order, ports in ascending order (R204). -/
def growTree (es : List Edge) (t : List TreeNode) (lvl : Nat) : List TreeNode :=
  let front := ((List.range 16).filter (fun m => t.any (fun n => n.m == m && n.level == lvl)))
  front.foldl (fun t m =>
    ((List.range 512).filterMap (fun p => es.find? (fun e => e.a == m && e.p == p))).foldl (fun t e =>
      if t.any (fun n => n.m == e.b) then t
      else t ++ [{ m := e.b, level := lvl + 1, parent := m, down := e.p, up := e.q }]) t) t

/-- The spanning tree from the master (R204). -/
def spanTree (es : List Edge) (root : Nat) : List TreeNode :=
  (List.range 16).foldl (growTree es) [{ m := root, level := 0, parent := root, down := 0, up := 0 }]

/-- Level of a member in the tree. -/
def levelOf (t : List TreeNode) (m : Nat) : Nat := ((t.find? (fun n => n.m == m)).map TreeNode.level).getD 99

/-- The members from `m` up to the root. -/
def ancestors (t : List TreeNode) (m : Nat) : Nat → List Nat
  | 0 => [m]
  | n + 1 => match t.find? (fun x => x.m == m) with
    | some x => if x.level = 0 then [m] else m :: ancestors t x.parent n
    | none => [m]

/-- HALL_TREE entry for member `m` on member `a`: port and validity. -/
def treeEntry (t : List TreeNode) (a m : Nat) : Word :=
  if a = m ∨ !(t.any (fun n => n.m == m)) then 0
  else
    let up := ancestors t m 16
    match (t.filter (fun n => n.parent == a && n.level != 0)).find? (fun n => up.contains n.m) with
    | some c => BitVec.ofNat 64 (512 + c.down)
    | none => match t.find? (fun n => n.m == a) with
      | some n => BitVec.ofNat 64 (512 + n.up)
      | none => 0

/-- A link is up: toward a lower level, or at equal levels toward the lower member ID (R204). -/
def isUp (t : List TreeNode) (e : Edge) : Bool :=
  decide (levelOf t e.b < levelOf t e.a) || (levelOf t e.b == levelOf t e.a && decide (e.b < e.a))

/-- Distances to a member relaxed once over some links. -/
def relax (es : List Edge) (d : List Nat) : List Nat :=
  d.zipIdx.map (fun (x, a) => (es.filter (fun e => e.a == a)).foldl (fun x e => min x (d.getD e.b 99 + 1)) x)

/-- Distances to member `m` over down links only. -/
def downDist (t : List TreeNode) (es : List Edge) (m : Nat) : List Nat :=
  (List.range 16).foldl (fun d _ => relax (es.filter (fun e => !isUp t e)) d) ((List.range 16).map (fun a => if a = m then 0 else 99))

/-- Distances to member `m` over up links followed by down links. -/
def upDist (t : List TreeNode) (es : List Edge) (m : Nat) : List Nat :=
  (List.range 16).foldl (fun d _ => relax (es.filter (fun e => isUp t e)) d) (downDist t es m)

/-- The ports of member `a`'s Hall route entry for member `m` (R204), in ascending order, at most 16. -/
def routePorts (t : List TreeNode) (es : List Edge) (a m : Nat) : List Nat :=
  let dd := downDist t es m
  let ud := upDist t es m
  let use (e : Edge) : Bool :=
    if dd.getD a 99 < 99 then !isUp t e && dd.getD e.b 99 + 1 == dd.getD a 99
    else isUp t e && decide (ud.getD a 99 < 99) && ud.getD e.b 99 + 1 == ud.getD a 99
  if a = m then [] else (((es.filter (fun e => e.a == a && use e)).map Edge.p).mergeSort).take 16

/-- A Hall route entry as five 8-byte words. -/
def routeEntry (ports : List Nat) (j : Nat) : Word :=
  let w := ports.length :: ports
  BitVec.ofNat 64 (((List.range 4).map (fun k => w.getD (4 * j + k) 0 * 2 ^ (16 * k))).foldl (· + ·) 0)

/-- The route and tree words of member `a`: table code, byte offset, bytes, word. -/
def routeTable (t : List TreeNode) (es : List Edge) (a : Nat) : List (TblId × Word) :=
  (List.range 16).flatMap (fun m =>
    let ps := routePorts t es a m
    (List.range 5).map (fun j => ((⟨.route, m, j⟩ : TblId), routeEntry ps j))
      ++ [((⟨.tree, m, 0⟩ : TblId), treeEntry t a m)])

/-! ### The Hall Commit (R213-R216) -/

/-- ROUTE_PUSH TABLE code, byte offset in the shadow set and bytes of a word (R211, R228). What the sets hold beside the bus map (R78, R121)
goes with it, past its last byte: the places are the model's own (DESIGN CHOICE, log 115). -/
def pushPlace (t : TblId) : Nat × Nat × Nat :=
  match t.kind with
  | .win => (0, t.i * 0x800 + 8 * t.j, 8)
  | .vdsp => (1, t.i * 0x400 + 4 * t.j, 4)
  | .bus => (2, t.i * 0x200 + 2 * t.j, 2)
  | .route => (3, t.i * 0x40 + 8 * t.j, 8)
  | .pidx => (4, 4 * t.i, 4)
  | .tree => (5, 4 * t.i, 4)
  | .lockdom => (6, 4 * t.i, 4)
  | .twinPart => (7, 4 * t.i, 4)
  | .io => (2, 0x100000 + 0x800 * t.i + 8 * t.j, 8)
  | .ena => (2, 0x200000 + 0x1000 * t.i + 8 * t.j, 8)
  | .uspIo => (2, 0x300000 + 0x40 * t.i, 8)
  | .uspMem => (2, 0x300008 + 0x40 * t.i + 8 * t.j, 8)
  | .uspPref => (2, 0x300018 + 0x40 * t.i + 8 * t.j, 8)
  | .buses => (2, 0x300028 + 0x40 * t.i, 8)

/-- The word of what goes with the bus map that a byte falls in, and its place there. -/
def pushHidden (off : Nat) : Option (TblId × Nat) :=
  if off < 0x100000 then none
  else if off < 0x200000 then some (⟨.io, (off - 0x100000) / 0x800, off % 0x800 / 8⟩, off % 8)
  else if off < 0x300000 then some (⟨.ena, (off - 0x200000) / 0x1000, off % 0x1000 / 8⟩, off % 8)
  else
    let q := (off - 0x300000) / 0x40
    match off % 0x40 / 8 with
    | 0 => some (⟨.uspIo, q, 0⟩, off % 8)
    | 1 => some (⟨.uspMem, q, 0⟩, off % 8)
    | 2 => some (⟨.uspMem, q, 1⟩, off % 8)
    | 3 => some (⟨.uspPref, q, 0⟩, off % 8)
    | 4 => some (⟨.uspPref, q, 1⟩, off % 8)
    | 5 => some (⟨.buses, q, 0⟩, off % 8)
    | _ => none

/-- The word that a byte of a pushed table falls in, and its place there. -/
def pushWord (table off : Nat) : Option (TblId × Nat) :=
  match table with
  | 0 => some (⟨.win, off / 0x800, off % 0x800 / 8⟩, off % 8)
  | 1 => some (⟨.vdsp, off / 0x400, off % 0x400 / 4⟩, off % 4)
  | 2 => if off < 0x10000 then some (⟨.bus, off / 0x200, off % 0x200 / 2⟩, off % 2) else pushHidden off
  | 3 => some (⟨.route, off / 0x40, off % 0x40 / 8⟩, off % 8)
  | 4 => some (⟨.pidx, off / 4, 0⟩, off % 4)
  | 5 => some (⟨.tree, off / 4, 0⟩, off % 4)
  | 6 => some (⟨.lockdom, off / 4, 0⟩, off % 4)
  | 7 => some (⟨.twinPart, off / 4, 0⟩, off % 4)
  | _ => none

/-- Pushed bytes written into the shadow sets (R213), where they outlast a copy that runs. -/
def Dev.pushBytes (s : Dev) (table : Nat) : Nat → List Byte → Dev
  | _, [] => s
  | off, b :: t =>
    let s1 := match pushWord table off with
      | some (w, k) =>
        let s0 : Dev := if s.fwd.copying && !s.fwd.late.contains w then { s with fwd := { s.fwd with late := s.fwd.late ++ [w] } } else s
        s0.setSh w.kind (putBits (s.sh w.kind w.i w.j) (8 * k) 8 b.toNat) w.i w.j
      | none => s
    s1.pushBytes table (off + 1) t

/-- The ROUTE_PUSH of one word, as its payload (R211). The data of a bus map entry is sent with its neighbour's, 4 bytes. -/
def pushPayload (w : TblId → Word) (t : TblId) (v : Word) : List Byte :=
  let (code, off, n) := pushPlace t
  if n = 2 then
    let a := if t.j % 2 = 0 then v.toNat else (w { t with j := t.j - 1 }).toNat
    let b := if t.j % 2 = 0 then (w { t with j := t.j + 1 }).toNat else v.toNat
    leBytes code 1 ++ leBytes (off / 4 * 4) 3 ++ leBytes 0 4 ++ leBytes a 2 ++ leBytes b 2
  else leBytes code 1 ++ leBytes off 3 ++ leBytes 0 4 ++ leBytes v.toNat n

/-- The words that differ between the shadow and the active sets, but for the routes and the tree (the same words go to every
member, log 20). -/
def Dev.changedWords (s : Dev) : List (TblId × Word) :=
  let keys := ((s.shadow.map (fun e => e.1)) ++ (s.active.map (fun e => e.1))).dedup
  (keys.filter (fun k => k.kind != .route && k.kind != .tree && s.sh k.kind k.i k.j != s.ac k.kind k.i k.j)).map (fun k =>
    (k, s.sh k.kind k.i k.j))

/-- Words pushed to member `m`. -/
def Dev.pushTo (s : Dev) (m epoch : Nat) (l : List (List Byte)) : Dev := l.foldl (fun s b => s.sendTree m 0x20 epoch 0 b) s

/-- The staged bytes that a member's CRC covers: the data of its ROUTE_PUSH messages in order (log 20). -/
def stagedBytes (l : List (List Byte)) : List Byte := l.flatMap (fun b => b.drop 8)

/-- The ROUTE_PUSH payloads of some words, their neighbours read in a set. -/
def pushList (set : Store TblId Word) (l : List (TblId × Word)) : List (List Byte) :=
  (l.map (fun e => pushPayload (fun t => Store.get (fun _ => 0) set t) e.1 e.2)).dedup

/-- A phase message to a member. -/
def Dev.phaseMsg (s : Dev) (m mtype : Nat) : Dev := s.sendTree m mtype s.hall.target s.hall.tag []

/-- The master's own tables in a commit: its routes and tree go into its shadow sets. -/
def Dev.stageOwn (s : Dev) (t : List TreeNode) (es : List Edge) : Dev :=
  (routeTable t es s.me).foldl (fun s e => s.setSh e.1.kind e.2 e.1.i e.1.j) s

/-- The master starts a commit to epoch `e` (R213 phase 1): tables pushed, STAGE sent. -/
def Dev.commitStart (s : Dev) (e : Nat) : Dev :=
  let es := s.edges
  let t := spanTree es s.me
  let s1 := s.stageOwn t es
  let common := s1.changedWords
  let others := s1.members.erase s1.me
  let s2 : Dev := { s1 with hall := { s1.hall with target := e, inCommit := others, waits := others, tag := s1.hall.tag + 1 } }
  let s3 := others.foldl (fun s m =>
    let l := pushList s1.shadow (routeTable t es m ++ common)
    let s' := s.pushTo m e l
    s'.sendStage m e s'.hall.tag (leBytes l.length 4 ++ leBytes (crc32c (stagedBytes l)).toNat 4)) s2
  s3.setF F.HALL_STATUS_PHASE 1

/-- A member applies a commit (R213 phase 4): WIN_COMMIT, and EPOCH when the copy is done. A member that has applied it already
answers at once. -/
def Dev.applyStart (s : Dev) (e tag master : Nat) : Dev :=
  if s.epoch = e ∧ s.current = true then s.sendTree master 0x28 e tag []
  else if s.hall.applyTag.isSome then s
  else ({ s with hall := { s.hall with applyTag := some (e, tag, master) } }.setF F.HALL_STATUS_PHASE 4).commitReq

/-- EDIT_DONE (R213): the host's write completes. -/
def Dev.editDone (s : Dev) (tag : Nat) : Dev :=
  match s.hall.sent.find? (fun e => e.1 == tag) with
  | some e => ({ s with hall := { s.hall with sent := s.hall.sent.erase e } }).bridgeDone e.2
  | none => s

/-- The EDITs of a finished commit are answered, and the next ones are taken up (R213). -/
def Dev.commitEnd (s : Dev) : Dev :=
  let s1 := s.hall.edits.foldl (fun s e =>
    if e.src = s.me then s.editDone e.tag else s.sendTree e.src 0x15 s.hall.target e.tag []) s
  { s1 with hall := { s1.hall with edits := [], inCommit := [] } }.setF F.HALL_STATUS_PHASE 0

/-- The master goes on when no answer is awaited (R213). -/
def Dev.commitNext (s : Dev) : Nat → Dev
  | 0 => s
  | n + 1 =>
    if s.hall.waits ≠ [] then s
    else
      let go (s : Dev) (ph mtype : Nat) : Dev :=
        let s1 := s.hall.inCommit.foldl (fun s m => s.phaseMsg m mtype) s
        { s1 with hall := { s1.hall with waits := s1.hall.inCommit } }.setF F.HALL_STATUS_PHASE ph
      match s.f F.HALL_STATUS_PHASE with
      | 1 => (go s 2 0x23).commitNext n
      | 2 => ((go ((s.setF F.HALL_COMMIT_REC_EPOCH s.hall.target).setB F.HALL_COMMIT_REC_VALID true) 3 0x25)).commitNext n
      | 3 => ((go s 4 0x27).applyStart s.hall.target 0 s.me).commitNext n
      | 4 => if s.hall.applyTag.isSome then s else s.commitEnd
      | _ => s

/-- What a member holds of a commit beside its shadow sets, dropped. -/
def HallSt.unstaged (x : HallSt) : HallSt := { x with staged := [], segs := 0, want := 0, expect := 0, prepared := false }

/-- Staged tables discarded (R192, R214). -/
def Dev.unstage (s : Dev) : Dev := { s with shadow := s.active, hall := s.hall.unstaged, fwd := { s.fwd with late := [] } }

/-- A member or the master discards a commit (R214). -/
def Dev.abortHere (s : Dev) : Dev :=
  (((s.unstage.setB F.HALL_COMMIT_REC_VALID false).setB F.HALL_STATUS_ABORTED true).setF F.HALL_STATUS_PHASE 0).postHall 1 s.me
    s.epoch

/-- The master aborts (R214): ABORT to every member, whose ABORT_ACK is awaited; the EDITs wait for another commit, and so does a new master's
commit, which carries none (DEDUCED from R194, log 126). -/
def Dev.commitAbort (s : Dev) : Dev :=
  let l := s.hall.inCommit
  let s1 := l.foldl (fun s m => s.phaseMsg m 0x29) s
  let x := s1.hall
  { s1 with hall := { x with
      editQ := x.edits ++ x.editQ, edits := [], inCommit := [], waits := l, form := x.form || x.edits.isEmpty } }.abortHere

/-- A member falls out of the commit under way (R214, R216): before its COMMIT_ACK it is aborted, after that it goes on without the member. -/
def Dev.dropFromCommit (s : Dev) (m : Nat) : Dev :=
  if m ∈ s.hall.inCommit then
    if s.f F.HALL_STATUS_PHASE < 3 ∨ (s.f F.HALL_STATUS_PHASE = 3 ∧ m ∈ s.hall.waits) then s.commitAbort
    else ({ s with hall := { s.hall with inCommit := s.hall.inCommit.erase m, waits := s.hall.waits.erase m } }).commitNext 6
  else s

/-- An answer of member `m` in phase `ph` (R213). -/
def Dev.phaseAnswer (s : Dev) (m ph : Nat) : Dev :=
  if s.isMaster ∧ s.f F.HALL_STATUS_PHASE = ph ∧ m ∈ s.hall.waits then
    ({ s with hall := { s.hall with waits := s.hall.waits.erase m } }).commitNext 6
  else s

/-- Member `m` leaves the Hall (R214, R218). -/
def Dev.memberLeft (s : Dev) (m : Nat) : Dev :=
  let s1 := s.setMember m false
  let s2 := (List.range 16).foldl (fun s d =>
    if s.b F.LOCK_STATE_HELD d && s.f F.LOCK_STATE_MEMBER d == m then s.setReg .lockState 0 d else s) s1
  s2.dropFromCommit m

/-- Every epoch table of the master pushed to a member that joins, and APPLY to it alone (R215). -/
def Dev.pushAll (s : Dev) (m : Nat) : Dev :=
  let es := s.edges
  let t := spanTree es s.me
  let own := s.active.filter (fun e => e.1.kind != .route && e.1.kind != .tree)
  (s.pushTo m s.epoch (pushList s.active (routeTable t es m ++ own))).sendTree m 0x27 s.epoch 0 []

/-- The TABLE_REQs that came while the claim was under way are answered (R215). -/
def Dev.answerTableReqs (s : Dev) : Dev :=
  s.hall.tableReqs.foldl (fun s m => (s.setMember m true).pushAll m) { s with hall := { s.hall with tableReqs := [] } }

/-- TABLE_REQ sent (R215): every epoch table that is pushed replaces the member's, so its shadow sets start empty. -/
def Dev.askTables (s : Dev) : Dev :=
  ({ s with hall := { s.hall.unstaged with asked := true }, shadow := [], fwd := { s.fwd with late := [] } }).sendTree
    (s.f F.HALL_STATUS_MASTER_NOW) 0x2B s.epoch 0 []

/-- The highest epoch that the member knows (R193). -/
def Dev.highEpoch (s : Dev) : Nat :=
  max (max s.hall.high s.epoch) (if s.b F.HALL_COMMIT_REC_VALID then s.f F.HALL_COMMIT_REC_EPOCH else 0)

/-- A master is accepted (R194). -/
def Dev.acceptMaster (s : Dev) (m epoch : Nat) : Dev :=
  let s1 := (s.setF F.HALL_STATUS_MASTER_NOW m).setB F.HALL_STATUS_IS_MASTER false
  let s2 : Dev := { s1 with hall := { s1.hall with hasMaster := true, lastHb := epoch, high := max s1.hall.high epoch } }
  if s.f F.HALL_STATUS_MASTER_NOW = m then s2 else s2.postHall 2 m epoch

/-- The configuration offset at which an EDIT of a USP's bridge carries the bus number that the USP captured (R78); the manual names no place
for it (DESIGN CHOICE, log 115). -/
def capturedOff : Nat := 0xFFC

/-- Bits that software stores in the routing dwords of a bridge (R121). -/
def routingRw (off : Nat) : BitVec 32 :=
  match off with
  | 0x04 => 0x547
  | 0x18 => 0xFFFFFF
  | 0x1C => 0xF0F0
  | 0x20 | 0x24 => 0xFFF0FFF0
  | 0x28 | 0x2C => 0xFFFFFFFF
  | _ => 0

/-- What an EDIT changes on the master: the bridge register of the partition with its HALL_PART, byte by byte (R213), or the bus number that
its USP captured. -/
def Dev.editBridge (s : Dev) (q : Nat) (f : BridgeFn) (off : Nat) (be : BitVec 4) (v : BitVec 32) : Dev :=
  let fn := match f with
    | .usp => s.uspBridge q
    | .dsp d => s.bridgeOf q d.val
  if off = capturedOff then
    (if f = .usp then { s with fwd := { s.fwd with captured := s.fwd.captured.put 0 q (v.toNat % 256) } } else s)
  else
  match fn with
  | none => s
  | some g =>
    let m := beMask be &&& routingRw off
    s.setCf g off ((s.cf g off &&& ~~~m) ||| (v &&& m))

/-- The master takes the EDITs that wait into a commit (R213). -/
def Dev.takeEdits (s : Dev) : Dev :=
  if s.f F.HALL_STATUS_PHASE = 0 ∧ s.hall.editQ ≠ [] then
    let s1 := s.hall.editQ.foldl (fun s e =>
      match s.enabledParts.find? (fun q => s.hallPart q == e.hallPart) with
      | some q => (s.editBridge q e.f e.off e.be e.v).rebuild q
      | none => s) s
    (({ s1 with hall := { s1.hall with edits := s.hall.editQ, editQ := [] } }).commitStart (s.epoch + 1)).commitNext 6
  else s

/-- What a master does between commits: the commit of a new Hall, or the EDITs that wait. -/
def Dev.commitFollow (s : Dev) : Dev :=
  if s.isMaster ∧ s.f F.HALL_STATUS_PHASE = 0 then
    if s.hall.form then (({ s with hall := { s.hall with form := false } }).commitStart (s.highEpoch + 1)).commitNext 6
    else s.takeEdits
  else s

/-- An EDIT of this member (R213): to the master, or, at the master, into its next commit. `tag` is what EDIT_DONE answers with. -/
def Dev.sendEdit (s : Dev) (q : Nat) (bf : BridgeFn) (off : Nat) (be : BitVec 4) (v : BitVec 32) (tag : Nat) : Dev :=
  if s.isMaster then
    ({ s with hall := { s.hall with editQ := s.hall.editQ ++
      [{ src := s.me, tag := tag, hallPart := s.hallPart q, f := bf, off := off, be := be, v := v }] } } : Dev).commitFollow
  else
    let (vn, usp) : Nat × Nat := match bf with
      | .usp => (0, 1)
      | .dsp d => (d.val, 0)
    s.sendTree (s.f F.HALL_STATUS_MASTER_NOW) 0x14 s.epoch tag
      (leBytes (s.hallPart q) 2 ++ leBytes vn 1 ++ leBytes (usp + 16 * be.toNat) 1 ++ leBytes off 2 ++ leBytes 0 2 ++ leBytes v.toNat 4)

/-- The next TAG of this member, taken. -/
def Dev.takeTag (s : Dev) : Dev × Nat := ({ s with hall := { s.hall with tag := (s.hall.tag + 1) % 65536 } }, s.hall.tag)

/-! ### Locks (R217-R219) -/

/-- LOCK_REQ of port `p` for the MRdLk in its lock slot (R217). -/
def Dev.lockAsk (s : Dev) (p : Nat) : Dev :=
  match (s.link p).lockSlot with
  | none => s
  | some st =>
    let d := s.lockDomain st.d.hallPart
    if s.isMaster then { s with hall := { s.hall with lockReqs := s.hall.lockReqs ++ [(s.me, p, d)] } }
    else s.sendTree (s.f F.HALL_STATUS_MASTER_NOW) 0x30 s.epoch 0 (leBytes d 1 ++ [0] ++ leBytes p 2)

/-- A domain freed by its holder, or by a locked DSP of it that has reached DL_Down (R218): the DSP's member names the DSP's port in
LOCK_RELEASE (DESIGN CHOICE, log 116). -/
def Dev.lockFree (s : Dev) (d m p : Nat) : Dev :=
  let holder := s.f F.LOCK_STATE_MEMBER d == m && s.f F.LOCK_STATE_PORT d == p
  let dsp := s.active.any (fun e => e.1.kind == .vdsp && getBits e.2 0 1 == 1 && getBits e.2 1 4 == m && getBits e.2 5 10 == p
    && s.lockDomain (s.hallPart e.1.i) == d)
  if s.b F.LOCK_STATE_HELD d && (holder || dsp) then s.setReg .lockState 0 d else s

/-- LOCK_RELEASE of domain `d` for port `p` of this member (R218). -/
def Dev.lockGive (s : Dev) (d p : Nat) : Dev :=
  if s.isMaster then s.lockFree d s.me p
  else s.sendTree (s.f F.HALL_STATUS_MASTER_NOW) 0x33 s.epoch 0 (leBytes d 1 ++ [0] ++ leBytes p 2)

/-- LOCK_RELEASE of port `p` (R218): after the Unlock message, or when the ingress goes down. -/
def Dev.lockRelease (s : Dev) (p : Nat) : Dev :=
  if (s.link p).locked then
    (s.setLink p { s.link p with locked := false, lockTo := [] }).lockGive (s.lockDomain (s.hallPart (s.f F.PORT_CTL_PART p))) p
  else s

end Sys2Proof.Machine
end

