-- ==== Sys2Proof/Machine/LinkOps.lean ====
section
/-! DEFINITION. What a port's link leaves in the registers when it comes up: PORT_STATUS, its lanes' LANE_STATUS (R36, R40, R41),
and what the LTSSM is told to do. -/

namespace Sys2Proof.Machine

/-- LANE_STATUS of the lane of place `k` of port `p`, after training at width `w` (R40, R41): logical lanes run from the lowest
lane, or from the highest with lane reversal; a lane left unused is idle. -/
def Dev.laneUp (s : Dev) (p k w rate : Nat) (rev pol : Bool) : Dev :=
  let r := p / 16
  let m := p % 16 + k
  let l := if rev then s.portWidth p - 1 - k else k
  let on := decide (l < w)
  let s1 := (((s.setF F.LANE_STATUS_RATE (if on then rate else 7) r m).setB F.LANE_STATUS_RX_LOCK on r m).setB
    F.LANE_STATUS_CODE_LOCK on r m).setB F.LANE_STATUS_DESKEWED on r m
  (s1.setB F.LANE_STATUS_POLARITY_INV (on && pol) r m).setF F.LANE_STATUS_LOGICAL_LANE (if on then l else 0) r m

/-- Every lane of a port after training. Reversal and polarity are the board's, and free values (log 22). -/
def Dev.lanesUp (s : Dev) (p w rate : Nat) : Dev :=
  let v := s.freeVal
  ((List.range (s.portWidth p)).foldl (fun s k => s.laneUp p k w rate (v.getLsbD 16) (v.getLsbD k)) s).useFree

/-- The lanes of a port whose link goes on from Recovery or L1: logical numbers and polarity are those that the last training from Detect
gave (R40); a lane that was idle takes its polarity from the board again (log 22). -/
def Dev.lanesAgain (s : Dev) (p w rate : Nat) : Dev :=
  let r := p / 16
  let v := s.freeVal
  let rev := (List.range (s.portWidth p)).any (fun k =>
    s.laneRate r (p % 16 + k) != 7 && s.f F.LANE_STATUS_LOGICAL_LANE r (p % 16 + k) != k)
  ((List.range (s.portWidth p)).foldl (fun s k =>
    let m := p % 16 + k
    s.laneUp p k w rate rev (if s.laneRate r m = 7 then v.getLsbD k else s.b F.LANE_STATUS_POLARITY_INV r m)) s).useFree

/-- The link of port `p` is in L0 with its data link layer active, from Detect: it runs SRIS as its bit says (R367). -/
def Dev.portUp (s : Dev) (p w rate : Nat) (flit : Bool) : Dev :=
  let s1 := (((((s.lanesUp p w rate).eqSettle p rate true).setF F.PORT_STATUS_LTSSM 3 p).setB F.PORT_STATUS_DL_ACTIVE true p).setF
    F.PORT_STATUS_WIDTH w p).setF F.PORT_STATUS_RATE rate p
  let s2 := s1.setB F.PORT_STATUS_FLIT flit p
  let sris := (s.reg .clkSris (p / 64)).getLsbD (p % 64)
  ((s2.setLink p { s2.link p with nextSeq := 0, replayNum := 0, fullWidth := w, l0p := w, sris := sris }).eqEnd p).spareL0 p

/-- A port in Recovery, or in L1 on its way out, is in L0 again at `w` lanes and `rate` (log 28); a substitution ends where the rate is another
one (R68). -/
def Dev.backToL0 (s : Dev) (p w rate : Nat) : Dev :=
  let fresh := decide (s.f F.PORT_STATUS_RATE p ≠ rate)
  let s0 := if fresh then s.spareEndOf p else s
  let s1 := ((((s0.lanesAgain p w rate).eqSettle p rate fresh).setF F.PORT_STATUS_LTSSM 3 p).setF F.PORT_STATUS_WIDTH w p).setF F.PORT_STATUS_RATE rate p
  ((s1.setLink p { s1.link p with fullWidth := w, l0p := w }).eqEnd p).spareL0 p

/-- The lanes of a port without a link: in electrical idle (DEDUCED from R40, log 107). -/
def Dev.lanesIdle (s : Dev) (p : Nat) : Dev :=
  (s.lanesOf p).foldl (fun s m =>
    let r := p / 16
    ((((s.setF F.LANE_STATUS_RATE 7 r m).setB F.LANE_STATUS_RX_LOCK false r m).setB F.LANE_STATUS_CODE_LOCK false r m).setB
      F.LANE_STATUS_DESKEWED false r m).setF F.LANE_STATUS_LOGICAL_LANE 0 r m) (s.eqEnd p)

/-- A width that port `p` may reach (R40). -/
def Dev.widthOk (s : Dev) (p w : Nat) : Bool := [1, 2, 4, 8, 16].contains w && decide (w ≤ s.portWidth p)

/-- The highest rate that port `p` may train to. -/
def Dev.maxRate (s : Dev) (p : Nat) : Nat := min (s.f F.PORT_CTL_MAX_RATE p) 6

end Sys2Proof.Machine
end

