-- ==== Sys2Proof/Machine/TwinOps.lean ====
section
/-! DEFINITION. The Twin Hall's shared operations: protected partitions and twin ports (R225-R229), numbering (R230, R231),
the deduplication records (R236-R238), stream resets (R239), the hold pool (R237). -/

namespace Sys2Proof.Machine

/-- DEGRADED: no ACTIVE twin port on a device that takes part in a Twin Hall (R225, R242). -/
def Dev.twinDegraded (s : Dev) : Bool := s.b F.TWIN_CTL_EN && !s.twinPorts.any (fun p => s.nstate p == 5)

/-- PART_MISMATCH of some twin port. -/
def Dev.twinMismatch (s : Dev) : Bool := s.b F.TWIN_CTL_EN && s.twinPorts.any s.twinDiffers

/-- TWIN_CHECK sent on twin port `p` (R229). -/
def Dev.sendCheck (s : Dev) (p : Nat) : Dev :=
  (s.setNerup p { s.nerupOf p with crcOut := some s.twinCrc }).sendLocal p 0x40 (leBytes s.twinCrc 4 ++ leBytes s.epoch 4)

/-- Every ACTIVE twin port that has not sent the CRC of the active TWIN_PART sends it: on entering ACTIVE, and at every change (R229). -/
def Dev.twinChecks (s : Dev) : Dev :=
  if s.twinOn then
    s.twinPorts.foldl (fun s p => if s.nstate p == 5 && (s.nerupOf p).crcOut != some s.twinCrc then s.sendCheck p else s) s
  else s

/-- The pair stream's or record's number (R230, R236). -/
def streamNo (member bucket : Nat) : Nat := 4096 * member + bucket

/-- The next PAIR_SEQ of a pair stream taken (R230). -/
def Dev.takePair (s : Dev) (dst b : Nat) : Dev × Nat :=
  let k := streamNo dst b
  let n := s.twin.pairs.look 0 k
  ({ s with twin := { s.twin with pairs := s.twin.pairs.put 0 k ((n + 1) % 2 ^ 24) } }, n)

/-- The deduplication record of a stream. -/
def Dev.stream (s : Dev) (k : Nat) : StreamSt := s.twin.streams.look {} k

/-- A deduplication record replaced. -/
def Dev.setStream (s : Dev) (k : Nat) (x : StreamSt) : Dev := { s with twin := { s.twin with streams := s.twin.streams.put {} k x } }

/-- NEXT moves on; a run given up more than half the number space behind it is forgotten, for no number of it can come (R236). -/
def StreamSt.to (x : StreamSt) (n : Nat) : StreamSt :=
  { x with next := some n, gave := x.gave.filter (fun r => decide ((n + 2 ^ 24 - r.1) % 2 ^ 24 ≤ 2 ^ 23)) }

/-- A number lies in a run that was given up. -/
def StreamSt.gaveUp (x : StreamSt) (n : Nat) : Bool := x.gave.any (fun r => decide ((n + 2 ^ 24 - r.1) % 2 ^ 24 < r.2))

/-- Numbers from NEXT on given up (R236, R238). -/
def Dev.giveUp (s : Dev) (k n : Nat) : Dev :=
  let x := s.stream k
  match x.next with
  | none => s
  | some nx => ((s.setStream k ({ x with gave := x.gave ++ [(nx, n)] }.to ((nx + n) % 2 ^ 24))).inc .gapSkip n).raise
      F.TWIN_STATUS_GAP s.ic

/-- A member that became CURRENT after a join restarts its streams (R239): STREAM_RESET on the tree, answers awaited. -/
def Dev.streamRestart (s : Dev) : Dev :=
  if s.twinOn then
    let others := s.members.erase s.me
    let s1 := { s with twin := { s.twin with pairs := [], resetWait := others } }
    s1.sendBcast 0x41 s1.epoch s1.hall.tag (leBytes s1.me 1)
  else s

/-- The hold pool of a half covered as far as the reservable cells go (R237), or released while TWIN_CTL.EN is clear. -/
def Dev.coverHold (s : Dev) (h : Nat) : Dev :=
  let x := s.pool 1000 0
  let y := x.half h
  if s.b F.TWIN_CTL_EN then
    let g := min (s.f F.TWIN_HOLD_CELLS h - y.covC) (s.reservable h)
    s.setPool 1000 0 (x.setHalf h { y with covC := y.covC + g })
  else s.setPool 1000 0 (x.setHalf h { y with covC := 0 })

/-- A write of TWIN_CTL or TWIN_ROUTE (R225). -/
def Dev.wrTwin (s : Dev) (f : Dev → Dev) : Dev :=
  if s.fabricPorts.isEmpty then (((f s).coverHold 0).coverHold 1) else s.setB F.TWIN_CTL_TWIN_CFG_ERR true

end Sys2Proof.Machine
end

