-- ==== Sys2Proof/Machine/IngressOps.lean ====
section
/-! DEFINITION. What becomes of a TLP once its decision is bound: its copies and cells (R144, R230, R231), the cut-through bypass
(R127, R165), refusals (R115). -/

namespace Sys2Proof.Machine

/-- A TLP written into the Floor of its egress half, unless it holds its cells already, and linked onto its output queue (R13, R143, R144). A
Floor in its safe state takes no cell (R338). -/
def Dev.writeFloor (s : Dev) (st : Stored) : Dev :=
  let (s1, st1) := if st.cells.isEmpty && !s.safe (68 + st.d.half) then s.take st else (s, st)
  s1.link1 st1

/-- A TLP on its way into the Floor, through the Aisle's buffers where they do not move (R12); on a fabric egress it counts in INFLIGHT from its
lookup cycle (R133). -/
def Dev.storeOne (s : Dev) (st : Stored) : Dev :=
  let s1 := if s.onFabric st then s.inflight st.d.bucket true else s
  if st.cells.isEmpty && s1.aisleWaits st then
    { s1 with aisle := s1.aisle.put [] (s1.aisleNo st) (s1.aisle.look [] (s1.aisleNo st) ++ [st]) }
  else s1.writeFloor st

/-- A completion of the completion generator stands at its place at the arbiter of its output (R165). -/
def Dev.offerMade (s : Dev) (st : Stored) : Dev :=
  let (h, o) := s.outputOf st.d.egress
  let a := s.arb h o
  s.setArb h o { a with reqs := a.reqs ++ [{ idx := 37, cls := 2, st := st }] }

/-- The Aisle moves again (R376): what waits crosses in the order in which it was bound, so that each buffer empties in order and the TLPs of
one queue keep theirs (R12, R129). -/
def Dev.aisleDrain (s : Dev) : Dev :=
  if s.aisleStopped then s
  else ((s.aisle.flatMap Prod.snd).mergeSort (fun a b => decide (a.id ≤ b.id))).foldl (fun s st =>
    if st.made then s.offerMade st else s.writeFloor st) { s with aisle := [] }

/-- The Aisle ends enter reset: words in the crossing are discarded and counted (R375); how many a TLP makes is not stated (log 124). -/
def Dev.aisleLost (s : Dev) : Dev :=
  s.aisle.foldl (fun s e => e.2.foldl (fun s st =>
    (((s.twinLost st).leaveBucket st).freeStored { st with pool := 4 } false).inc .cdcLost (Config.aisleWords (tlpLen st.tlp)) (e.1 / 3)) s)
    { s with aisle := [] }

/-- The twin copy of a protected TLP, bound to twin port `p` (R231). It used no link credit of its own (log 26). -/
def Dev.twinCopy (s : Dev) (st : Stored) (p : Nat) : Stored :=
  let q := s.bindTcq p st.d.hallPart st.tlp
  { st with d := { st.d with egress := p, half := egHalf s.ic p, tcq := q, vc := s.bindVc p q, gen := s.f F.PORT_STATUS_GEN p }
            creditKind := 2, cells := [], made := false }

/-- Cells of the pool of class `cls` in half `h` beyond those that back credits of the partner (R154). -/
def Dev.spareRoom (s : Dev) (i v h cls : Nat) : Nat :=
  let x := s.pool i v
  let y := x.half h
  let room := match cls with
    | 0 => y.covP - y.heldP
    | 1 => y.covNP - y.heldNP
    | _ => y.covC - y.heldC
  room - ceilDiv (x.pledge cls) 16

/-- The pool that a copy without link credit is charged to (R152): a completion's the completion pool; a request's the reserved pool where that
has room beyond what backs credits, else the common share (log 26). What holds no pool's cells stays so. -/
def Dev.copyPool (s : Dev) (st : Stored) : Stored :=
  let cls := clsOf st.tlp.kind
  if st.pool = 4 then st
  else if cls = 2 then { st with pool := 2 }
  else { st with pool := if cellsOf (tlpLen st.tlp) ≤ s.spareRoom st.ingress st.inVc st.d.half cls then 0 else 1 }

/-- A TLP without link credit finds its cells: in its pool beyond what backs credits, or among the free cells that are neither reserved nor
pledged, so that every reservation stays covered (R145, R154). -/
def Dev.copyFits (s : Dev) (st : Stored) : Bool :=
  let n := cellsOf (tlpLen st.tlp)
  if st.pool = 0 ∨ st.pool = 2 then decide (n ≤ s.spareRoom st.ingress st.inVc st.d.half (clsOf st.tlp.kind))
  else decide (n ≤ s.floorFree st.d.half)

/-- The twin port of a protected TLP's twin copy, where one is sent (R231). -/
def Dev.twinVia (s : Dev) (st : Stored) : Option Nat := (s.twinPath st.d.bucket).filter (fun p => !s.unreachable st.ingress p)

/-- A bound TLP's first copy stored, and its twin copy where it is protected, which no TLP is that a fabric port brought (R230, R231). While
answers to STREAM_RESET are awaited it travels as a primary copy with TWIN clear (R239). -/
def Dev.placeFirst (s : Dev) (st : Stored) : Dev × Option Stored :=
  let arrived := decide (st.ingress < 512) && s.role st.ingress == 2
  if !arrived && s.onFabric st && s.isProtected st.ingress st.d.hallPart st.d.dstMember && s.twin.resetWait.isEmpty then
    let (s1, n) := s.takePair st.d.dstMember st.d.bucket
    let st1 : Stored := { st with twin := some n }
    let s2 := s1.storeOne st1
    (s2, if s1.isTwinPort st.d.egress then none else (s2.twinVia st).map (fun p => s2.copyPool (s2.twinCopy st1 p)))
  else (s.storeOne st, none)

/-- A copy with TWIN set stored; one that finds no cells is discarded and counted (R235). -/
def Dev.storeCopy (s : Dev) (y : Stored) : Dev := if s.copyFits y then s.storeOne y else s.inc .transitDrop

/-- A bound TLP stored with its copies. -/
def Dev.place (s : Dev) (st : Stored) : Dev :=
  let (s1, c) := s.placeFirst st
  c.elim s1 s1.storeCopy

/-- The twin copy of a bound TLP finds no cells: the TLP waits where it came from, as for credit (log 26). -/
def Dev.copyWaits (s : Dev) (st : Stored) : Bool :=
  let (s1, c) := s.placeFirst st
  c.any (fun y => !s1.copyFits y)

/-! ### Cut-through (R127) -/

/-- Width times rate of what feeds or leaves point `i`, in units of half a GT/s: a port's link as it is, a Porter as x16 at
16 GT/s. -/
def Dev.speed (s : Dev) (i : Nat) : Nat :=
  if i < 512 then (s.link i).l0p * [5, 10, 16, 32, 64, 128, 256].getD (s.f F.PORT_STATUS_RATE i) 0 else 512

/-- A point's link is in Flit mode. -/
def Dev.flitOf (s : Dev) (i : Nat) : Bool := decide (i < 512) && s.b F.PORT_STATUS_FLIT i

/-- The egress point's queues hold nothing and its transmitter has no TLP under way (R127 item 1). -/
def Dev.egressIdle (s : Dev) (e : Nat) : Bool :=
  let (h, o) := s.outputOf e
  (List.range 9).all (fun q => (s.queue e q).isEmpty) && (s.arb h o).reqs.all (fun r => !r.forEgress e)

/-- The link of port `p` can take a TLP: L0 with the data link layer active, no TLP held open (R128); a fabric port is ACTIVE on a CURRENT
member (R197, R215). -/
def Dev.canTransmit (s : Dev) (p : Nat) : Bool :=
  (s.link p).opened.isNone && s.b F.PORT_CTL_EN p && s.b F.PORT_STATUS_DL_ACTIVE p && s.f F.PORT_STATUS_LTSSM p == 3
    && (s.role p != 2 || (s.nstate p == 5 && s.current))

/-- Requester index of the bypass that a TLP from ingress `i` takes to a half-`h` egress (R165). -/
def bypassIdx (i ih h : Nat) : Nat :=
  if ih ≠ h then 32 else if i < 512 then 16 + i / 16 % 16 else 33 + (i - 512) / 8 % 4

/-- The conditions of R127 for a TLP that is about to be linked. One whose egress cannot take it now makes no bypass request: it waits in
its queue (DESIGN CHOICE, log 117). -/
def Dev.cutsThrough (s : Dev) (st : Stored) : Bool :=
  let e := st.d.egress
  let i := st.ingress
  let ep := if e < 512 then e else e - 2
  s.b F.FWD_CTL_CT_EN && (decide (e < 512) || decide (514 ≤ e)) && decide (st.d.tcq < 8) && decide (i < 576)
    && s.egressIdle e && !s.aisleWaits st && decide (s.speed i ≤ s.speed ep) && (s.flitOf i || !s.flitOf ep)
    && (decide (514 ≤ e) || (s.canTransmit e && s.maySend e st.d.vc st.tlp && s.lockAllows e st))

/-- A bound TLP stored, and its bypass request put to the arbiter of its output where it cuts through. A request that the same
bypass made for an earlier TLP is withdrawn (R168). -/
def Dev.intoFloor (s : Dev) (st : Stored) : Dev :=
  if s.cutsThrough st then
    let s1 := s.place st
    let (h, o) := s1.outputOf st.d.egress
    let a := s1.arb h o
    let idx := bypassIdx st.ingress (s1.ingressHalf st.ingress) h
    match (s1.queue st.d.egress st.d.tcq).getLast? with
    | some x => s1.setArb h o { a with reqs := a.reqs.filter (fun r => decide (r.idx ≠ idx)) ++ [{ idx := idx, cls := 1, st := x }] }
    | none => s1
  else s.place st

/-! ### Refusals (R115, R222) -/

/-- A TLP that takes no place in the device: the credit it used goes back (R156). -/
def Dev.returnCredit (s : Dev) (st : Stored) : Dev := s.freeStored { st with cells := [], pool := 4 } false

/-- A refused TLP's outcome: a completion for ACTION 1 (UR) and 2 (CA), nothing for 3. -/
def Dev.refuse (s : Dev) (st : Stored) (act : Nat) : Dev :=
  let s1 := s.returnCredit st
  let id := if decide (st.ingress < 512) && s1.role st.ingress == 2 then st.cplId else s1.cplIdOf st.ingress
  match act with
  | 1 => s1.generate st (backTo st.ingress) id .ur [] true
  | 2 => s1.generate st (backTo st.ingress) id .ca [] true
  | _ => s1

/-- The pool a TLP is charged to, once its half and ingress are known (R152). -/
def Dev.withPool (s : Dev) (st : Stored) : Stored :=
  { st with pool := s.poolFor st.ingress st.inVc st.d.half (clsOf st.tlp.kind) (cellsOf (tlpLen st.tlp)) st.creditKind }

/-- A Porter's request fits the pools of its core port (R155 item 4): the reserved pool, or the common share as R155 item 3 bounds
it. -/
def Dev.porterRoom (s : Dev) (i half cls n : Nat) : Bool :=
  s.poolFor i 0 half cls n 2 != 1
    || (decide ((s.pool i 0).heldCommon + n ≤ s.share i 0) && decide (n ≤ s.floorFree half) && !(s.pool i 0).withhold)

end Sys2Proof.Machine
end

