-- ==== Sys2Proof/Machine/EgressOps.lean ====
section
/-! DEFINITION. How a TLP leaves the device: from its queue through the crossbar arbiters to its link (R147, R165-R170), and the link's replay
buffer (R133, R136, R206). -/

namespace Sys2Proof.Machine

/-- A TLP that its egress held open has come in whole (R128): it is written into the Floor and leaves at once. -/
def Dev.resume (s : Dev) (st : Stored) : Dev :=
  let e := st.d.egress
  let q := st.d.tcq
  let s1 := ((s.setLink e { s.link e with opened := none }).leaveBucket st).place st
  match (s1.queue e q).getLast? with
  | some x =>
    let s2 := (s1.setQueue e q ((s1.queue e q).erase x)).tidyQueue e q
    (s2.handOver { x with ct := true } x.tlp).freeStored x false
  | none => s1

/-- The status with which a TLP of a stale generation is answered: CA while its DSP contains with DPC Completion Control (R347). -/
def Dev.purgeStatus (s : Dev) (e : Nat) : CplStatus :=
  if e < 512 ∧ (s.link e).dpc = true ∧ s.cfBit (portFn e) 0x2F4 18 = true then .ca else .ur

/-- A TLP granted its path (R24, R147, R156, R160, R161): read out of its cells unless it is cut through, sent, and its cells freed; discarded
where its generation is stale, where it is a copy for a twin port whose TWIN_PART differs (R229), or where a chunk of header or trailer bytes is
uncorrectable. -/
def Dev.transmit (s : Dev) (st : Stored) : Dev :=
  let e := st.d.egress
  if e < 512 ∧ st.d.gen ≠ s.f F.PORT_STATUS_GEN e then s.discard st (s.purgeStatus e)
  else if st.twin.isSome && s.isTwinPort e && s.twinDiffers e then s.discard st .ur
  else
    let (s1, t) := if st.ct then (s, some st.tlp) else s.readOut st
    match t with
    | none =>
      let s2 := ((s1.uspInternal st.d.part).freeStored st true).leaveBucket st
      if st.twin.isSome && s2.onFabric st then s2.inc .transitDrop else s2
    | some t =>
      let s2 := if t.ep && !st.tlp.ep then s1.uspInternal st.d.part else s1
      (s2.handOver st t).freeStored st false

/-! ### The completion generator (R115, R165) -/

/-- The egress of the generator's TLP. One whose request came by a twin port takes the Hall route, where there is one (R231). -/
def Dev.genEgress (s : Dev) (st : Stored) : Nat :=
  let e := st.d.egress
  if decide (e < 512) && s.isTwinPort e then (s.pickFabric st.d.dstMember st.d.bucket).getD e else e

/-- The generator's TLP as it leaves: on a fabric port its destination is resolved by the requester's ID, and it takes its queue and VC
there. -/
def Dev.genBound (s : Dev) (st : Stored) : Stored :=
  let e := s.genEgress st
  if e < 512 ∧ s.role e = 2 then
    let r := s.resolveId 1022 st.d.part st.tlp.reqId st.tlp
    let q := s.bindTcq e st.d.hallPart st.tlp
    { st with d := { st.d with egress := e, dest := r.dest, tcq := q, vc := s.bindVc e q
                               gen := if e = st.d.egress then st.d.gen else s.f F.PORT_STATUS_GEN e } }
  else st

/-- A generated TLP can be sent: its egress has link credit, its generation is gone, or only its twin copy is left to send. -/
def Dev.genReady (s : Dev) (st0 : Stored) : Bool :=
  let st := s.genBound st0
  let e := st.d.egress
  decide (512 ≤ e) || decide (st.d.gen ≠ s.f F.PORT_STATUS_GEN e) || s.isTwinPort e
    || (s.canTransmit e && s.maySend e (s.vcOf e st.d.tcq) st.tlp)

/-- A generated TLP sent. It holds no cells. Where its partition is protected it is numbered, and its twin copy is stored (R230), also where its
link has failed since or no Hall route carries the primary copy (R231, R240). -/
def Dev.transmitGen (s : Dev) (st0 : Stored) : Dev :=
  let st := s.genBound st0
  let e := st.d.egress
  let stale := decide (e < 512) && decide (st.d.gen ≠ s.f F.PORT_STATUS_GEN e)
  let twinOnly := decide (e < 512) && s.isTwinPort e
  let via := if s.onFabric st && s.isProtected st.ingress st.d.hallPart st.d.dstMember && s.twin.resetWait.isEmpty then some (s.twinVia st) else none
  match via with
  | some twin =>
    if (stale || twinOnly) && twin.isNone then s.inc .cplDrop 1 e
    else
      let (s1, n) := s.takePair st.d.dstMember st.d.bucket
      let st1 : Stored := { st with twin := some n }
      let s2 := if stale then (s1.inc .cplDrop 1 e).inc .transitDrop
        else if twinOnly then s1
        else (s1.inflight st.d.bucket true).handOver st1 st1.tlp
      twin.elim s2 (fun p => s2.storeCopy { s2.twinCopy st1 p with pool := 4 })
  | none =>
    if stale then s.inc .cplDrop 1 e
    else (if s.onFabric st then s.inflight st.d.bucket true else s).handOver st st.tlp

/-! ### Crossbar arbiters (R165-R170) -/

/-- Class of a read engine's request (R165). -/
def engineClass (st : Stored) : Nat := if clsOf st.tlp.kind = 2 ∨ st.d.tcq = 8 then 2 else 3

/-- A request can be granted now: its egress can take the TLP, or discards it. -/
def Dev.xbReady (s : Dev) (r : XbReq) : Bool :=
  let e := r.st.d.egress
  if r.idx = 37 then s.genReady r.st
  else decide (512 ≤ e) || decide (r.st.d.gen ≠ s.f F.PORT_STATUS_GEN e)
    || (s.canTransmit e && s.maySend e (s.vcOf e r.st.d.tcq) r.st.tlp)

/-- The first request of each requester, in index order. -/
def Dev.xbPending (s : Dev) (a : ArbSt) : List XbReq :=
  (List.range 38).filterMap (fun k => a.reqs.find? (fun r => r.idx == k && s.xbReady r))

/-- Last grantee of a class. -/
def ArbSt.last (a : ArbSt) (c : Nat) : Nat := if c = 1 then a.last1 else if c = 2 then a.last2 else a.last3

/-- The round-robin order of a class: the requester next after its last grantee first. -/
def rrOrder (a : ArbSt) (c : Nat) (l : List XbReq) : List XbReq :=
  let m := l.filter (fun r => r.cls == c)
  m.filter (fun r => decide (a.last c < r.idx)) ++ m.filter (fun r => decide (r.idx ≤ a.last c))

/-- The request that has waited longest (R167): an arbiter's requests stand in the order in which they came; no two come at once. -/
def oldestReq (a : ArbSt) (l : List XbReq) : Option XbReq := a.reqs.find? (fun r => l.contains r)

/-- N of R167. -/
def Dev.xbN (s : Dev) (h : Nat) : Nat := if s.safe (70 + h) then 16 else max (s.f F.XB_CTL_N) 4

/-- A decision among classes 1 to 3 (R167): the arbiter after it, the winner, whether the grant was the reserved one. -/
def Dev.xbDecide (s : Dev) (h : Nat) (a : ArbSt) (l : List XbReq) : ArbSt × Option XbReq × Bool :=
  if l.isEmpty then (a, none, false)
  else if a.count + 1 = s.xbN h then ({ a with count := 0 }, oldestReq a l, true)
  else
    let order := rrOrder a 1 l ++ rrOrder a 2 l ++ rrOrder a 3 l
    match order.head? with
    | none => (a, none, false)
    | some r =>
      let a1 := { a with count := a.count + 1 }
      (match r.cls with
        | 1 => { a1 with last1 := r.idx }
        | 2 => { a1 with last2 := r.idx }
        | _ => { a1 with last3 := r.idx }, some r, false)

/-- Beats of a TLP (R166). -/
def beatsOf (t : Tlp) : Nat := ceilDiv (tlpLen t) 128

/-- The grant hints of the losers of a decision (R169): beats left in the grant and beats of the requests ranked ahead. -/
def hintsOf (a : ArbSt) (beats : Nat) (l : List XbReq) : List XbReq :=
  let order := rrOrder a 1 l ++ rrOrder a 2 l ++ rrOrder a 3 l
  (order.foldl (fun (acc : List XbReq × Nat) r =>
    (acc.1 ++ [{ r with hint := min 15 (ceilDiv acc.2 8) }], acc.2 + beatsOf r.st.tlp)) (([] : List XbReq), beats)).1

/-- With the TLP of a port gone, a round that nothing eligible is left for ends (R181). -/
def Dev.settleOut (s : Dev) (e : Nat) : Dev := if e < 512 then s.settleRound e else s

/-- The granted TLP leaves. A bypass sends the TLP that is linked on its queue, with CT set (R127, R168). -/
def Dev.xbSend (s : Dev) (r : XbReq) : Dev :=
  if r.cls = 1 then
    let e := r.st.d.egress
    let q := r.st.d.tcq
    if (s.queue e q).contains r.st then
      let s1 := s.setQueue e q ((s.queue e q).erase r.st)
      (if e < 512 then s1.tidyQueue e q else s1).transmit { r.st with ct := true }
    else s
  else if r.idx = 37 then s.transmitGen r.st
  else s.transmit r.st

/-- One decision of the arbiter of output `o` of half `h` (R167-R169). Bypass requests that it does not grant are withdrawn (R168). -/
def Dev.xbRound (s : Dev) (h o : Nat) (chunksReady : Bool) : Dev :=
  let a := s.arb h o
  let l := s.xbPending a
  let (a1, win, rsv) := s.xbDecide h a l
  match win with
  | none => s.setArb h o { a with reqs := a.reqs.filter (fun x => decide (x.cls ≠ 1)) }
  | some r =>
    let beats := beatsOf r.st.tlp
    let losers := hintsOf a1 beats (l.filter (fun x => decide (x.idx ≠ r.idx) && decide (x.cls ≠ 1)))
    let rest := (a1.reqs.erase r).filter (fun x => decide (x.cls ≠ 1))
    let upd (x : XbReq) : XbReq := match losers.find? (fun y => y.idx == x.idx && y.st == x.st) with
      | some y => y
      | none => x
    let s1 := s.setArb h o { a1 with reqs := rest.map upd }
    let s2 := if rsv then s1.inc .xbReserved else s1
    let s3 := if !chunksReady && decide (r.idx < 16) then s2.inc .xbHintMiss else s2
    (s3.xbSend r).settleOut r.st.d.egress

/-! ### The scheduler's choice (R175-R181) -/

/-- The read engine's request put to the arbiter of its output. -/
def Dev.offerOut (s : Dev) (e : Nat) (st : Stored) : Dev :=
  let (h, o) := s.outputOf e
  let a := s.arb h o
  s.setArb h o { a with reqs := a.reqs ++ [{ idx := engineIdx e, cls := engineClass st, st := st }] }

/-- A TLP taken from a queue of a port, its cost charged to the TCQ and to the port (R178, R182). -/
def Dev.takePicked (s : Dev) (p q : Nat) (st : Stored) : Dev :=
  let c := s.cost p q st.tlp
  let s1 := ((s.setQueue p q ((s.queue p q).erase st)).charge p q c).charge p 8 c
  ((s1.tidyQueue p q).settleRound p).offerOut p st

/-- The next TLP of a port: the escape queue's head where it has VC7 credit, else the round robin's choice (R177, R179). One that the replay buffer
has no room for waits at the arbiter (R206). -/
def Dev.schedPort (s : Dev) (p : Nat) : Dev :=
  let esc := if s.role p = 2 then ((s.queue p 8).head?).filter (fun st => s.hasCredit p 7 st.tlp) else none
  match esc with
  | some st => (s.setQueue p 8 (s.queue p 8).tail).offerOut p st
  | none =>
    match s.pickPort p with
    | (s1, some (q, st)) => s1.takePicked p q st
    | (s1, none) => s1

/-- The next TLP of a Porter core port or a physical function: TCQ 0 to 7 in round robin (R175). -/
def Dev.schedFn (s : Dev) (e : Nat) : Dev :=
  let last := s.floor.rrTcq.look 7 e
  match ((List.range 8).map (fun k => (last + 1 + k) % 8)).find? (fun q => !(s.queue e q).isEmpty) with
  | none => s
  | some q =>
    match s.queue e q with
    | [] => s
    | st :: t =>
      let s1 := s.setQueue e q t
      ({ s1 with floor := { s1.floor with rrTcq := s1.floor.rrTcq.put 7 e q } }).offerOut e st

/-- The egress point has no request at its arbiter. -/
def Dev.engineFree (s : Dev) (e : Nat) : Bool :=
  let (h, o) := s.outputOf e
  (s.arb h o).reqs.all (fun r => !r.forEgress e)

/-- A port in L0s or L1 that holds a TLP leaves that state first (R88): L0s at once, L1 through Recovery (log 28). -/
def Dev.wakeLink (s : Dev) (p : Nat) : Dev :=
  if (List.range 9).all (fun q => (s.queue p q).isEmpty) then s
  else match s.f F.PORT_STATUS_LTSSM p with
    | 5 => s.setF F.PORT_STATUS_LTSSM 3 p
    | 6 => (s.setF F.PORT_STATUS_LTSSM 4 p).emit (.link p .retrain)
    | _ => s

/-- EGRESS_SCHEDULE of egress point `e`. -/
def Dev.schedule (s : Dev) (e : Nat) : Dev :=
  if !s.engineFree e then s
  else if 512 ≤ e then s.schedFn e
  else
    let s1 := s.wakeLink e
    if s1.canTransmit e then s1.schedPort e else s1

/-! ### The escape rule (R158) -/

/-- TCQ `q` of fabric port `p`, whose head waits for link credit and for no gate or shaper (R176), escapes: every TLP of it moves to the escape
queue, in order. -/
def Dev.escape (s : Dev) (p q : Nat) : Dev :=
  match s.queue p q with
  | [] => s
  | h :: t =>
    if s.role p = 2 ∧ s.isTwinPort p = false ∧ s.nstate p = 5 ∧ s.hasCredit p (s.vcOf p q) h.tlp = false
        ∧ s.gateOpen p q (s.cost p q h.tlp) = true ∧ s.tokOk p q = true ∧ s.tokOk p 8 = true then
      let moved := (h :: t).map (fun st => { st with moved := true, d := { st.d with tcq := 8, vc := 7 } })
      ((((s.setQueue p q []).setQueue p 8 (s.queue p 8 ++ moved)).tidyQueue p q).settleRound p).inc .escMoves moved.length p
    else s

end Sys2Proof.Machine
end

