-- ==== Sys2Proof/Machine/LockOps.lean ====
section
/-! DEFINITION. Locked sequences at an ingress (R129, R217, R218): the MRdLk in the lock slot, what waits behind it, the answers to a
LOCK_REQ. -/

namespace Sys2Proof.Machine

/-- A TLP that the device keeps outside the queues: its cells are taken, and it counts in INFLIGHT from its lookup cycle (R133). -/
def Dev.keepAside (s : Dev) (st : Stored) : Dev × Stored :=
  let (s1, st1) := s.take st
  (if s1.onFabric st1 then s1.inflight st1.d.bucket true else s1, st1)

/-- A TLP that was kept aside goes into its queue. -/
def Dev.placeKept (s : Dev) (st : Stored) : Dev := (s.leaveBucket st).place st

/-- A TLP bound behind the MRdLk in the lock slot of its ingress (R129, R217): the same egress and TC, and R130 does not let it pass. -/
def LinkSt.waitsBehind (l : LinkSt) (st : Stored) : Bool :=
  match l.lockSlot with
  | some h => h.d.egress == st.d.egress && h.tlp.tc == st.tlp.tc && !(mayPass h.tlp st.tlp && l.behind.all (fun x =>
      x.d.egress != st.d.egress || x.tlp.tc != st.tlp.tc || mayPass x.tlp st.tlp))
  | none => false

/-- The lock slot of port `p` is free: what waited behind it goes into its queues, in order. -/
def Dev.lockSlotFree (s : Dev) (p : Nat) : Dev :=
  let l := s.link p
  l.behind.foldl Dev.placeKept (s.setLink p { l with lockSlot := none, behind := [] })

/-- LOCK_GRANT at port `p` (R218): the MRdLk is released with LOCKED set, and later requests to the same destination carry it too (R200). -/
def Dev.lockGranted (s : Dev) (p : Nat) : Dev :=
  match (s.link p).lockSlot with
  | none => s
  | some st =>
    let l := s.link p
    let s1 := s.setLink p { l with lockSlot := none, locked := true, lockTo := l.lockTo ++ [(st.d.dstMember, st.d.dest)] }
    (s1.placeKept { st with locked := true }).lockSlotFree p

/-- LOCK_BUSY at port `p` (R218): Request Retry Status, where the function allows it. -/
def Dev.lockDenied (s : Dev) (p : Nat) : Dev :=
  match (s.link p).lockSlot with
  | none => s
  | some st =>
    if s.cfBit (portFn p) 0x314 0 then
      let s1 := ((s.lockSlotFree p).freeStored st false).leaveBucket st
      (s1.generate st p (s1.cplIdOf p) .rrs).setCfBits (portFn p) 0x314 4 true
    else s

/-- The answers of one arbitration interval for domain `d` (R217). -/
def Dev.lockArbitrate (s : Dev) (d : Nat) : Dev :=
  let reqs := (s.hall.lockReqs.filter (fun r => r.2.2 == d)).dedup
  let holder := (s.f F.LOCK_STATE_MEMBER d, s.f F.LOCK_STATE_PORT d)
  let can := if s.b F.LOCK_STATE_HELD d then reqs.filter (fun r => (r.1, r.2.1) == holder) else reqs
  let win := can.foldl (fun (w : Option (Nat × Nat × Nat)) r =>
    match w with
    | none => some r
    | some x => if 512 * r.1 + r.2.1 < 512 * x.1 + x.2.1 then some r else some x) none
  let s1 := match win with
    | some r => ((s.setB F.LOCK_STATE_HELD true d).setF F.LOCK_STATE_MEMBER r.1 d).setF F.LOCK_STATE_PORT r.2.1 d
    | none => s
  reqs.foldl (fun s r =>
    let ok := some r == win
    if r.1 = s.me then (if ok then s.lockGranted r.2.1 else s.lockDenied r.2.1)
    else s.sendTree r.1 (if ok then 0x31 else 0x32) s.epoch 0 (leBytes d 1 ++ [0] ++ leBytes r.2.1 2)) s1

/-- An MRdLk in the lock slot of its ingress (R217): it holds its cells there and asks for its domain. -/
def Dev.holdLocked (s : Dev) (p : Nat) (st : Stored) : Dev :=
  let (s1, st1) := s.keepAside st
  (s1.setLink p { s1.link p with lockSlot := some st1 }).lockAsk p

/-- A TLP kept behind the MRdLk of its ingress. -/
def Dev.holdBehind (s : Dev) (p : Nat) (st : Stored) : Dev :=
  let (s1, st1) := s.keepAside st
  s1.setLink p { s1.link p with behind := (s1.link p).behind ++ [st1] }

/-- A locked sequence that used port `p` ends with its link (R218): the domain is released by its ingress and for its locked DSP, and an
MRdLk in the lock slot is discarded; what waits behind it goes on. -/
def Dev.lockEnd (s : Dev) (p : Nat) : Dev :=
  let s1 := s.lockRelease p
  let l := s1.link p
  let s2 := match l.lockDom with
    | some (d, _) => (s1.setLink p { l with lockDom := none }).lockGive d p
    | none => s1
  match l.lockSlot with
  | some st => ((s2.freeStored st true).leaveBucket st).lockSlotFree p
  | none => s2

end Sys2Proof.Machine
end

