-- ==== Sys2Proof/Machine/XlatOps.lean ====
section
/-! DEFINITION. What the Porters and the translation units share: a Porter's tag slots and its core port's queue (R17, R269-R272), the
translation of Stall addresses (R283-R295), invalidations (R292), requests of the management PF. -/

namespace Sys2Proof.Machine

/-- Ring `k % 8` of Stall `k / 8`. -/
def Dev.ring (s : Dev) (k : Nat) : RingSt := s.rings.look {} k

/-- A ring's record replaced. -/
def Dev.setRing (s : Dev) (k : Nat) (x : RingSt) : Dev := { s with rings := s.rings.put {} k x }

/-- A Stall's record. -/
def Dev.stallSt (s : Dev) (n : Nat) : StallSt := s.stalls.look {} n

/-- A Stall's record replaced. -/
def Dev.setStall (s : Dev) (n : Nat) (x : StallSt) : Dev := { s with stalls := s.stalls.put {} n x }

/-- A Porter's record. -/
def Dev.porter (s : Dev) (n : Nat) : PorterSt := s.porters.look {} n

/-- A Porter's record replaced. -/
def Dev.setPorter (s : Dev) (n : Nat) (x : PorterSt) : Dev := { s with porters := s.porters.put {} n x }

/-- The translation unit of half `h`. -/
def Dev.xl (s : Dev) (h : Nat) : XlatSt := s.xlat.look {} h

/-- A translation unit replaced. -/
def Dev.setXl (s : Dev) (h : Nat) (x : XlatSt) : Dev := { s with xlat := s.xlat.put {} h x }

/-- Porter `n` may act: its cluster's domain is ready, it is not in its safe state, and the Porters are in service (R338, R378). -/
def Dev.porterOn (s : Dev) (n : Nat) : Bool :=
  s.b F.DOMAIN_STATE_READY (192 + n / 8) && !s.porterSafe n && s.b F.SVC_CTL_PORTER_EN

/-- 14-Bit Tag Requester Enable of the Porter PF's Device Control 3 (R271, log 13). -/
def Dev.tag14 (s : Dev) : Bool := s.cfBit .porterPf 0x1D8 2

/-- One of a Stall's six counters raised (R420): 0 BYTES_RD, 1 BYTES_WR, 2 DESC_DONE, 3 DESC_ERR, 4 POLLS, 5 XLAT_FAULTS. -/
def Dev.tallyStall (s : Dev) (st c n : Nat) : Dev :=
  let x := s.stallSt st
  s.setStall st { x with counts := x.counts.set c (min (x.counts.getD c 0 + n) (2 ^ 48 - 1)) }

/-- A counter of Porter `n` raised, and the same counter of Stall `st`. -/
def Dev.count (s : Dev) (k : RegKind) (c st n a : Nat) : Dev := (s.inc k a n).tallyStall st c a

/-- `a` descriptors of Stall `st` ended on Porter `n`, with status OK or not. -/
def Dev.countDesc (s : Dev) (st n a : Nat) (ok : Bool) : Dev :=
  let s1 := s.count .descDone 2 st n a
  if ok then s1 else s1.tallyStall st 3 a

/-! ### Tag slots (R271, R272) -/

/-- A tag slot's occupant. -/
def Dev.tagAt (s : Dev) (n slot : Nat) : Option TagSt := (s.porter n).tags.look none slot

/-- A tag slot's occupant replaced. -/
def Dev.setTag (s : Dev) (n slot : Nat) (t : Option TagSt) : Dev :=
  s.setPorter n { s.porter n with tags := (s.porter n).tags.put none slot t }

/-- A tag slot freed. A read that an invalidation waits for is done with it (R292). -/
def Dev.freeTag (s : Dev) (n slot : Nat) : Dev :=
  { s.setTag n slot none with invs := s.invs.map (fun i => { i with reads := i.reads.erase (512 * n + slot) }) }

/-- Two requests carry the same Requester ID. -/
def TagSt.sameRid (t : TagSt) (pf : Bool) (stall : Nat) : Bool := t.pf == pf && (pf || t.stall == stall)

/-- The lowest free slot and the lowest local tag that the Requester ID does not use, of the data or of the other ones. -/
def Dev.findTag (s : Dev) (n : Nat) (pf : Bool) (stall : Nat) (data : Bool) : Option (Nat × Nat) :=
  let tags := (s.porter n).tags
  let used := tags.filterMap (fun e => e.2.bind (fun t => if t.sameRid pf stall then some t.tag else none))
  let slots := if data then List.range 480 else (List.range 32).map (fun k => 480 + k)
  let locals := if data then List.range 224 else (List.range 32).map (fun k => 224 + k)
  match slots.find? (fun k => (tags.look none k).isNone), locals.find? (fun l => !used.contains l) with
  | some a, some b => some (a, b)
  | _, _ => none

/-- A request put at the end of a Porter's core port's queue. -/
def Dev.pushReq (s : Dev) (n : Nat) (q : PReq) : Dev :=
  s.setPorter n { s.porter n with port := (s.porter n).port ++ [q] }

/-- The bytes of a memory request's header: 12 below 4 GiB, 16 above. -/
def memHdr (addr : Nat) : Nat := if addr < 2 ^ 32 then 12 else 16

/-- A request's marks (R269): 0 none, 1 those of data, 2 those of what announces data, 3 those of a message. -/
def Dev.reqFor (s : Dev) (k : Nat) (kind : TlpKind) (marks addr atype : Nat) : Tlp :=
  let st := k / 8
  let r := k % 8
  let pasid : Option (BitVec 20) :=
    if (marks = 1 ∨ marks = 2) ∧ s.b F.RING_CTL_PASID_EN st r = true then some (BitVec.ofNat 20 (s.f F.RING_CTL_PASID st r)) else none
  let priv := s.b F.RING_CTL_PRIV st r && (s.f F.STALL_PRIV_PRIV_OK (st / 64)).testBit (st % 64)
  { kind := kind, addr := BitVec.ofNat 64 addr, atype := BitVec.ofNat 2 atype, reqId := s.stallRid st
    tc := if marks = 0 then 0 else Fin.ofNat 8 (s.f F.RING_CTL_TC st r)
    ro := decide (marks = 1) && s.b F.RING_CTL_RO_EN st r && s.cfBit (.stall st) 0x48 4
    ido := decide (marks ≠ 0) && s.b F.RING_CTL_IDO_EN st r && s.cfBit (.stall st) 0x68 8
    pasid := pasid, pmr := pasid.isSome && priv
    hdr := memHdr addr + (if pasid.isSome then 4 else 0) }

/-- A read issued with a tag slot of its own; `none` while none is free, or the 14-bit tags are not enabled (R271). -/
def Dev.issueTagged (s : Dev) (n : Nat) (t : TagSt) (tlp : Tlp) : Option Dev :=
  match (s.findTag n t.pf t.stall (decide (t.kind ≤ 1))).filter (fun _ => s.tag14) with
  | none => none
  | some (slot, l) =>
    let t1 := { t with tag := l, gen := s.f F.STALL_MGR_STATUS_GEN t.stall }
    let q : PReq := { kind := t.kind, stall := t.stall, ring := t.ring, slot := t.slot, off := t.off, ahead := t.ahead, va := t.va
                      tlp := { tlp with tag := BitVec.ofNat 14 (256 * n + l), len := t.len } }
    some ((s.setTag n slot (some t1)).pushReq n q)

/-- A slot whose GEN is no longer its Stall's (R320). -/
def Dev.staleTag (s : Dev) (t : TagSt) : Bool := t.gen != s.f F.STALL_MGR_STATUS_GEN t.stall

/-! ### Translation (R283-R291) -/

/-- The mode in which a Stall translates (R283). -/
def Dev.xmode (s : Dev) (st : Nat) : Nat :=
  match s.f F.STALL_XLAT_MODE st with
  | 1 => 1
  | 2 => if s.cfBit (.stall st) 0x104 31 then 2 else 0
  | _ => 0

/-- What a translation answers: a bus address and AT, a fault with CAUSE and LEVEL, an abort in the unit's safe state, or nothing
yet. LEVEL 5 stands for the level that a RANGE fault, which reads no entry, leaves open. -/
inductive XRes where
  | ok (addr atype : Nat)
  | fault (cause level : Nat)
  | abort
  | wait
  deriving DecidableEq, Repr

/-- The set of a page in the cache (log 29). -/
def xset (stall page : Nat) : Nat := Config.xlatIndex stall page % 2048

/-- The cached translation of an address (R289). -/
def Dev.xfind (s : Dev) (h st mode : Nat) (pasid : Option (BitVec 20)) (va : Nat) : Option XEnt :=
  [12, 21, 30].findSome? (fun z => ((s.xl h).cache.look [] (xset st (va / 2 ^ z))).find? (fun e =>
    e.stall == st && e.mode == mode && e.pasid == pasid && e.size == z && e.page == va / 2 ^ z))

/-- A cache entry put first in its set, the least recently used of more than eight dropped (R289). -/
def Dev.xput (s : Dev) (h : Nat) (e : XEnt) : Dev :=
  let x := s.xl h
  let l := (x.cache.look [] (xset e.stall e.page)).filter (fun y => !(y.stall == e.stall && y.mode == e.mode && y.pasid == e.pasid
    && y.size == e.size && y.page == e.page))
  s.setXl h { x with cache := x.cache.put [] (xset e.stall e.page) ((e :: l).take 8) }

/-- Cache entries dropped. -/
def Dev.xdrop (s : Dev) (h : Nat) (p : XEnt → Bool) : Dev :=
  let x := s.xl h
  s.setXl h { x with cache := (x.cache.map (fun e => (e.1, e.2.filter (fun y => !p y)))).filter (fun e => !e.2.isEmpty) }

/-- LEVEL of the entry that ended the walk of a cached translation. -/
def XEnt.level (e : XEnt) : Nat := if e.mode = 2 then 0 else if e.size = 12 then 1 else if e.size = 21 then 2 else 3

/-- The bus address and AT that an entry gives (R283, R294). -/
def XEnt.apply (e : XEnt) (va : Nat) : XRes :=
  if e.u then .ok va 0 else .ok (e.bus * 2 ^ e.size + va % 2 ^ e.size) (if e.mode = 2 then 2 else 0)

/-- The PASID and PMR of a translation: the ring's in mode 2 (R294), none for a poll. -/
def Dev.xpasid (s : Dev) (w : XWaiter) : Option (BitVec 20) × Bool :=
  if w.kind = 4 then (none, false)
  else let t := s.reqFor (8 * w.stall + w.ring) .mrd 2 0 0; (t.pasid, t.pmr)

/-- A table read or a Translation Request of a walk issued through the Porter that waits for it first (R288, R294). -/
def Dev.walkIssue (s : Dev) (h i : Nat) : Dev :=
  match (s.xl h).walks.look none i with
  | none => s
  | some w =>
    match w.waiters.head? with
    | none => s
    | some x =>
      if w.slot.isSome || w.prg.isSome || w.done || !s.tag14 then s
      else
        let n := x.porter
        let t : TagSt := { kind := if w.mode = 1 then 5 else 6, stall := w.stall, ring := x.ring, pf := w.mode == 1, tag := 0
                           slot := i, len := 8, va := w.addr
                           addr := if w.mode = 1 then w.table + w.addr / 2 ^ (3 + 9 * w.level) % 512 * 8 else w.addr }
        let tlp : Tlp := if w.mode = 1 then { kind := .mrd, addr := BitVec.ofNat 64 t.addr, reqId := s.porterRid, hdr := memHdr t.addr }
          else { kind := .xlatReq, addr := BitVec.ofNat 64 (w.addr / 4096 * 4096), atype := 1, reqId := s.stallRid w.stall
                 pasid := w.pasid, pmr := w.pmr, hdr := memHdr w.addr + (if w.pasid.isSome then 4 else 0) }
        match s.findTag n t.pf t.stall false, s.issueTagged n t tlp with
        | some (slot, _), some s1 =>
          s1.setXl h { s1.xl h with walks := (s1.xl h).walks.put none i (some { w with slot := some (512 * n + slot) }) }
        | _, _ => s

/-- A request to a translation unit that cannot take it yet waits there. -/
def Dev.walkQueue (s : Dev) (h : Nat) (w : XWaiter) (va : Nat) : Dev :=
  let x := s.xl h
  if x.waitq.any (fun q => q.1 == w) then s else s.setXl h { x with waitq := x.waitq ++ [(w, va)] }

/-- A walk or Translation Request begins (R290); with 64 under way it waits. -/
def Dev.walkStart (s : Dev) (h : Nat) (w : XWaiter) (mode : Nat) (va : Nat) : Dev :=
  let x := s.xl h
  match (List.range 64).find? (fun i => (x.walks.look none i).isNone) with
  | none => s.walkQueue h w va
  | some i =>
    let (pasid, pmr) := s.xpasid w
    let y : WalkSt := { stall := w.stall, mode := mode, pasid := if mode = 2 then pasid else none, pmr := decide (mode = 2) && pmr
                        addr := va, level := 4, table := s.f F.STALL_XLAT_ROOT w.stall * 4096, waiters := [w] }
    (((s.setXl h { x with walks := x.walks.put none i (some y) }).inc .xlatMisses 1 h)).walkIssue h i

/-- The Page Request of a waiter: its place among the walks, after the 64 that run. -/
def prgSlot (w : XWaiter) : Nat := 64 + 16 * w.stall + (if w.kind = 4 then 8 else w.ring)

/-- A page request of PRG Index `prg` of a Stall that is outstanding. -/
def Dev.prgWalk (s : Dev) (h st prg : Nat) : Option (Nat × WalkSt) :=
  (s.xl h).walks.findSome? (fun e => e.2.bind (fun y => if y.prg == some prg && y.stall == st && !y.done then some (e.1, y) else none))

/-- Page requests outstanding. -/
def Dev.prgCount (s : Dev) : Nat :=
  (s.xlat.map (fun e => (e.2.walks.filter (fun w => match w.2 with
    | some y => y.prg.isSome
    | none => false)).length)).foldl (· + ·) 0

/-- A mode 2 fault of cause NO_READ, NO_WRITE or ATS_DENIED (R295): a page request, or the fault. Its PRG Index is the ring's, so that a second
page of the ring waits for the first one's answer. A tally page makes no page request (R420). -/
def Dev.xdeny (s : Dev) (h : Nat) (w : XWaiter) (va cause : Nat) : Dev × XRes :=
  let (pasid, pmr) := s.xpasid w
  let prg := 8 * w.porter + w.ring
  if w.kind == 9 || !(s.cfBit .porterPf 0x1B4 0 && s.b F.STALL_XLAT_PRI_EN w.stall) then (s, .fault cause 0)
  else match s.prgWalk h w.stall prg with
  | some (i, y) =>
    if y.addr / 4096 = va / 4096 ∧ y.pasid = pasid ∧ y.pmr = pmr then
      (s.setXl h { s.xl h with walks := (s.xl h).walks.put none i (some { y with waiters := y.waiters ++ [w] }) }, .wait)
    else (s.walkQueue h w va, .wait)
  | none =>
    if s.cfNum .porterPf 0x1BC 0 32 ≤ s.prgCount then (s, .fault 9 0)
    else
      let y : WalkSt := { stall := w.stall, mode := 2, pasid := pasid, pmr := pmr, addr := va, level := 0, waiters := [w], prg := some prg }
      let t : Tlp := { kind := .pageReq, addr := BitVec.ofNat 64 (va / 4096 * 4096), reqId := s.stallRid w.stall, tag := BitVec.ofNat 14 prg
                       pasid := pasid, pmr := pmr, last := true }
      ((s.setXl h { s.xl h with walks := (s.xl h).walks.put none (prgSlot w) (some y) }).pushReq w.porter
        { kind := 14, stall := w.stall, ring := w.ring, va := va, tlp := t }, .wait)

/-- A walk that holds a waiter for the page of an address. -/
def Dev.walkOf (s : Dev) (h : Nat) (w : XWaiter) (va : Nat) : Option (Nat × WalkSt) :=
  (s.xl h).walks.findSome? (fun e => e.2.bind (fun y =>
    if y.waiters.contains w && y.addr / 4096 == va / 4096 then some (e.1, y) else none))

/-- A walk under way that a miss may share (R290). -/
def Dev.walkShared (s : Dev) (h : Nat) (w : XWaiter) (mode va : Nat) : Option (Nat × WalkSt) :=
  let (pasid, pmr) := s.xpasid w
  (s.xl h).walks.findSome? (fun e => e.2.bind (fun y =>
    if !y.done && y.prg.isNone && y.stall == w.stall && y.mode == mode && y.addr / 4096 == va / 4096
        && (mode == 1 || (y.pasid == pasid && y.pmr == pmr)) then some (e.1, y) else none))

/-- An access without permission: NO_READ or NO_WRITE (R286, R295). -/
def Dev.xrefuse (s : Dev) (h : Nat) (w : XWaiter) (va : Nat) (wr : Bool) (mode level : Nat) : Dev × XRes :=
  if mode = 2 then s.xdeny h w va (if wr then 2 else 1) else (s, .fault (if wr then 2 else 1) level)

/-- What an address gets from a cached translation, with its permission checked (R287). -/
def Dev.xuse (s : Dev) (h : Nat) (w : XWaiter) (va : Nat) (wr : Bool) (e : XEnt) : Dev × XRes :=
  if (if wr then e.w else e.r) then (s.xput h e, e.apply va) else s.xrefuse h w va wr e.mode e.level

/-- The translation of a Stall address for a waiter. With the unit's clocks stopped it waits (R376). A request that its own walk answers is not
counted as a hit. -/
def Dev.xlate (s : Dev) (w : XWaiter) (va : Nat) (wr : Bool) : Dev × XRes :=
  let h := w.porter / 32
  let mode := s.xmode w.stall
  if mode = 0 then (s, .ok va 0)
  else if s.safe (80 + h) || s.f F.DOMAIN_STATE_POWER (200 + h) != 2 then (s, .abort)
  else if !s.b F.DOMAIN_STATE_READY (200 + h) then (s.walkQueue h w va, .wait)
  else if mode = 1 ∧ 2 ^ 48 ≤ va then (s, .fault 4 5)
  else
    let pasid := if mode = 2 then (s.xpasid w).1 else none
    match s.walkOf h w va with
    | some (i, y) =>
      if y.done then
        let s1 := s.setXl h { s.xl h with walks := (s.xl h).walks.put none i (some { y with waiters := y.waiters.erase w }) }
        match y.res with
        | some (6, _) => s1.xdeny h w va 6
        | some (c, l) =>
          if c = 1 ∨ c = 2 then s1.xrefuse h w va wr mode l else (s1, .fault c l)
        | none =>
          match s1.xfind h w.stall mode pasid va with
          | some e => s1.xuse h w va wr e
          | none => (s1.walkStart h w mode va, .wait)
      else (s, .wait)
    | none =>
      match s.xfind h w.stall mode pasid va with
      | some e => (s.inc .xlatHits 1 h).xuse h w va wr e
      | none =>
        match s.walkShared h w mode va with
        | some (i, y) =>
          (s.setXl h { s.xl h with walks := (s.xl h).walks.put none i (some { y with waiters := y.waiters ++ [w] }) }, .wait)
        | none => (s.walkStart h w mode va, .wait)

/-- Walks for which nothing waits any more, and which have no read under way, leave the unit. -/
def Dev.xtidy (s : Dev) (h : Nat) : Dev :=
  let x := s.xl h
  s.setXl h { x with walks := x.walks.filter (fun e => match e.2 with
    | some y => !y.waiters.isEmpty || (y.slot.isSome && !y.done)
    | none => false) }

/-- A waiter leaves every walk and the queue: it wants no translation any more. -/
def Dev.xforget (s : Dev) (h : Nat) (p : XWaiter → Bool) : Dev :=
  let x := s.xl h
  (s.setXl h { x with
    walks := x.walks.map (fun e => (e.1, e.2.map (fun y => { y with waiters := y.waiters.filter (fun w => !p w) })))
    waitq := x.waitq.filter (fun q => !p q.1) }).xtidy h

/-- A walk ends, with the fault or without; the waiters take its answer (R286). -/
def Dev.walkEnd (s : Dev) (h i : Nat) (res : Option (Nat × Nat)) : Dev :=
  let x := s.xl h
  match x.walks.look none i with
  | some y => s.setXl h { x with walks := x.walks.put none i (some { y with done := true, res := res, slot := none }) }
  | none => s

/-- The access that a waiter's translation is for is a write (R287): list and data reads, descriptor and doorbell reads are none. -/
def XWaiter.writes (w : XWaiter) : Bool := w.kind == 1 || w.kind == 5 || w.kind == 6 || w.kind == 9

/-- A walk has found a leaf or an ATS result (R286): it is cached where it permits what some waiter wants. Where it permits none of it the
walk ends in NO_READ or NO_WRITE, and a walk that ends in a fault is not cached (R289). -/
def Dev.walkLeaf (s : Dev) (h i : Nat) (y : WalkSt) (e : XEnt) : Dev :=
  if y.waiters.any (fun w => if w.writes then e.w else e.r) then (s.xput h e).walkEnd h i none
  else s.walkEnd h i (some (if e.r then 2 else 1, e.level))

/-- One table entry read by a walk (R285, R286). -/
def Dev.walkEntry (s : Dev) (h i : Nat) (y : WalkSt) (e : BitVec 64) : Dev :=
  let v := e.toNat
  let addr := v / 4096 % 2 ^ 40
  let leaf := y.level == 1 || e.getLsbD 3
  let mis := (y.level == 3 && addr % 2 ^ 18 != 0) || (y.level == 2 && addr % 2 ^ 9 != 0)
  if !e.getLsbD 0 then s.walkEnd h i (some (0, y.level))
  else if e.getLsbD 63 || (y.level == 4 && leaf) || (leaf && mis) then s.walkEnd h i (some (3, y.level))
  else if leaf then
    let z := if y.level = 1 then 12 else if y.level = 2 then 21 else 30
    s.walkLeaf h i y { stall := y.stall, mode := 1, pasid := none, size := z, page := y.addr / 2 ^ z, bus := addr * 4096 / 2 ^ z
                       r := e.getLsbD 1, w := e.getLsbD 2 }
  else
    let y1 := { y with level := y.level - 1, table := addr * 4096, slot := none }
    (s.setXl h { s.xl h with walks := (s.xl h).walks.put none i (some y1) }).walkIssue h i

/-- A Translation Completion (R294): cached in the largest page that the range of 2^`sz` bytes covers, with the bus page at the address's place
in that range. -/
def Dev.atsEntry (s : Dev) (h i : Nat) (y : WalkSt) (r wr u : Bool) (addr sz : Nat) : Dev :=
  if !r && !wr then s.walkEnd h i (some (6, 0))
  else
    let z := if 30 ≤ sz then 30 else if 21 ≤ sz then 21 else 12
    let base := addr / 2 ^ max sz 12 * 2 ^ max sz 12
    s.walkLeaf h i y { stall := y.stall, mode := 2, pasid := y.pasid, size := z, page := y.addr / 2 ^ z
                       bus := (base + y.addr % 2 ^ max sz 12) / 2 ^ z, r := r, w := wr, u := u }

/-! ### Invalidation (R292, R293) -/

/-- A page range, translated in `mode` for a PASID, lies in an invalidation's scope; an ATS Invalidation Request names the entries of mode 2 with
its PASID, or with none (R293). -/
def InvSt.covers (v : InvSt) (st mode : Nat) (pasid : Option (BitVec 20)) (addr len : Nat) : Bool :=
  v.scope == 0 || (v.stall == st && (v.itag.isNone || (mode == 2 && pasid == v.pasid)) && (v.scope == 1 || v.scope == 3
    || (decide (addr < 4096 * (v.page + v.pages)) && decide (4096 * v.page < addr + len))))

/-- The page, as log2 bytes, that a walk may still end in. -/
def WalkSt.reach (y : WalkSt) : Nat := if y.mode = 2 ∨ 3 ≤ y.level then 30 else if y.level = 2 then 21 else 12

/-- A request's translation lies in an invalidation's scope. -/
def Dev.inScope (s : Dev) (v : InvSt) (w : XWaiter) (addr len : Nat) : Bool := v.covers w.stall (s.xmode w.stall) (s.xpasid w).1 addr len

/-- A walk discarded by an invalidation: it starts again from the root, and its read is not waited for. -/
def Dev.walkRestart (s : Dev) (h i : Nat) (y : WalkSt) : Dev :=
  let s1 := match y.slot with
    | some k => match s.tagAt (k / 512) (k % 512) with
      | some t => s.setTag (k / 512) (k % 512) (some { t with dead := true })
      | none => s
    | none => s
  let y1 := { y with level := 4, table := s.f F.STALL_XLAT_ROOT y.stall * 4096, slot := none }
  (s1.setXl h { s1.xl h with walks := (s1.xl h).walks.put none i (some y1) }).walkIssue h i

/-- An invalidation begins in both halves (R292). A walk is in its scope where the page that it may still end in overlaps it. -/
def Dev.invStart (s : Dev) (v : InvSt) : Dev :=
  let drop (e : XEnt) : Bool := v.covers e.stall e.mode e.pasid (e.page * 2 ^ e.size) (2 ^ e.size)
  let s1 := (s.xdrop 0 drop).xdrop 1 drop
  let walks (h : Nat) : List (Nat × Nat × WalkSt) := (s1.xl h).walks.filterMap (fun e => e.2.bind (fun y =>
    if !y.done && y.prg.isNone && v.covers y.stall y.mode y.pasid (y.addr / 2 ^ y.reach * 2 ^ y.reach) (2 ^ y.reach) then some (h, e.1, y)
    else none))
  let s2 := (walks 0 ++ walks 1).foldl (fun s x => s.walkRestart x.1 x.2.1 x.2.2) s1
  let reads := s2.porters.flatMap (fun e => e.2.tags.filterMap (fun t => t.2.bind (fun y =>
    let w : XWaiter := { porter := e.1, stall := y.stall, ring := y.ring, kind := if y.kind = 3 then 4 else 0 }
    if decide (y.kind ≤ 4) && !y.quar && s2.inScope v w y.va (max y.len 1) then some (512 * e.1 + t.1) else none)))
  let writes := s2.porters.filterMap (fun e =>
    let w (q : PReq) : XWaiter := { porter := e.1, stall := q.stall, ring := q.ring, kind := if q.kind = 16 then 9 else 1 }
    let l := (e.2.port.zipIdx.filter (fun q => decide (10 ≤ q.1.kind ∧ q.1.kind ≤ 12 ∨ q.1.kind = 16)
      && s2.inScope v (w q.1) q.1.va (max q.1.tlp.payload.length 1))).map (fun q => q.2 + 1)
    if l.isEmpty then none else some (e.1, l.foldl max 0))
  { s2 with invs := s2.invs ++ [{ v with reads := reads, writes := writes }] }

/-- A request has left the core port of Porter `n`: invalidations wait for one fewer. -/
def Dev.invBound (s : Dev) (n : Nat) : Dev :=
  let upd (w : Nat × Nat) : Nat × Nat := if w.1 = n then (w.1, w.2 - 1) else w
  { s with invs := s.invs.map (fun i => { i with writes := (i.writes.map upd).filter (fun w => decide (w.2 ≠ 0)) }) }

/-- An invalidation is complete. -/
def Dev.invComplete (s : Dev) (v : InvSt) : Bool :=
  v.reads.isEmpty && v.writes.all (fun w => (s.porter w.1).port.isEmpty)

/-! ### Requests of the management PF (R300, R326) -/

/-- A bound request of the management PF finds cells that are neither reserved nor pledged, and the Aisle's credit where it crosses (R12, R145). -/
def Dev.mgmtFits (s : Dev) (st : Stored) : Bool :=
  s.copyFits st && !s.copyWaits st
    && (!s.aisleWaits st || decide (s.aisleLen (s.aisleNo st) < Config.aisleDepth (s.ingressHalf st.ingress) (clsOf st.tlp.kind)))

/-- A request of the management PF bound in the lookup cycle and stored, once it finds room; whether it was bound with ACTION 0. -/
def Dev.mgmtRequest (s : Dev) (t : Tlp) : Dev × Bool :=
  let id := s.bindCount
  match ({ s with bindCount := s.bindCount + 1 } : Dev).lookup 1023 (s.f F.SVC_CTL_MGMT_PART) { t with reqId := s.mgmtRid } false true with
  | .ok (s1, d, _) =>
    if d.action = 0 then
      let st : Stored := { id := id, d := d, tlp := { t with reqId := s.mgmtRid }, pool := 4 }
      (if s1.mgmtQ.isEmpty && s1.mgmtFits st then s1.place st else { s1 with mgmtQ := s1.mgmtQ ++ [st] }, true)
    else (s1, false)
  | .error _ => (s, false)

/-- A posted write of the management PF. -/
def mgmtWrite (addr : Nat) (data : List Byte) : Tlp :=
  { kind := .mwr, addr := BitVec.ofNat 64 addr, payload := data, len := data.length, hdr := memHdr addr }

end Sys2Proof.Machine
end

