-- ==== Sys2Proof/Machine/PorterOps.lean ====
section
/-! DEFINITION. Rings and descriptors (R257-R282): what a descriptor says, its segments (R296), parking and rolling back (R298, R303),
halts (R279), the Stall's share of its Porter (R310-R314). -/

namespace Sys2Proof.Machine

/-! ### Rings -/

/-- STATE of a ring: 0 DISABLED, 1 IDLE, 2 RUNNING, 3 STOPPING, 4 HALTED, 5 SUSPENDED. -/
def Dev.rstate (s : Dev) (k : Nat) : Nat := s.f F.RING_STATUS_STATE (k / 8) (k % 8)

/-- STATE of a ring replaced. -/
def Dev.setRstate (s : Dev) (k v : Nat) : Dev := s.setF F.RING_STATUS_STATE v (k / 8) (k % 8)

/-- Slots of a ring (R259). -/
def Dev.rsize (s : Dev) (k : Nat) : Nat := 2 ^ min (max (s.f F.RING_CTL_SIZE_LOG2 (k / 8) (k % 8)) 4) 16

/-- CI of a ring. -/
def Dev.rci (s : Dev) (k : Nat) : Nat := s.f F.RING_STATUS_CI (k / 8) (k % 8)

/-- PHASE of a ring. -/
def Dev.rphase (s : Dev) (k : Nat) : Bool := s.b F.RING_STATUS_PHASE (k / 8) (k % 8)

/-- CI and PHASE of a ring replaced. -/
def Dev.setCi (s : Dev) (k ci : Nat) (ph : Bool) : Dev :=
  (s.setF F.RING_STATUS_CI ci (k / 8) (k % 8)).setB F.RING_STATUS_PHASE ph (k / 8) (k % 8)

/-- The slot `n` past a slot, and PHASE there (R276). -/
def Dev.slotPast (s : Dev) (k slot : Nat) (ph : Bool) (n : Nat) : Nat × Bool :=
  let z := s.rsize k
  ((slot + n) % z, if z ≤ slot + n then !ph else ph)

/-- The Porter that serves a Stall (R309). -/
def Dev.stallPorter (s : Dev) (st : Nat) : Nat := s.f F.STALL_BIND_PORTER st

/-- The Stalls bound to Porter `n`, in ascending order. -/
def Dev.boundTo (s : Dev) (n : Nat) : List Nat :=
  s.regs.filterMap (fun e => if e.1.kind = .stallBind ∧ getBits e.2 0 7 = n + 64 then some e.1.i else none)

/-! ### Descriptors (R264-R267) -/

/-- `n` bytes at offset `off` of a slot as a number. -/
def rawNum (r : BitVec 512) (off n : Nat) : Nat := (r.toNat >>> (8 * off)) % 2 ^ (8 * n)

/-- A field of a descriptor's first slot. -/
def Desc.num (d : Desc) (off n : Nat) : Nat := rawNum (d.raw.headD 0) off n

/-- OPCODE. -/
def Desc.op (d : Desc) : Nat := d.num 0 1
/-- FLAGS bit `b`: 0 CPL, 1 IRQ, 2 SRC_LIST, 3 DST_LIST. -/
def Desc.flag (d : Desc) (b : Nat) : Bool := (d.num 1 1).testBit b
/-- The descriptor moves data. -/
def Desc.moves (d : Desc) : Bool := d.op == 1 || d.op == 2 || d.op == 3
/-- LENGTH. -/
def Desc.len (d : Desc) : Nat := if d.op = 3 then d.num 3 1 else if d.op ≤ 2 then d.num 8 8 else 0
/-- DST. -/
def Desc.dstAddr (d : Desc) : Nat := if d.op = 3 then d.num 8 8 else d.num 0x18 8
/-- USER as a record shows it. -/
def Desc.user (d : Desc) : Nat := if d.op = 3 then d.num 4 4 else d.num 0x20 8
/-- The descriptor writes a record (R276). -/
def Desc.recorded (d : Desc) : Bool := d.flag 0 || (match d.ended with
  | some (e, _, _) => e != 0
  | none => false)

/-- An INLINE's slots as its LENGTH and SLOTS give them, where they are good (R266). -/
def Desc.inlineSlots (d : Desc) : Option Nat :=
  let m := (16 + d.num 3 1 + 63) / 64
  if d.num 3 1 = 0 ∨ 240 < d.num 3 1 ∨ d.num 2 1 ≠ m then none else some m

/-- The descriptor ended with status OK. -/
def Desc.endedOk (d : Desc) : Bool := match d.ended with
  | some (e, _, _) => e == 0
  | none => false

/-- The descriptor has failed, and its ring has not halted for it yet. -/
def Desc.bad (d : Desc) : Bool := !d.halted && (d.fail.isSome || (d.ended.isSome && !d.endedOk))

/-- The descriptors of a ring that may still act: none behind one that has failed (R275, R279). -/
def RingSt.live (x : RingSt) : List Desc :=
  let l := x.prog.takeWhile (fun d => !d.bad)
  l ++ (x.prog.drop l.length).take 1

/-- No descriptor can start before more slots have come: none is there, or the next is an INLINE that lacks some (R263). -/
def RingSt.lacksSlots (x : RingSt) : Bool := match x.slots with
  | [] => true
  | r :: _ =>
    let d : Desc := { slot := 0, raw := [r] }
    d.op == 3 && (match d.inlineSlots with
      | some m => decide (x.slots.length < m)
      | none => false)

/-- The bytes of an INLINE payload from offset `off` on. -/
def Desc.inlineBytes (d : Desc) (off n : Nat) : List Byte :=
  (List.range n).map (fun j =>
    let k := 16 + off + j
    BitVec.ofNat 8 (rawNum (d.raw.getD (k / 64) 0) (k % 64) 1))

/-- The bytes of a FILL from offset `off` on. -/
def Desc.fillBytes (d : Desc) (off n : Nat) : List Byte :=
  (List.range n).map (fun j => BitVec.ofNat 8 (d.num (0x28 + (off + j) % 8) 1))

/-- The address of offset `off`, where its piece begins, and where it ends. -/
def Cursor.place (c : Cursor) (off : Nat) : Option (Nat × Nat × Nat) :=
  (c.pieces.find? (fun p => decide (p.1 ≤ off) && decide (off < p.1 + p.2.2))).map (fun p => (p.2.1 + (off - p.1), p.1, p.1 + p.2.2))

/-- Bytes named so far. -/
def Cursor.named (c : Cursor) : Nat := match c.pieces.getLast? with
  | some p => p.1 + p.2.2
  | none => 0

/-- A cursor at an address or at a list. -/
def cursorOf (list : Bool) (addr len : Nat) : Cursor := if list then { next := some addr } else { pieces := [(0, addr, len)] }

/-- The lowest segment boundary above offset `off` (R296). -/
def Desc.segEnd (d : Desc) (off : Nat) : Nat := match d.dst.place off with
  | some (a, _, e) => min (min (off + (4096 - a % 4096)) e) d.len
  | none => d.len

/-- The segment boundary at or below offset `off` nearest to it. -/
def Desc.segStart (d : Desc) (off : Nat) : Nat := match d.dst.place off with
  | some (a, b, _) => max (off - a % 4096) b
  | none => min off d.dst.named

/-- The lowest segment boundary at or above offset `off`. -/
def Desc.segUp (d : Desc) (off : Nat) : Nat := if d.len ≤ off then d.len else if d.segStart off = off then off else d.segEnd off

/-- Below the offset at which the descriptor issues nothing more. -/
def Desc.below (d : Desc) (off : Nat) : Bool := match d.lim with
  | some l => decide (off < l)
  | none => true

/-- A descriptor as it resumes at offset `p` (R297). -/
def Desc.park (d : Desc) (p : Nat) : Desc :=
  { d with rd := p, wr := p, charged := p, stage := [], fail := none, lim := none, noted := false, sync := none, redo := [] }

/-- The staged bytes at an offset and whether one is poisoned; `none` while one has not come in. -/
def gather (stage : List (Nat × List Byte × Bool)) (off len : Nat) : Nat → Option (List Byte × Bool)
  | 0 => none
  | n + 1 =>
    if len = 0 then some ([], false)
    else match stage.find? (fun p => decide (p.1 ≤ off) && decide (off < p.1 + p.2.1.length)) with
      | none => none
      | some (o, l, ep) =>
        let a := (l.drop (off - o)).take len
        (gather stage (off + a.length) (len - a.length) n).map (fun r => (a ++ r.1, ep || r.2))

/-- A descriptor of a ring changed, in progress or parked. -/
def Dev.updDesc (s : Dev) (k slot : Nat) (f : Desc → Desc) : Dev :=
  let x := s.ring k
  let g (d : Desc) : Desc := if d.slot = slot then f d else d
  s.setRing k { x with prog := x.prog.map g, saved := x.saved.map (fun v => (v.1, v.2.1, v.2.2.map g)) }

/-- Reads of descriptors that have ended with an error, or that a halt ends (R279, R305): a read-ahead is discarded as it completes; what the oldest
descriptor read is taken and counted, and has no descriptor any more. -/
def Dev.orphanReads (s : Dev) (n k : Nat) (p : TagSt → Bool) : Dev :=
  let x := s.porter n
  let mine (t : TagSt) : Bool := t.stall == k / 8 && t.ring == k % 8 && decide (t.kind ≤ 1) && p t
  let out (t : TagSt) : TagSt := if t.ahead then { t with dead := true } else { t with slot := 65536 }
  s.setPorter n { x with tags := x.tags.map (fun e => (e.1, e.2.map (fun t => if mine t then out t else t))) }

/-- A descriptor in progress ends with a status, BYTES_DONE and FAULT_ADDR (R275). -/
def Dev.endDesc (s : Dev) (n k slot status bytes addr : Nat) : Dev :=
  if (s.ring k).prog.any (fun d => d.slot == slot && d.ended.isNone) then
    let s1 := (s.updDesc k slot (fun d => { d with ended := some (status, bytes, addr), unbound := 0 })).countDesc (k / 8) n 1 (status == 0)
    if status = 0 then s1 else s1.orphanReads n k (fun t => t.slot == slot)
  else s

/-! ### Vectors of a Stall (R278, R281) -/

/-- Vector `e` of a ring's Stall sent through the core port, or its Pending Bit set. -/
def Dev.stallMsg (s : Dev) (n k e : Nat) : Dev :=
  let f := Fn.stall (k / 8)
  if !s.porterOn n then s
  else if s.msixReady f e then
    let a := (s.msixDw f e 0).toNat + 2 ^ 32 * (s.msixDw f e 1).toNat
    let t := s.reqFor k .mwr 3 a 0
    s.pushReq n { kind := 13, stall := k / 8, ring := k % 8, tlp := { t with payload := leBytes (s.msixDw f e 2).toNat 4, len := 4 } }
  else s.setPendingBit f e true

/-- Entry `e` of Stall `n` sent through the core port of its Porter, or pending where it has none that runs (R17, R319). -/
def Dev.stallVec (s : Dev) (n e : Nat) : Dev :=
  if s.b F.STALL_BIND_BOUND n && s.porterOn (s.stallPorter n) then s.stallMsg (s.stallPorter n) (8 * n) e
  else s.setPendingBit (.stall n) e true

/-- ERR_VEC of a ring's Stall. -/
def Dev.errVec (s : Dev) (n k : Nat) : Dev := s.stallMsg n k (s.f F.STALL_CTL_ERR_VEC (k / 8))

/-- CFG_ERR of a Stall raises its ERR_VEC (R281, R282). -/
def Dev.cfgErr (s : Dev) (st : Nat) : Dev := (s.setB F.STALL_STATUS_CFG_ERR true st).stallVec st (s.f F.STALL_CTL_ERR_VEC st)

/-! ### Requests and reads withdrawn -/

/-- Requests leave a Porter's core port unbound; the tag slots of reads among them are freed. -/
def Dev.dropReqs (s : Dev) (n : Nat) (p : PReq → Bool) : Dev :=
  let l := (s.porter n).port
  let gone := l.filter p
  let s1 := s.setPorter n { s.porter n with port := l.filter (fun q => !p q) }
  gone.foldl (fun s q =>
    if q.kind ≤ 6 then
      match (s.porter n).tags.find? (fun e => match e.2 with
        | some t => t.tag == q.tlp.tag.toNat % 256 && t.sameRid (q.tlp.reqId == s.porterRid) q.stall
        | none => false) with
      | some (slot, _) => s.freeTag n slot
      | none => s
    else s) s1

/-- Reads whose data is to be discarded on completion (R279, R298). -/
def Dev.killReads (s : Dev) (n : Nat) (p : TagSt → Bool) : Dev :=
  let x := s.porter n
  s.setPorter n { x with tags := x.tags.map (fun e => (e.1, e.2.map (fun t => if p t then { t with dead := true } else t))) }

/-- A read of ring `k`. -/
def TagSt.ofRing (t : TagSt) (k : Nat) : Bool := t.stall == k / 8 && t.ring == k % 8 && decide (t.kind ≤ 2 ∨ t.kind = 4)

/-- A ring's translations are wanted no more. -/
def Dev.ringForget (s : Dev) (k : Nat) (p : XWaiter → Bool) : Dev :=
  let mine (w : XWaiter) : Bool := w.stall == k / 8 && w.ring == k % 8 && w.kind != 4 && p w
  (s.xforget 0 mine).xforget 1 mine

/-- All but the first `keep` descriptors of a ring are rolled back (R298 item 4): their reads are discarded and they start again from
their slots. -/
def Dev.rollBack (s : Dev) (n k keep : Nat) : Dev :=
  let x := s.ring k
  match x.prog.drop keep with
  | [] => s
  | d :: t =>
    let gone := d :: t
    let s1 := s.setRing k { x with prog := x.prog.take keep, slots := gone.flatMap Desc.raw ++ x.slots }
    (s1.setCi k d.slot d.phase).killReads n (fun y => y.ofRing k && decide (y.kind ≤ 1) && gone.any (fun g => g.slot == y.slot))

/-- The Porter serves the ring no more. -/
def Dev.leaveRing (s : Dev) (n k : Nat) : Dev :=
  let p := s.porter n
  if p.ring = some k then s.setPorter n { p with ring := none, park := false } else s

/-- Fault records of a ring that still wait for room are dropped (R319). -/
def Dev.dropFq (s : Dev) (p : FqRec → Bool) : Dev :=
  let go (s : Dev) (h : Nat) : Dev := s.setXl h { s.xl h with fq := (s.xl h).fq.filter (fun r => !p r) }
  go (go s 0) 1

/-- A ring takes HALTED (R279): `keep` are the descriptors whose records are still to be written; CI is where RESUME goes on. Later descriptors end
without records, and the slots from CI on, fetched already, are kept for RESUME; not so, with `hold` false, where a Stall is silenced or the
ring's context is lost: what was issued then proceeds by itself. -/
def Dev.haltRing (s : Dev) (k err fail ci : Nat) (ph : Bool) (keep : List Desc) (hold : Bool := true) : Dev :=
  let n := s.stallPorter (k / 8)
  let x := s.ring k
  let lost := (x.prog.filter (fun d => d.ended.isNone && !keep.any (fun y => y.slot == d.slot))).length
  let later := ((x.saved.bind (fun v => v.2.2)).toList ++ x.prog).dropWhile (fun d => d.slot != ci)
  let s1 := (((s.setRstate k 4).setF F.RING_STATUS_ERR err (k / 8) (k % 8)).setF F.RING_STATUS_FAIL_IDX fail (k / 8) (k % 8)).setCi
    k ci ph
  let prog := keep.map (fun d => { d with halted := d.halted || !d.endedOk })
  let s2 := s1.setRing k (
    if hold then { pi := x.pi, fetch := x.fetch, slots := later.flatMap Desc.raw ++ x.slots, fetching := x.fetching, prog := prog, ports := x.ports
                   flushing := x.flushing, again := x.again, flushBad := x.flushBad }
    else { pi := x.pi, fetch := ci, prog := prog, ports := x.ports })
  let s3 := (if hold then
      (s2.orphanReads n k (fun _ => true)).dropReqs n (fun q => q.stall == k / 8 && q.ring == k % 8 && (q.kind == 10 || q.kind == 12))
    else s2.killReads n (fun t => t.ofRing k && decide (t.kind ≤ 2))).ringForget k (fun _ => true)
  let s4 := ((s3.dropFq (fun r => r.stall == k / 8 && r.ring == k % 8 && r.x.kind != 4)).countDesc (k / 8) n lost false).leaveRing n k
  if keep.isEmpty then s4.errVec n k else s4

/-- A ring halts without a record (R279, R319): CI is the first descriptor that has none. -/
def Dev.haltNow (s : Dev) (k err : Nat) (hold : Bool) : Dev :=
  let x := s.ring k
  let d := x.prog.head?.or (x.saved.bind (fun v => v.2.2))
  let (ci, ph) := match d with
    | some d => (d.slot, d.phase)
    | none => (s.rci k, s.rphase k)
  s.haltRing k err ci ci ph [] hold

/-- A ring is enabled and may halt: IDLE, RUNNING or SUSPENDED (R258, R280). -/
def Dev.ringEnabled (s : Dev) (k : Nat) : Bool := s.rstate k == 1 || s.rstate k == 2 || s.rstate k == 5

/-- Every enabled ring of a Stall halts without a record. -/
def Dev.haltStall (s : Dev) (st err : Nat) : Dev :=
  (List.range 8).foldl (fun s r =>
    let k := 8 * st + r
    if s.ringEnabled k then s.haltNow k err true else s) s

/-- What a STOPPING ring has in progress ends without records (R319, R338); it is DISABLED when its requests have ended (R280). -/
def Dev.ringQuit (s : Dev) (k : Nat) : Dev :=
  let n := s.stallPorter (k / 8)
  let x := s.ring k
  let s1 := (s.setRing k { pi := x.pi, fetch := x.fetch }).killReads n (fun t => t.ofRing k && decide (t.kind ≤ 2))
  let s2 := s1.ringForget k (fun _ => true)
  (s2.countDesc (k / 8) n (x.prog.filter (fun d => d.ended.isNone)).length false).leaveRing n k

/-- A Stall is silenced: its enabled rings halt without a record, one that is HALTED and owes records too, and those that stop do so at once
(R319). What they have issued proceeds (R23). -/
def Dev.silenceRings (s : Dev) (st err : Nat) : Dev :=
  (List.range 8).foldl (fun s r =>
    let k := 8 * st + r
    if s.rstate k = 3 then s.ringQuit k
    else if s.ringEnabled k || (s.rstate k == 4 && !(s.ring k).prog.isEmpty) then s.haltNow k err false
    else s) s

/-! ### Suspension (R298, R299) -/

/-- The fault of a translation that failed for a descriptor's offset `x`. -/
def Dev.faultFor (s : Dev) (w : XWaiter) (cause level addr off slot : Nat) (wr ab : Bool) : XFault :=
  let t := s.reqFor (8 * w.stall + w.ring) .mrd (if w.kind = 4 then 0 else 2) 0 0
  { kind := w.kind, cause := cause, level := level, addr := addr, off := off, slot := slot, write := wr, pasid := t.pasid, pmr := t.pmr
    aborted := ab }

/-- Place of a descriptor in its ring's progress; a fetch comes after all. -/
def RingSt.placeOf (x : RingSt) (f : XFault) : Nat :=
  if f.kind = 3 then x.prog.length else (x.prog.findIdx? (fun d => d.slot == f.slot)).getD x.prog.length

/-- A fault suspends ring `k` (R298): later descriptors are rolled back, and the descriptor issues nothing at or above S. A fault at a
lower place takes the place of one that waits. -/
def Dev.suspend (s : Dev) (n k : Nat) (f : XFault) : Dev :=
  let x := s.ring k
  let i := x.placeOf f
  let lower := match x.susp with
    | some g => decide (i < x.placeOf g) || (i == x.placeOf g && decide (f.off < g.off))
    | none => true
  if !lower then s
  else
    let s1 := (s.setRing k { x with susp := some f })
    if f.kind = 3 then s1
    else
      let s2 := (s1.rollBack n k (i + 1)).killReads n (fun t =>
        t.ofRing k && t.kind == 0 && t.slot == f.slot && decide (f.off ≤ t.off))
      s2.updDesc k f.slot (fun d =>
        { d with lim := some f.off, rd := min d.rd f.off, redo := d.redo.filter (fun r => decide (r.1 < f.off)) })

/-- A ring is SUSPENDED with its fault: the record is to be written, and the Porter turns elsewhere. What is outstanding of the descriptor's
reads is bytes at or above S (R298 item 5). -/
def Dev.suspended (s : Dev) (n k : Nat) (f : XFault) (v : Nat × Nat × Option Desc) : Dev :=
  let x := s.ring k
  let h := n / 32
  let s0 := if f.kind ≤ 2 then s.killReads n (fun t => t.ofRing k && t.kind == 0 && t.slot == f.slot) else s
  let s1 := (s0.setRing k { x with susp := none, fault := some f, prog := [], saved := some v }).setRstate k 5
  (s1.setXl h { s1.xl h with fq := (s1.xl h).fq ++ [{ porter := n, stall := k / 8, ring := k % 8, x := f }] }).leaveRing n k

/-- The writes below S are issued and earlier descriptors have ended: the suspension takes effect, or the abort of the unit's safe
state (R298 item 6, R338). -/
def Dev.suspStep (s : Dev) (n k : Nat) : Dev × Bool :=
  let x := s.ring k
  match x.susp with
  | none => (s, false)
  | some f =>
    if f.kind = 3 then
      if x.prog.isEmpty && x.lacksSlots then
        if f.aborted then ((s.setRing k { x with susp := none }).haltRing k 0x11 f.slot (s.rci k) (s.rphase k) [], true)
        else (s.suspended n k f (f.slot, 0, none), true)
      else (s, false)
    else match x.prog with
      | d :: _ =>
        if d.slot ≠ f.slot then (s, false)
        else if f.kind = 5 then
          if f.aborted then
            let (ci, ph) := s.slotPast k d.slot d.phase d.n
            ((s.setRing k { x with susp := none }).haltRing k 0x12 d.slot ci ph [], true)
          else (s.suspended n k f (d.slot, f.off, some d), true)
        else if d.wr < f.off ∨ d.ended.isSome = true ∨ d.src.busy = true ∨ d.dst.busy = true then (s, false)
        else if f.aborted then
          if d.unbound = 0 then ((s.setRing k { x with susp := none }).endDesc n k d.slot 0x0D f.off f.addr, true) else (s, false)
        else if s.rstate k = 3 then
          if d.unbound = 0 then ((s.setRing k { x with susp := none }).endDesc n k d.slot 0x01 f.off 0, true) else (s, false)
        else (s.suspended n k f (d.slot, f.off, some (d.park f.off)), true)
      | [] => (s.setRing k { x with susp := none }, true)

/-! ### Shares (R310-R314) -/

/-- RATE of a Stall. -/
def Dev.stallRate (s : Dev) (st : Nat) : Nat := min (s.f F.STALL_SHARE_RATE st) 256000

/-- A Stall's token count allows it to be served. -/
def Dev.stallTok (s : Dev) (st : Nat) : Bool := s.stallRate st == 0 || decide (0 ≤ (s.stallSt st).tokens)

/-- A ring holds work; one that stops, what it has in progress. -/
def Dev.ringWork (s : Dev) (k : Nat) : Bool :=
  let x := s.ring k
  !x.prog.isEmpty || (s.rstate k != 3 && (x.saved.isSome || !x.slots.isEmpty || x.fetching || x.pi != s.rci k))

/-- A ring of the Stall holds work and is neither SUSPENDED nor HALTED. -/
def Dev.stallWork (s : Dev) (st : Nat) : Bool :=
  (List.range 8).any (fun r => decide (1 ≤ s.rstate (8 * st + r) ∧ s.rstate (8 * st + r) ≤ 3) && s.ringWork (8 * st + r))

/-- A Stall is eligible (R310). -/
def Dev.eligibleStall (s : Dev) (st : Nat) : Bool :=
  s.b F.STALL_BIND_BOUND st && s.bme (.stall st) && s.stallWork st && s.stallTok st && !s.b F.STALL_MGR_STATUS_FLR_BUSY st

/-- A Stall's turn may begin another segment: it is its turn, with deficit and tokens left (R312). -/
def Dev.mayCharge (s : Dev) (n k : Nat) : Bool :=
  (s.porter n).turn == some (k / 8) && decide (0 < (s.stallSt (k / 8)).deficit) && s.stallTok (k / 8)

/-- A segment's bytes charged (R311). -/
def Dev.chargeStall (s : Dev) (st bytes : Nat) : Dev :=
  let x := s.stallSt st
  let tok := if s.stallRate st = 0 then x.tokens else max (x.tokens - 1000 * bytes) (-262144000)
  s.setStall st { x with deficit := x.deficit - bytes, tokens := tok }

/-- A held STALL_SHARE write takes effect (R314). -/
def Dev.applyShare (s : Dev) (st : Nat) : Dev :=
  let x := s.stallSt st
  match x.share with
  | none => s
  | some v =>
    let full (w : Word) : Int := (min (getBits w 29 21) 1048576 : Nat) * 1000
    let now := if s.stallRate st = 0 then full (s.reg .stallShare st) else x.tokens
    (s.setReg .stallShare v st).setStall st { x with share := none, tokens := min now (full v) }

/-- The Porter's list follows which Stalls are eligible (R313). A Stall that joins it during a round takes its first turn in the next one (DESIGN
CHOICE, log 140). With the list empty the round is over, and held shares take effect (R314). -/
def Dev.listStep (s : Dev) (n : Nat) : Dev × Bool :=
  let p := s.porter n
  let all := s.boundTo n
  let on := all.filter s.eligibleStall
  let list := p.list.filter (fun t => on.contains t) ++ on.filter (fun t => !p.list.contains t)
  if list = p.list then (s, false)
  else
    let out := p.list.filter (fun t => !on.contains t) ++ on.filter (fun t => !p.list.contains t)
    let s1 := out.foldl (fun s t => s.setStall t { s.stallSt t with deficit := 0, listed := on.contains t }) s
    let turn := if p.ring.isNone then p.turn.filter (fun t => on.contains t) else p.turn
    let s2 := s1.setPorter n { p with list := list, left := p.left.filter (fun t => on.contains t), turn := turn }
    (if list.isEmpty then all.foldl Dev.applyShare s2 else s2, true)

/-- The next Stall's turn begins; at the end of the round the held shares take effect (R312, R314). A turn that begins with a deficit
at or below 0 ends at once. -/
def Dev.turnNext (s : Dev) (n : Nat) : Dev :=
  let p := s.porter n
  match p.left with
  | [] => ((s.boundTo n).foldl Dev.applyShare s).setPorter n { p with left := p.list }
  | t :: rest =>
    let x := s.stallSt t
    let d := x.deficit + (max (s.f F.STALL_SHARE_QUANTUM t) 1 * 4096 : Nat)
    (s.setStall t { x with deficit := d }).setPorter n { p with left := rest, turn := if 0 < d then some t else none }

/-- The ring of a Stall that a Porter takes: that of the highest priority with work, IDLE (R257, R304). -/
def Dev.topRing (s : Dev) (st : Nat) : Option Nat :=
  ((List.range 8).reverse.find? (fun r => s.rstate (8 * st + r) == 1 && s.ringWork (8 * st + r))).map (fun r => 8 * st + r)

/-- The Porter takes a ring, which resumes from its saved position, or leaves one that is out of work (R257, R297). -/
def Dev.serveStep (s : Dev) (n : Nat) : Dev × Bool :=
  let p := s.porter n
  match p.ring with
  | some k =>
    if s.ringWork k && s.rstate k == 2 then (s, false)
    else if s.rstate k = 2 then ((s.setRstate k 1).leaveRing n k, true)
    else if s.rstate k = 3 ∧ (s.ring k).prog.isEmpty = false then (s, false)
    else (s.leaveRing n k, true)
  | none =>
    match p.turn.bind s.topRing with
    | none => (s, false)
    | some k =>
      let x := s.ring k
      let s1 := (s.setRstate k 2).setPorter n { p with ring := some k, park := false }
      (s1.setRing k (match x.saved with
        | some (_, _, some d) => { x with prog := [d], saved := none }
        | _ => { x with saved := none }), true)

/-- A NOTIFY whose write is issued: it waits no more, and has no boundary to stop at before its end (R296, R303). -/
def Desc.sent (d : Desc) : Bool := d.op == 5 && d.noted

/-- The oldest unfinished descriptor of a ring. -/
def RingSt.oldest (x : RingSt) : Option Desc := x.prog.find? (fun d => d.ended.isNone)

/-- The Porter begins to park the ring it serves (R303): later descriptors are rolled back, a waiting one as well, and the oldest runs
to P. -/
def Dev.parkStart (s : Dev) (n k : Nat) : Dev :=
  let p := s.porter n
  if p.park then s
  else
    let s1 := s.setPorter n { p with park := true }
    let x := s1.ring k
    match x.oldest with
    | none => s1
    | some d =>
      let i := (x.prog.findIdx? (fun y => y.ended.isNone)).getD 0
      if d.moves then
        let lim := d.segUp (if d.op = 1 then d.rd else d.wr)
        (s1.rollBack n k (i + 1)).updDesc k d.slot (fun d => { d with lim := some (min (d.lim.getD lim) lim) })
      else s1.rollBack n k (if d.sent then i + 1 else i)

/-- With no turn under way the next begins, once a ring of another Stall that is still served has been parked. -/
def Dev.turnStep (s : Dev) (n : Nat) : Dev × Bool :=
  let p := s.porter n
  if p.turn.isSome || p.list.isEmpty then (s, false)
  else match p.ring with
    | none => (s.turnNext n, true)
    | some k =>
      if p.park then (s, false)
      else if p.list = [k / 8] then (s.turnNext n, true)
      else (s.parkStart n k, true)

/-- A Stall's turn ends (R312): on its deficit, its tokens or its eligibility. The ring is parked if another Stall is eligible; if none
is, the Stall's next turn begins at once. -/
def Dev.turnEnd (s : Dev) (n : Nat) : Dev :=
  let s0 := (s.listStep n).1
  let p := s0.porter n
  match p.turn with
  | none => s0
  | some t =>
    if 0 < (s0.stallSt t).deficit ∧ s0.stallTok t = true ∧ p.list.contains t = true then s0
    else s0.setPorter n { p with turn := none }

/-- A higher ring of the Stall under service holds work and is IDLE: the Porter preempts the one it serves (R303). -/
def Dev.preempt (s : Dev) (n : Nat) : Dev :=
  let p := s.porter n
  match p.ring with
  | some k =>
    match s.topRing (k / 8) with
    | some k' => if k < k' ∧ p.park = false ∧ s.rstate k = 2 then (s.parkStart n k).inc .preempts 1 (n / 32) else s
    | none => s
  | none => s

/-- The descriptor that is being parked has come to P, or nothing is left to park. -/
def Dev.parkReady (s : Dev) (k : Nat) : Bool :=
  let x := s.ring k
  match x.prog with
  | [] => true
  | [d] => d.ended.isNone && d.moves && (match d.lim with
      | some l => decide (l ≤ d.wr)
      | none => false) && d.redo.isEmpty && !d.src.busy && !d.dst.busy && x.susp.isNone
  | _ => false

/-- The preempted ring is saved at P and IDLE (R303 items 4 and 5). -/
def Dev.parkDone (s : Dev) (n k : Nat) : Dev :=
  let x := s.ring k
  let s1 := s.setRing k (match x.prog with
    | d :: _ => { x with prog := [], saved := some (d.slot, d.wr, some (d.park d.wr)) }
    | [] => x)
  (if s1.rstate k = 2 then s1.setRstate k 1 else s1).leaveRing n k

end Sys2Proof.Machine
end

