-- ==== Sys2Proof/Machine/TallyOps.lean ====
section
/-! DEFINITION. The Tally unit (R416-R420): captures of counters, passes, tally pages. -/

namespace Sys2Proof.Machine

/-! ### Counters and captures (R416, R417) -/

/-- The register holds a counter of 48 bits. -/
def RegId.isCounter (r : RegId) : Bool := r.kind.info.counter || r.kind == .floorBank

/-- The register's domain is ready; an always-on domain always is. -/
def Dev.domReady (s : Dev) (r : RegId) : Bool :=
  match r.domain with
  | none => true
  | some d => s.b F.DOMAIN_STATE_READY d

/-- A read of the counter returns its captured value. -/
def Dev.captured (s : Dev) (r : RegId) : Bool :=
  s.b F.TALLY_CTL_FROZEN && r.isCounter &&
    (match r.domain with
    | none => true
    | some d => s.tally.snapDoms.contains d)

/-- What a counter reads: the captured value, or the live one. -/
def Dev.counterNow (s : Dev) (r : RegId) : Nat :=
  getBits (Store.get (fun _ => 0) (if s.captured r then s.tally.snap else s.regs) r) 0 48

/-- A Stall's six counters, captured or live (R420). -/
def Dev.stallCounts (s : Dev) (st : Nat) : List Nat :=
  if s.b F.TALLY_CTL_FROZEN then s.tally.snapStalls.look [0, 0, 0, 0, 0, 0] st else (s.stallSt st).counts

/-- Every counter captured, with device time (R417). -/
def Dev.capture (s : Dev) : Dev :=
  let t := { s.tally with
    snap := s.regs.filter (fun e => e.1.isCounter), snapDoms := (List.range 206).filter (fun d => s.b F.DOMAIN_STATE_READY d)
    snapStalls := s.stalls.map (fun e => (e.1, e.2.counts)), releaseHeld := false }
  (({ s with tally := t }).setReg .tallySnapTime (BitVec.ofNat 64 s.nowNs)).setB F.TALLY_CTL_FROZEN true

/-- RELEASE (R417, R425): held while a pass writes captured values. -/
def Dev.tallyRelease (s : Dev) : Dev :=
  if s.b F.TALLY_CTL_BUSY && s.b F.TALLY_CTL_FROZEN then { s with tally := { s.tally with releaseHeld := true } }
  else s.setB F.TALLY_CTL_FROZEN false

/-! ### Pages (R419) -/

/-- A range cut at multiples of `size`: addresses and lengths. -/
def cuts (size : Nat) : Nat → Nat → Nat → List (Nat × Nat)
  | 0, _, _ => []
  | n + 1, a, l => if l = 0 then [] else
      let k := min l (size - a % size)
      (a, k) :: cuts size n (a + k) (l - k)

/-- Posted writes of the management PF for bytes from `addr`, none larger than its Max_Payload_Size. -/
def Dev.mgmtWrites (s : Dev) (addr : Nat) (l : List Byte) : List Tlp :=
  (cuts (128 * 2 ^ min (s.cfNum .mgmtPf 0x58 5 3) 5) 64 addr l.length).map (fun c =>
    mgmtWrite c.1 ((l.drop (c.1 - addr)).take c.2))

/-- Requests of the management PF in order, up to the first that is refused. -/
def Dev.mgmtAll (s : Dev) : List Tlp → Dev × Bool
  | [] => (s, true)
  | t :: l =>
    match s.mgmtRequest t with
    | (s1, true) => s1.mgmtAll l
    | (s1, false) => (s1, false)

/-- The bytes of a tally page from TIME on. -/
def tallyBody (time : Nat) (snap : Bool) (set : Nat) (entries : List Nat) : List Byte :=
  leBytes time 8 ++ leBytes entries.length 2 ++ leBytes (b2n snap) 1 ++ leBytes set 1 ++ leBytes 0 44
    ++ entries.flatMap (fun e => leBytes e 8)

/-- TIME of a page. -/
def Dev.tallyTime (s : Dev) : Nat :=
  if s.b F.TALLY_CTL_FROZEN then (s.reg .tallySnapTime).toNat else s.tally.startTime

/-- A set's part of a pass fails (R418). -/
def Dev.tallyBad (s : Dev) (k : Nat) : Dev :=
  (s.setB F.TALLY_STATUS_TALLY_ERR true).setF F.TALLY_STATUS_ERR_SETS (s.f F.TALLY_STATUS_ERR_SETS ||| 2 ^ k)

/-- The entry of a listed offset (R419, R425); a counter that the capture left out is unavailable (R417). An offset that names no counter gives a
free value. -/
def Dev.tallyEntry (s : Dev) (off : Nat) : Dev × Nat :=
  match targetMgmt off with
  | .reg r false =>
    if r.isCounter then
      (s, if s.domReady r && (!s.b F.TALLY_CTL_FROZEN || s.captured r) then s.counterNow r else 2 ^ 63)
    else (s.useFree, s.freeVal.toNat % 2 ^ 48)
  | _ => (s.useFree, s.freeVal.toNat % 2 ^ 48)

/-- The page of set `k` written: SEQ odd, the header and the entries, SEQ even (R419). -/
def Dev.setPage (s : Dev) (k : Nat) (list : List Nat) : Dev :=
  let (s0, entries) := list.foldl (fun (acc : Dev × List Nat) off =>
    let (s1, v) := acc.1.tallyEntry off
    (s1, acc.2 ++ [v])) (s, [])
  let n := s.tally.passes.look 0 k
  let page := s.f F.TALLY_SET_PAGE_ADDR k * 4096
  match s0.mgmtAll [mgmtWrite page (leBytes (2 * n + 1) 8)] with
  | (s1, false) => s1.tallyBad k
  | (s1, true) =>
    let s2 := ({ s1 with tally := { s1.tally with passes := s1.tally.passes.put 0 k (n + 1) } }).setReg .tallySeq
      (BitVec.ofNat 64 (2 * n + 1)) k
    let body := tallyBody s.tallyTime (s.b F.TALLY_CTL_FROZEN) k entries
    match s2.mgmtAll (s2.mgmtWrites (page + 8) body ++ [mgmtWrite page (leBytes (2 * n + 2) 8)]) with
    | (s3, false) => s3.tallyBad k
    | (s3, true) => s3.setReg .tallySeq (BitVec.ofNat 64 (2 * n + 2)) k

/-- The Stalls whose page a pass writes, in ascending order (R420). -/
def Dev.pageStalls (s : Dev) : List Nat :=
  (s.regs.filterMap (fun e => if e.1.kind = .tallyPage ∧ e.2.getLsbD 0 = true then some e.1.i else none)).filter (fun st =>
    s.b ⟨.tallyUserEn, st % 64, 1⟩ (st / 64) && s.b F.STALL_BIND_BOUND st && s.bme (.stall st)
      && !s.b F.STALL_MGR_STATUS_FLR_BUSY st)

/-- The page of a Stall (R420): its writes queued at its Porter's core port; `false` while its translation is awaited. -/
def Dev.stallPage (s : Dev) (st : Nat) : Dev × Bool :=
  let n := s.stallPorter st
  match s.xlate { porter := n, stall := st, ring := 0, kind := 9 } (s.f F.TALLY_PAGE_ADDR st * 4096) true with
  | (s1, .ok a aty) =>
    let x := s1.stallSt st
    let put (s : Dev) (off : Nat) (l : List Byte) : Dev :=
      s.pushReq n { kind := 16, stall := st, ring := 0, va := s.f F.TALLY_PAGE_ADDR st * 4096 + off, tlp := { mgmtWrite (a + off) l with
        atype := BitVec.ofNat 2 aty, reqId := s.stallRid st } }
    let s2 := put s1 0 (leBytes (2 * x.pages + 1) 8)
    let s3 := put s2 8 (tallyBody s.tallyTime (s.b F.TALLY_CTL_FROZEN) 255 (s.stallCounts st))
    let s4 := put s3 0 (leBytes (2 * x.pages + 2) 8)
    (s4.setStall st { s4.stallSt st with pages := x.pages + 1 }, true)
  | (s1, .wait) => (s1, false)
  | (s1, _) => (s1.setB F.TALLY_PAGE_TALLY_FAULT true st, true)

/-- Stall pages in order, up to one that awaits its translation. -/
def Dev.stallPages (s : Dev) : List Nat → Dev
  | [] => { s with tally := { s.tally with pages := [] } }
  | st :: l =>
    if !s.porterOn (s.stallPorter st) then s.stallPages l
    else match s.stallPage st with
      | (s1, true) => s1.stallPages l
      | (s1, false) => { s1 with tally := { s1.tally with pages := st :: l } }

/-! ### Passes (R418) -/

/-- The enabled sets in ascending order. -/
def Dev.tallySets (s : Dev) : List Nat := (List.range 16).filter (fun k => s.b F.TALLY_SET_EN k)

/-- The pass goes on: the next set's list read, then the Stall pages, then the end, or the one further pass that merged starts ask
for. Once Bus Master Enable is clear the sets left are skipped (R404; DEDUCED, log 147). -/
def Dev.tallyNext (s : Dev) : Nat → Dev
  | 0 => s
  | n + 1 =>
    match s.tally.sets with
    | k :: rest =>
      if !s.bme .mgmtPf then ({ s with tally := { s.tally with sets := [], pages := s.pageStalls } } : Dev).tallyNext n
      else
      let s1 : Dev := { s with tally := { s.tally with
        sets := rest, startTime := s.nowNs, pages := if rest.isEmpty then s.pageStalls else [] } }
      let count := min (s.f F.TALLY_SET_COUNT k) 503
      let mrrs := 128 * 2 ^ min (s.cfNum .mgmtPf 0x58 12 3) 5
      let reads := (cuts mrrs 64 (s.f F.TALLY_SET_LIST_ADDR k * 4) (4 * count)).map (fun c =>
        ({ kind := .mrd, addr := BitVec.ofNat 64 c.1, len := c.2, hdr := memHdr c.1 } : Tlp))
      if count = 0 then (s1.setPage k []).tallyNext n
      else match s1.mgmtAll reads with
        | (s2, true) => { s2 with tally := { s2.tally with cur := some k } }
        | (s2, false) => (s2.tallyBad k).tallyNext n
    | [] =>
      let s1 := s.stallPages s.tally.pages
      if !s1.tally.pages.isEmpty then s1
      else
        let s2 := if s1.tally.releaseHeld then s1.setB F.TALLY_CTL_FROZEN false else s1
        if s2.tally.merged && s2.bme .mgmtPf && !s2.safe 86 then
          let sets := s2.tallySets
          ({ s2 with tally := { s2.tally with
            merged := false, releaseHeld := false, sets := sets, startTime := s2.nowNs
            pages := if sets.isEmpty then s2.pageStalls else [] } } : Dev).tallyNext n
        else ({ s2 with tally := { s2.tally with merged := false, releaseHeld := false } } : Dev).setB F.TALLY_CTL_BUSY false

/-- A start of a pass (R404, R418, R338). -/
def Dev.tallyStart (s : Dev) : Dev :=
  if s.b F.TALLY_CTL_BUSY then { s with tally := { s.tally with merged := true } }
  else if !s.bme .mgmtPf || s.safe 86 then s
  else
    let sets := s.tallySets
    (({ s with tally := { s.tally with
      sets := sets, cur := none, startTime := s.nowNs, pages := if sets.isEmpty then s.pageStalls else [] } } : Dev).setB
      F.TALLY_CTL_BUSY true).tallyNext 64

/-- SNAPSHOT (R417, R418). -/
def Dev.tallySnapshot (s : Dev) : Dev :=
  let s1 := s.capture
  if s1.b F.TALLY_CTL_SNAP_PASS then s1.tallyStart else s1

/-- The list read of the current set ends (R418). -/
def Dev.tallyList (s : Dev) (ok : Bool) (list : List Nat) (pageOk : Bool) : Dev :=
  match s.tally.cur with
  | none => s
  | some k =>
    let s1 : Dev := { s with tally := { s.tally with cur := none } }
    let s2 := if !s.bme .mgmtPf then s1
      else if ok && pageOk && !s.safe 86 then s1.setPage k (list.take (min (s.f F.TALLY_SET_COUNT k) 503))
      else s1.tallyBad k
    s2.tallyNext 64

/-- A Stall page's translation has come. -/
def Dev.tallyWake (s : Dev) : Dev :=
  if s.b F.TALLY_CTL_BUSY && s.tally.cur.isNone && s.tally.sets.isEmpty then s.tallyNext 64 else s

/-- The pass under way is abandoned (R425, resets). -/
def Dev.tallyAbandon (s : Dev) : Dev :=
  let t := { s.tally with sets := [], cur := none, pages := [], merged := false, releaseHeld := false }
  let s1 : Dev := { s with tally := t }
  (s1.setB F.TALLY_CTL_BUSY false).setB F.TALLY_CTL_FROZEN (s.b F.TALLY_CTL_FROZEN && !s.tally.releaseHeld)

end Sys2Proof.Machine
end

