-- ==== Sys2Proof/Machine/PumpOps.lean ====
section
/-! DEFINITION. What a Porter does of itself after each event (R262-R281): its requests, the ends of descriptors, halts, waits and
flush reads, and the answers to its reads. -/

namespace Sys2Proof.Machine

/-- A waiter of ring `k`. -/
def waiterOf (n k kind : Nat) (dst : Bool := false) : XWaiter :=
  { porter := n, stall := k / 8, ring := k % 8, kind := kind, dst := dst }

/-- A translation's fault or abort suspends the ring (R298, R299, R338). -/
def Dev.xfail (s : Dev) (n k : Nat) (w : XWaiter) (r : XRes) (va off slot : Nat) (wr : Bool) : Dev :=
  match r with
  | .fault c l => s.suspend n k (s.faultFor w c l va off slot wr false)
  | .abort => s.suspend n k (s.faultFor w 0 0 va off slot wr true)
  | _ => s

/-! ### Flushes (R26, R277) -/

/-- The egress that a request of Porter `n` would be bound to now. -/
def Dev.egressFor (s : Dev) (n : Nat) (t : Tlp) : Option Nat :=
  match s.lookup (512 + n) (s.partOf (512 + n)) t false true with
  | .ok (_, d, _) => if d.action = 0 then some d.egress else none
  | .error _ => none

/-- A flush read to the last dword written through an egress port; unchanged while no tag is free. -/
def Dev.flushRead (s : Dev) (n k : Nat) (p : NotedPort) : Dev :=
  let t : TagSt := { kind := 4, stall := k / 8, ring := k % 8, tag := 0, off := p.e, addr := p.addr, va := p.va }
  match s.issueTagged n t { s.reqFor k .mrd 2 p.addr p.aty with be := 0 } with
  | some s1 => s1.setRing k { s1.ring k with flushing := (s1.ring k).flushing + 1, again := (s1.ring k).again.erase p.e }
  | none => s

/-- Every write that a record announces, or with `all` every write of the ring, as a wait asks (R268), is visible: nothing was written through
another port than `eg`, or flush reads have answered for it; else they are issued. -/
def Dev.guard (s : Dev) (n k : Nat) (eg : Option Nat) (all : Bool) : Dev × Bool :=
  let x := s.ring k
  let need := x.ports.filter (fun p => decide (some p.e ≠ eg) && (all || !p.told))
  if x.flushing ≠ 0 then (s, false)
  else if need.isEmpty then (s, true)
  else (need.foldl (fun s p => s.flushRead n k p) s, false)

/-- The egress ports of a ring's data writes that are not yet announced, with those of writes that wait at the core port. -/
def Dev.portsAhead (s : Dev) (n k : Nat) : List Nat :=
  ((s.ring k).ports.map NotedPort.e ++ ((s.porter n).port.filter (fun q => q.kind == 10 && q.stall == k / 8 && q.ring == k % 8)).filterMap
    (fun q => s.egressFor n q.tlp)).dedup

/-- A data write may be issued: it needs no ninth port (R277). For a ninth, the oldest is flushed first. -/
def Dev.portFree (s : Dev) (n k : Nat) (t : Tlp) : Dev × Bool :=
  match s.egressFor n t with
  | none => (s, true)
  | some e =>
    if (s.portsAhead n k).contains e || decide ((s.portsAhead n k).length < 8) then (s, true)
    else match (s.ring k).ports with
      | p :: _ => (if (s.ring k).flushing = 0 then s.flushRead n k p else s, false)
      | [] => (s, false)

/-- A data write through an egress port noted (R277). -/
def Dev.notePort (s : Dev) (k : Nat) (p : NotedPort) : Dev :=
  let x := s.ring k
  let l := if x.ports.any (fun y => y.e == p.e) then x.ports.map (fun y => if y.e = p.e then p else y) else x.ports ++ [p]
  s.setRing k { x with ports := l, again := if x.flushing = 0 ∨ p.e ∈ x.again then x.again else x.again ++ [p.e] }

/-- A flush read answered: its port needs no flush any more, unless it was written again meanwhile. -/
def Dev.flushed (s : Dev) (k : Nat) (t : TagSt) (ok : Bool) : Dev :=
  let x := s.ring k
  s.setRing k { x with
    ports := x.ports.filter (fun p => p.e != t.off || x.again.contains p.e), flushing := x.flushing - 1
    again := if x.flushing ≤ 1 then [] else x.again
    flushBad := if ok then x.flushBad else some t.va }

/-! ### The head of a ring -/

/-- The head descriptor has ended: without a record it leaves. The ring halts for one that has failed once those before it have ended (R275, R276,
R279; DEDUCED, log 145). -/
def Dev.headStep (s : Dev) (k : Nat) : Dev × Bool :=
  let x := s.ring k
  let ahead := x.prog.takeWhile (fun d => d.endedOk || d.halted)
  match x.prog, x.prog.drop ahead.length with
  | [], _ => (s, false)
  | d :: t, rest =>
    if d.endedOk && !d.flag 0 then (s.setRing k { x with prog := t }, true)
    else match rest.head?.bind (fun b => b.ended.map (fun e => (b, e.1))) with
      | none => (s, false)
      | some (b, e) =>
        if s.rstate k = 4 ∨ (s.rstate k = 3 ∧ e = 1) then (s, false)
        else
          let (ci, ph) := s.slotPast k b.slot b.phase b.n
          (s.haltRing k e b.slot ci ph (ahead ++ [b]), true)

/-- A wait of the head descriptor is over, with the status its flushes give (R277). -/
def Dev.waitOver (s : Dev) (n k slot : Nat) : Dev :=
  let x := s.ring k
  (s.setRing k { x with flushBad := none }).endDesc n k slot (if x.flushBad.isSome then 0x0C else 0) 0 (x.flushBad.getD 0)

/-- LEDGER_SYNC once its wait is over (R330). -/
def Dev.syncStep (s : Dev) (n k : Nat) (d : Desc) : Dev × Bool :=
  let c := d.num 0x28 8 % 256
  let bad := s.b F.LEDGER_CMD_FAULT c || s.b F.LEDGER_CMD_LOST c
  if d.sync.isSome then
    if bad || d.noted then (s.endDesc n k d.slot 0x0C 0 0, true)
    else if s.ledger.flushes.any (fun f => f.ctx == c && f.kind == 4 + k) then (s, false)
    else (s.endDesc n k d.slot 0 0 0, true)
  else if s.ledState c = 0 then (s.endDesc n k d.slot 0 0 0, true)
  else if bad then (s.endDesc n k d.slot 0x0C 0 0, true)
  else ((s.updDesc k d.slot (fun d => { d with sync := some c })).flushStart c (4 + k), true)

/-- The bytes of a NOTIFY write. -/
def Desc.notifyBytes (d : Desc) : List Byte := leBytes (d.num 0x28 8) (if (d.num 0x30 1).testBit 0 then 8 else 4)

/-- A fault holds descriptor `d` back; one of a later descriptor, or of a fetch, does not (R298 item 3, R299). -/
def RingSt.holds (x : RingSt) (d : Desc) : Bool := match x.susp with
  | some f => f.kind != 3 && f.slot == d.slot
  | none => false

/-- The writes through a ring's ports of which `p` holds are announced. -/
def Dev.tellPorts (s : Dev) (k : Nat) (p : NotedPort → Bool) : Dev :=
  s.setRing k { s.ring k with ports := (s.ring k).ports.map (fun y => if p y then { y with told := true } else y) }

/-- FENCE, NOTIFY and LEDGER_SYNC at the head of their ring (R268). -/
def Dev.waitStep (s : Dev) (n k : Nat) : Dev × Bool :=
  match (s.ring k).prog with
  | [] => (s, false)
  | d :: _ =>
    if d.moves || d.ended.isSome || (s.ring k).holds d then (s, false)
    else if d.op = 5 ∧ d.dstAddr ≠ 0 then
      if d.noted then (s, false)
      else
        let w := waiterOf n k 6
        match s.xlate w d.dstAddr true with
        | (s1, .ok a aty) =>
          let t : Tlp := { s1.reqFor k .mwr 2 a aty with payload := d.notifyBytes, len := d.notifyBytes.length }
          let (s2, ready) := s1.guard n k (s1.egressFor n t) true
          if !ready then (s2, false)
          else if (s2.ring k).flushBad.isSome then (s2.waitOver n k d.slot, true)
          else (((s2.tellPorts k (fun _ => true)).updDesc k d.slot (fun d => { d with noted := true })).pushReq n
            { kind := 12, stall := k / 8, ring := k % 8, slot := d.slot, va := d.dstAddr, tlp := t }, true)
        | (s1, .wait) => (s1, false)
        | (s1, r) => (s1.xfail n k w r d.dstAddr 0 d.slot true, true)
    else if d.sync.isSome then s.syncStep n k d
    else
      let (s1, ready) := if d.noted then (s, true) else s.guard n k none true
      if !ready then (s1, false)
      else if d.op = 6 ∧ (s1.ring k).flushBad.isNone = true then s1.syncStep n k d
      else (s1.waitOver n k d.slot, true)

/-! ### Writes (R268, R270) -/

/-- The next write of a descriptor: Stall address and bytes. -/
def Dev.nextWrite (s : Dev) (d : Desc) : Option (Nat × Nat) :=
  let mps := s.mps .porterPf
  (d.dst.place d.wr).map (fun p => (p.1, min (min (p.2.2 - d.wr) (mps - p.1 % mps)) (d.len - d.wr)))

/-- A failure keeps a write back: one that needs the failing byte, or one past the poisoned bytes (R275). -/
def Desc.blocked (d : Desc) (len : Nat) : Bool := match d.fail with
  | none => false
  | some (f, st, _) => if st = 0x0A then decide (f ≤ d.wr) else decide (f < d.wr + len)

/-- The bytes of the next write, where they are at hand, and whether they are poisoned. -/
def Desc.writeBytes (d : Desc) (len : Nat) : Option (List Byte × Bool) :=
  if d.op = 1 then gather d.stage d.wr len (d.stage.length + 1)
  else some (if d.op = 2 then d.fillBytes d.wr len else d.inlineBytes d.wr len, false)

/-- A write of a descriptor issued to the core port. -/
def Dev.putWrite (s : Dev) (n k : Nat) (d : Desc) (va : Nat) (t : Tlp) : Dev :=
  let wr := d.wr + t.len
  (s.updDesc k d.slot (fun d => { d with
    wr := wr, unbound := d.unbound + 1, stage := d.stage.filter (fun p => decide (wr < p.1 + p.2.1.length)) })).pushReq n
      { kind := 10, stall := k / 8, ring := k % 8, slot := d.slot, off := d.wr, va := va, tlp := t }

/-- Data writes that wait at the core port; how many a Porter keeps there is the device's own (log 30). -/
def PorterSt.writesWaiting (p : PorterSt) : Nat := (p.port.filter (fun q => q.kind == 10)).length

/-- A failure of a descriptor noted; the lowest offset counts. -/
def Desc.addFail (d : Desc) (off st a : Nat) : Desc :=
  match d.fail with
  | some (f, _, _) => if off < f then { d with fail := some (off, st, a) } else d
  | none => { d with fail := some (off, st, a) }

/-- Staged bytes with an uncorrectable error that the next `len` bytes written of a descriptor take in (R342). -/
def Dev.badStage (s : Dev) (n k : Nat) (d : Desc) (len : Nat) : Option (BadWord × Nat) :=
  d.stage.findSome? (fun p =>
    if p.1 < d.wr + len ∧ d.wr < p.1 + p.2.1.length then
      (s.badWord (78 + n / 32) (fun w => decide (w = .stage k d.slot p.1))).map (fun w => (w, p.1))
    else none)

/-- Staged bytes meet their error: they are poisoned, and the descriptor ends with DATA_POISONED (R342). -/
def Dev.poisonStage (s : Dev) (n k : Nat) (d : Desc) (w : BadWord) (off : Nat) : Dev :=
  let len := ((d.stage.find? (fun p => p.1 == off)).map (fun p => p.2.1.length)).getD 0
  let va := ((d.src.place off).map (fun x => x.1)).getD 0
  ((s.badFound (78 + n / 32) w).uspInternal (s.f F.SVC_CTL_PORTER_PART)).updDesc k d.slot (fun d =>
    ({ d with stage := d.stage.map (fun (p : Nat × List Byte × Bool) => if p.1 = off then (p.1, p.2.1, true) else p) } : Desc).addFail
      (off + len) 0x0A va)

/-- A ring's context reads with an uncorrectable error: the ring halts with no record (R342). -/
def Dev.ctxStep (s : Dev) (n k : Nat) : Dev × Bool :=
  match s.badWord (78 + n / 32) (fun w => decide (w = .ctx k)) with
  | some w => (if s.rstate k = 0 ∨ s.rstate k = 4 then s.badFound (78 + n / 32) w else (s.badFound (78 + n / 32) w).haltNow k 0x15 false, true)
  | none => (s, false)

/-- The next write of a ring, of the first descriptor that has not issued its last (R268); none behind one that has failed (R275). -/
def Dev.writeStep (s : Dev) (n k : Nat) : Dev × Bool :=
  match (s.ring k).prog.find? (fun d => !(d.endedOk || d.halted || (d.ended.isNone && d.moves && decide (d.len ≤ d.wr)))) with
  | none => (s, false)
  | some d =>
    if d.ended.isSome || !d.moves || !d.below d.wr || decide (Config.writeDepth < (s.porter n).writesWaiting) then (s, false)
    else match s.nextWrite d with
      | none => (s, false)
      | some (va, len) =>
        let fresh := d.op != 1 && decide (d.charged ≤ d.wr)
        if d.blocked len || (fresh && !s.mayCharge n k) then (s, false)
        else match s.badStage n k d len with
        | some (w, off) => (s.poisonStage n k d w off, true)
        | none => match d.writeBytes len with
          | none => (s, false)
          | some (data, ep) =>
            let w := waiterOf n k 1
            match s.xlate w va true with
            | (s1, .ok a aty) =>
              let t : Tlp := { s1.reqFor k .mwr 1 a aty with payload := data, len := len, ep := ep }
              let (s2, free) := s1.portFree n k t
              if free then
                let e := d.segEnd d.wr
                let s3 := if fresh then (s2.chargeStall (k / 8) (e - d.wr)).updDesc k d.slot (fun d => { d with charged := e }) else s2
                (s3.putWrite n k d va t, true)
              else (s2, false)
            | (s1, .wait) => (s1, false)
            | (s1, r) => (s1.xfail n k w r va (d.segStart d.wr) d.slot true, true)

/-- A descriptor that moves data ends: with its first failure, completed, or stopped at its boundary (R275, R280). -/
def Dev.endStep (s : Dev) (n k : Nat) : Dev × Bool :=
  let x := s.ring k
  let how (d : Desc) : Option (Nat × Nat × Nat) :=
    if !d.moves || d.ended.isSome || d.unbound != 0 then none
    else match d.fail with
      | some (f, st, a) =>
        if f ≤ d.wr ∨ d.blocked ((s.nextWrite d).getD (0, 0)).2 = true then some (st, d.wr, a) else none
      | none =>
        if d.len ≤ d.wr then some (0, d.len, 0)
        else if s.rstate k = 3 ∧ d.below d.wr = false ∧ x.susp.isNone = true then some (1, d.wr, 0)
        else none
  match x.live.findSome? (fun d => (how d).map (fun e => (d.slot, e))) with
  | some (slot, st, bytes, a) => (s.endDesc n k slot st bytes a, true)
  | none => (s, false)

/-! ### List elements (R267) -/

/-- A list read of a descriptor's source or destination, where the next element is needed. -/
def Dev.elemRead (s : Dev) (n k : Nat) (d : Desc) (dst : Bool) : Dev × Bool :=
  let c := if dst then d.dst else d.src
  match c.next with
  | none => (s, false)
  | some a0 =>
    let a := a0 / 16 * 16
    let need := min d.len (if dst then (if d.op = 1 then d.rd else d.wr) + 4096 else d.rd + 1)
    if c.busy || d.ended.isSome || d.fail.isSome || decide (need ≤ c.named) || !d.below c.named
        || (s.findTag n false (k / 8) true).isNone then (s, false)
    else
      let w := waiterOf n k 2 dst
      match s.xlate w a false with
      | (s1, .ok b aty) =>
        let t : TagSt := { kind := 1, stall := k / 8, ring := k % 8, tag := 0, slot := d.slot, off := c.named, len := 64 - a % 64
                           addr := b, va := a, dst := dst }
        match s1.issueTagged n t (s1.reqFor k .mrd 1 b aty) with
        | some s2 =>
          (s2.updDesc k d.slot (fun d => if dst then { d with dst := { d.dst with busy := true } }
            else { d with src := { d.src with busy := true } }), true)
        | none => (s1, false)
      | (s1, .wait) => (s1, false)
      | (s1, r) => (s1.xfail n k w r a (d.segStart c.named) d.slot false, true)

/-- The first step in a list of steps that does something. -/
def firstStep : List (Dev → Dev × Bool) → Dev → Dev × Bool
  | [], s => (s, false)
  | f :: t, s => match f s with
    | (s1, true) => (s1, true)
    | (s1, false) => firstStep t s1

/-- List reads of a ring's descriptors, destinations first. -/
def Dev.elemStep (s : Dev) (n k : Nat) : Dev × Bool :=
  firstStep ((s.ring k).live.flatMap (fun d => [fun s => s.elemRead n k d true, fun s => s.elemRead n k d false])) s

/-- The elements of a list block taken into a cursor; the address of one that is bad, if any. -/
def Cursor.takeElems (c : Cursor) (len va : Nat) : List (Nat × Nat × Nat) → Cursor × Option Nat
  | [] => ({ c with next := if len ≤ c.named then none else some va }, none)
  | (a, l, fl) :: t =>
    if len ≤ c.named then ({ c with next := none }, none)
    else if fl % 2 = 1 then
      if 64 ≤ c.chains + 1 then (c, some va) else ({ c with next := some a, chains := c.chains + 1 }, none)
    else if l = 0 then (c, some va)
    else Cursor.takeElems { c with pieces := c.pieces ++ [(c.named, a, min l (len - c.named))], chains := 0 } len (va + 16) t

/-- The elements in a block's bytes. -/
def elemsOf (l : List Byte) : List (Nat × Nat × Nat) :=
  (List.range (l.length / 16)).map (fun j => (leAt l (16 * j) 8, leAt l (16 * j + 8) 4, leAt l (16 * j + 12) 4))

/-- A list read's bytes. -/
def Desc.takeList (d : Desc) (dst : Bool) (va : Nat) (l : List Byte) : Desc :=
  let c := if dst then d.dst else d.src
  let (c1, bad) := Cursor.takeElems { c with busy := false } d.len va (elemsOf l)
  let d1 := if dst then { d with dst := c1 } else { d with src := c1 }
  match bad with
  | some a => d1.addFail c1.named 0x05 a
  | none => d1

/-! ### Records (R276) -/

/-- A completion record's bytes. -/
def Desc.record (d : Desc) (r st bytes addr : Nat) : List Byte :=
  leBytes d.user 8 ++ leBytes bytes 8 ++ leBytes d.slot 2 ++ leBytes st 1 ++ leBytes d.op 1
    ++ leBytes (r + 128 * b2n d.phase) 1 ++ [0, 0, 0] ++ leBytes addr 8

/-- The status, BYTES_DONE and FAULT_ADDR of a record: a failed flush makes it report FLUSH_FAIL (R277). -/
def RingSt.outcome (x : RingSt) (d : Desc) : Nat × Nat × Nat :=
  let e := d.ended.getD (0, 0, 0)
  match x.flushBad with
  | some va => (0x0C, e.2.1, va)
  | none => e

/-- The record of the head of a ring, once its flushes are done: the write, ready to be issued. -/
def Dev.recordTry (s : Dev) (n k : Nat) : Dev × Option (Desc × Nat × Tlp) :=
  let x := s.ring k
  match x.prog with
  | [] => (s, none)
  | d :: _ =>
    if d.ended.isNone || !d.recorded || x.holds d then (s, none)
    else
      let va := s.f F.CQ_BASE (k / 8) (k % 8) * 4096 + 32 * d.slot
      let w := waiterOf n k 5
      match s.xlate w va true with
      | (s1, .ok a aty) =>
        let (st, bytes, addr) := (s1.ring k).outcome d
        let t : Tlp := { s1.reqFor k .mwr 2 a aty with payload := d.record (k % 8) st bytes addr, len := 32 }
        let (s2, ready) := s1.guard n k (s1.egressFor n t) false
        if ready then
          let (st, bytes, addr) := (s2.ring k).outcome d
          (s2, some (d, va, { t with payload := d.record (k % 8) st bytes addr }))
        else (s2, none)
      | (s1, .wait) => (s1, none)
      | (s1, r) => ((s1.xfail n k w r va (d.ended.getD (0, 0, 0)).2.1 d.slot true), none)

/-- A failed descriptor read halts its ring once the descriptors before it have ended (R279); an INLINE that lacks its slot never starts. -/
def Dev.fetchBadStep (s : Dev) (k : Nat) : Dev × Bool :=
  let x := s.ring k
  match x.fetchBad with
  | some slot => if x.prog.isEmpty && x.lacksSlots && s.rstate k != 4 then (s.haltRing k 0x11 slot (s.rci k) (s.rphase k) [], true) else (s, false)
  | none => (s, false)

/-- The flushes and the translation of the record that is due are seen to. -/
def Dev.recStep (s : Dev) (n k : Nat) : Dev × Bool := ((s.recordTry n k).1, false)

/-- Walks of the half that wait for a tag slot of this Porter. -/
def Dev.walkRetry (s : Dev) (n : Nat) : Dev × Bool :=
  ((s.xl (n / 32)).walks.foldl (fun s e => match e.2 with
    | some y => if y.slot.isNone && !y.done && y.prg.isNone && (y.waiters.head?.map XWaiter.porter) == some n then
        s.walkIssue (n / 32) e.1 else s
    | none => s) s, false)

/-- Rings of Porter `n` with descriptors in progress, the one it serves first. -/
def Dev.busyRings (s : Dev) (n : Nat) : List Nat :=
  let own := (s.porter n).ring.toList
  own ++ s.rings.filterMap (fun e =>
    if s.stallPorter (e.1 / 8) = n ∧ (e.2.prog.isEmpty = false ∨ e.2.susp.isSome = true) ∧ own.contains e.1 = false then some e.1 else none)

/-- The steps of a ring that its Porter serves, or that it has left behind. -/
def Dev.ringSteps (n k : Nat) : List (Dev → Dev × Bool) :=
  [fun s => s.ctxStep n k, fun s => s.headStep k, fun s => s.suspStep n k, fun s => s.endStep n k, fun s => s.waitStep n k, fun s => s.writeStep n k,
   fun s => s.elemStep n k, fun s => s.fetchBadStep k, fun s => s.recStep n k]

/-- One thing that a Porter does of itself. -/
def Dev.pumpOne (s : Dev) (n : Nat) : Dev × Bool :=
  firstStep ([fun s => s.listStep n, fun s => s.serveStep n, fun s => s.turnStep n]
    ++ (s.busyRings n).flatMap (Dev.ringSteps n) ++ [fun s => s.walkRetry n]) s

/-- A Porter does what it can of itself. -/
def Dev.pump (s : Dev) (n : Nat) : Nat → Dev
  | 0 => s
  | m + 1 =>
    if s.porterOn n then
      match s.pumpOne n with
      | (s1, true) => s1.pump n m
      | (s1, false) => s1
    else s

/-- NO_TAG14 of a Porter in service while the 14-Bit Tag Requester Enable is clear (R271). -/
def Dev.tagCheck (s : Dev) (n : Nat) : Dev :=
  if s.porterOn n && s.b F.PORTER_STATUS_NO_TAG14 n == s.tag14 then s.setB F.PORTER_STATUS_NO_TAG14 (!s.tag14) n else s

/-- NO_TAG14 of every Porter. -/
def Dev.tagChecks (s : Dev) : Dev := (List.range 64).foldl Dev.tagCheck s

/-- After an event at Porter `n`. -/
def Dev.run (s : Dev) (n : Nat) : Dev := (s.tagCheck n).pump n 256

/-! ### Reads that commands issue (R262, R263, R272) -/

/-- Staging bytes in use or promised at a Porter (R272). -/
def Dev.staged (s : Dev) (n : Nat) : Nat :=
  let held := ((s.busyRings n).flatMap (fun k => (s.ring k).prog.flatMap (fun d => d.stage.map (fun p => p.2.1.length)))).foldl (· + ·) 0
  (s.porter n).tags.foldl (fun a e => match e.2 with
    | some t => if t.kind = 0 ∧ t.quar = false then a + (t.len - t.got) else a
    | none => a) held

/-- Max read request of a Stall's data reads (R270). -/
def Dev.mrrs (s : Dev) (st : Nat) : Nat :=
  min (128 * 2 ^ min (s.f F.STALL_CTL_MRRS st) 5) (128 * 2 ^ min (s.cfNum .porterPf 0x58 12 3) 5)

/-- A read of `len` bytes at offset `off` of a COPY (R270, R272, R311). -/
def Dev.readAt (s : Dev) (n k : Nat) (d : Desc) (off len : Nat) (redo : Bool) : Dev :=
  match d.src.place off with
  | none => s
  | some (va, _, _) =>
    let oldest := ((s.ring k).oldest.map Desc.slot) == some d.slot
    let upto := d.segUp (off + len)
    if (s.findTag n false (k / 8) true).isNone || decide (262144 < s.staged n + len)
        || (decide (d.charged < upto) && !s.mayCharge n k) then s
    else
      let w := waiterOf n k 0
      match s.xlate w va false with
      | (s1, .ok a aty) =>
        let t : TagSt := { kind := 0, stall := k / 8, ring := k % 8, tag := 0, slot := d.slot, off := off, len := len, addr := a, va := va
                           ahead := !oldest }
        match s1.issueTagged n t (s1.reqFor k .mrd 1 a aty) with
        | none => s1
        | some s2 =>
          let s3 := if d.charged < upto then s2.chargeStall (k / 8) (upto - d.charged) else s2
          s3.updDesc k d.slot (fun d => { d with
            rd := if redo then d.rd else off + len, charged := max d.charged upto, redo := d.redo.filter (fun r => decide (r.1 ≠ off)) })
      | (s1, .wait) => s1
      | (s1, r) => s1.xfail n k w r va (d.segStart off) d.slot false

/-- The next read of a COPY: bytes up to the ends that R270 sets, to the list elements' and to the point where it is being parked; none
while its list elements are unknown. -/
def Dev.nextRead (s : Dev) (k : Nat) (d : Desc) : Option Nat :=
  match d.src.place d.rd with
  | none => none
  | some (va, _, e) =>
    let m := s.mrrs (k / 8)
    let len := min (min (e - d.rd) (m - va % m)) (min (d.lim.getD d.len) d.len - d.rd)
    if d.dst.named < d.rd + len then none else some len

/-- A COPY may issue reads: not ended, not failed, or failed by poisoned bytes whose writes still want their neighbours. -/
def Desc.reads (d : Desc) : Bool :=
  d.op == 1 && d.ended.isNone && decide (d.rd < d.len) && d.below d.rd && (match d.fail with
    | none => true
    | some (f, st, _) => st == 0x0A && decide (d.rd < f + 4096))

/-- The next data read of the ring that a Porter serves (R272): a refused read-ahead of the oldest descriptor first (R305). -/
def Dev.issueRead (s : Dev) (n k : Nat) : Dev :=
  let x := s.ring k
  if (s.porter n).ring ≠ some k ∨ (s.rstate k ≠ 2 ∧ s.rstate k ≠ 3) then s
  else
    match x.oldest.bind (fun d => d.redo.head?.map (fun r => (d, r))) with
    | some (d, r) => s.readAt n k d r.1 r.2 true
    | none =>
      match x.live.find? Desc.reads with
      | none => s
      | some d => match s.nextRead k d with
        | some len => s.readAt n k d d.rd len false
        | none => s

/-- The next descriptor read of the ring that a Porter serves (R263). -/
def Dev.issueFetch (s : Dev) (n k : Nat) : Dev :=
  let x := s.ring k
  let p := s.porter n
  let z := s.rsize k
  let ci := s.rci k
  let first := (x.prog.head?.map Desc.slot).getD ci
  let dist (a b : Nat) : Nat := (b + z - a) % z
  let avail := dist ci x.pi - dist ci x.fetch
  let va := s.f F.RING_BASE (k / 8) (k % 8) * 4096 + 64 * x.fetch
  let cnt := min (min (min 8 avail) (z - x.fetch)) (min ((4096 - va % 4096) / 64) (32 - dist first x.fetch))
  if p.ring ≠ some k ∨ p.park = true ∨ s.rstate k ≠ 2 ∨ x.fetching = true ∨ x.fetchBad.isSome = true ∨ x.susp.isSome = true ∨ cnt = 0
      ∨ (s.findTag n false (k / 8) false).isNone = true then s
  else
    let w := waiterOf n k 3
    match s.xlate w va false with
    | (s1, .ok a aty) =>
      let t : TagSt := { kind := 2, stall := k / 8, ring := k % 8, tag := 0, slot := x.fetch, len := 64 * cnt, addr := a, va := va }
      match s1.issueTagged n t (s1.reqFor k .mrd 2 a aty) with
      | some s2 => s2.setRing k { s2.ring k with fetching := true }
      | none => s1
    | (s1, .wait) => s1
    | (s1, r) => s1.xfail n k w r va 0 x.fetch false

/-- A Stall that is polled (R262). -/
def Dev.polled (s : Dev) (n st : Nat) : Bool :=
  s.porterOn n && s.b F.STALL_BIND_BOUND st && s.stallPorter st == n && s.bme (.stall st) && !s.b F.STALL_MGR_STATUS_FLR_BUSY st
    && (s.stallSt st).pollFault.isNone
    && (List.range 8).any (fun r => decide (1 ≤ s.rstate (8 * st + r) ∧ s.rstate (8 * st + r) ≤ 3))

/-- A poll fails: every enabled ring of the Stall halts (R262). -/
def Dev.pollFail (s : Dev) (st : Nat) : Dev :=
  s.haltStall st 0x10

/-- A poll's translation faults: polling stops and the fault is recorded (R299); in the unit's safe state it is an abort. -/
def Dev.pollFaulted (s : Dev) (n st : Nat) (w : XWaiter) (va : Nat) (r : XRes) : Dev :=
  match r with
  | .fault c l =>
    let f := s.faultFor w c l va 0 0 false false
    let h := n / 32
    let s2 := s.setStall st { s.stallSt st with pollFault := some f }
    s2.setXl h { s2.xl h with fq := (s2.xl h).fq ++ [{ porter := n, stall := st, ring := 0, x := f }] }
  | _ => s.pollFail st

/-- A read of a Stall's doorbell record (R260, R262, R271). -/
def Dev.issuePoll (s : Dev) (n st : Nat) : Dev :=
  if !s.polled n st || (s.porter n).tags.any (fun e => match e.2 with
      | some t => t.kind == 3 && t.stall == st && !t.quar
      | none => false) then s
  else if !s.tag14 || (s.findTag n false st false).isNone then s.tagCheck n
  else
    let s0 := s.tagCheck n
    let va := s.f F.DB_ADDR_ADDR st * 64
    let w := waiterOf n (8 * st) 4
    match s0.xlate w va false with
    | (s1, .ok a aty) =>
      let t : TagSt := { kind := 3, stall := st, ring := 0, tag := 0, len := 64, addr := a, va := va }
      match s1.issueTagged n t (s1.reqFor (8 * st) .mrd 0 a aty) with
      | some s2 => s2.count .polls 4 st n 1
      | none => s1
    | (s1, .wait) => s1
    | (s1, r) => s1.pollFaulted n st w va r

/-- A waiter takes its translation's answer. -/
def Dev.wake (s : Dev) (w : XWaiter) : Dev :=
  let k := 8 * w.stall + w.ring
  let s1 := match w.kind with
    | 0 => s.issueRead w.porter k
    | 3 => s.issueFetch w.porter k
    | 4 => s.issuePoll w.porter w.stall
    | 9 => s.tallyWake
    | _ => s
  s1.run w.porter

/-- Requests that wait for the translation unit of half `h` try again. -/
def Dev.walksTry (s : Dev) (h : Nat) : Dev :=
  (s.xl h).waitq.foldl (fun s x => s.wake x.1) (s.setXl h { s.xl h with waitq := [] })

/-- A walk has ended: its waiters take the answer, it leaves the unit, and requests that waited for a walk try again. -/
def Dev.walkWake (s : Dev) (h i : Nat) : Dev :=
  match (s.xl h).walks.look none i with
  | none => s
  | some y =>
    if !y.done then s
    else
      let s1 := y.waiters.foldl Dev.wake s
      (s1.setXl h { s1.xl h with
        walks := (s1.xl h).walks.filter (fun e => decide (e.1 ≠ i) || !((e.2.map WalkSt.done).getD true)) }).walksTry h

/-! ### What a poll shows (R262) -/

/-- The PI values of a doorbell record taken by the enabled rings of a Stall. -/
def Dev.pollDone (s : Dev) (n st : Nat) (pis : List Nat) : Except Fault Dev :=
  let on (r : Nat) : Bool := s.b F.RING_CTL_EN st r
  if (List.range 8).any (fun r => on r && decide (s.rsize (8 * st + r) ≤ pis.getD r 0)) then .error .badPi
  else
    let s1 := (List.range 8).foldl (fun s r =>
      let k := 8 * st + r
      if on r then s.setRing k { s.ring k with pi := pis.getD r 0 } else s) s
    let news := (List.range 8).any (fun r => on r && (s1.ring (8 * st + r)).pi != (s1.ring (8 * st + r)).fetch)
    let busy := (List.range 8).any (fun r => !(s1.ring (8 * st + r)).prog.isEmpty)
    let x := s1.stallSt st
    let empties := if news || busy then 0 else x.empties + 1
    let quiet := !news && !busy && decide (max (s.f F.PORTER_CTL_QUIET_AFTER n) 1 ≤ empties)
    let s2 := s1.setStall st { x with empties := empties }
    let s3 := if news then s2.setB F.STALL_STATUS_ACTIVE true st else if quiet then s2.setB F.STALL_STATUS_ACTIVE false st else s2
    .ok ((s3.run n).preempt n)

end Sys2Proof.Machine
end

