-- ==== Sys2Proof/Machine/PorterCmds.lean ====
section
/-! DEFINITION. Commands of the Porters (R257-R282) and of the core ports (R17). -/

namespace Sys2Proof.Machine

/-! ### The core port (R17, R23) -/

/-- A refused data or NOTIFY write ends its descriptor, and no later write of the ring goes out (R275). -/
def Dev.writeRefused (s : Dev) (n : Nat) (q : PReq) : Dev :=
  let k := 8 * q.stall + q.ring
  (s.dropReqs n (fun y => y.stall == q.stall && y.ring == q.ring && (y.kind == 10 || y.kind == 12))).endDesc n k q.slot 0x0B q.off q.va

/-- A refused record write halts its ring (R279). -/
def Dev.recordRefused (s : Dev) (q : PReq) : Dev :=
  let k := 8 * q.stall + q.ring
  let (ci, ph) := match (s.ring k).prog.head? with
    | some d => (d.slot, d.phase)
    | none => (s.rci k, s.rphase k)
  if s.rstate k = 0 then s else s.haltRing k 0x12 q.slot ci ph []

/-- What a bound request means to its Porter. -/
def Dev.reqBound (s : Dev) (n : Nat) (q : PReq) (d : Decision) : Dev :=
  let k := 8 * q.stall + q.ring
  let len := q.tlp.payload.length
  let last (a : Nat) : Nat := (a + len - 1) / 4 * 4
  match q.kind with
  | 10 =>
    ((s.updDesc k q.slot (fun d => { d with unbound := d.unbound - 1 })).count .bytesWr 1 q.stall n len).notePort k
      { e := d.egress, addr := last q.tlp.addr.toNat, aty := q.tlp.atype.toNat, va := last q.va, slot := q.slot }
  | 12 =>
    let s1 := s.count .bytesWr 1 q.stall n len
    if (s.ring k).prog.any (fun d => d.slot == q.slot && d.sent && d.ended.isNone) then s1.waitOver n k q.slot else s1
  | _ => s

/-- What a refused request means to its Porter; `ahead` says that it was refused only as a read-ahead, which the Porter takes as no error
(R305). -/
def Dev.reqRefused (s : Dev) (n : Nat) (q : PReq) (ahead : Bool) : Dev :=
  if q.kind = 10 ∨ q.kind = 12 then s.writeRefused n q
  else if q.kind = 11 then s.recordRefused q
  else if ahead then
    s.setPorter n { s.porter n with tags := (s.porter n).tags.map (fun e => (e.1, e.2.map (fun t =>
      if t.kind == 0 && t.stall == q.stall && t.tag == q.tlp.tag.toNat % 256 then { t with refused := true } else t))) }
  else s

/-- The oldest request at a Porter's core port in its lookup cycle; it waits while its pools have no room (R155), or the Aisle no
credit (R12). -/
def Dev.bindPorter (s : Dev) (n : Nat) : Except Fault Dev :=
  match (s.porter n).port with
  | [] => .ok s
  | q :: rest => do
    let i := 512 + n
    let (s1, d, r) ← (s.setPorter n { s.porter n with port := rest }).lookup i (s.partOf i) q.tlp q.ahead (s.b F.STALL_XLAT_HOST_RA q.stall)
    let s2 : Dev := { s1 with bindCount := s.bindCount + 1 }
    let st := s2.withPool { id := s.bindCount, d := d, tlp := q.tlp, ingress := i }
    if d.action = 0 then
      let s3 := s2.intoFloor st
      if s.porterRoom i d.half (clsOf q.tlp.kind) (cellsOf (tlpLen q.tlp)) && !s2.copyWaits st && s2.aisleKeeps s3 then
        return (((s3.reqBound n q d).invBound n).run n)
      else return s
    else return ((((s2.refuse st d.action).reqRefused n q r.ahead).invBound n).run n)

/-- PORTER_REQUEST_INGRESS (R17). -/
def execPorterRequestIngress (n : Fin 64) (s : State) : Host.Outcome State Fault Refusal :=
  s.doneOr (if s.dev.porterOn n then s.dev.bindPorter n else .ok s.dev)

/-! ### Polls and fetches (R262, R263) -/

/-- DOORBELL_POLL (R262). -/
def execDoorbellPoll (n : Fin 64) (st : Fin 1024) (s : State) : Host.Outcome State Fault Refusal := s.done (s.dev.issuePoll n st)

/-- A slot of Porter `n` whose read is outstanding. -/
def Dev.outstanding (s : Dev) (n : Nat) (p : TagSt → Bool) : Option (Nat × TagSt) :=
  (s.porter n).tags.findSome? (fun e => e.2.bind (fun t => if !t.quar && p t then some (e.1, t) else none))

/-- A read is answered: its slot is free, and it has left the core port. -/
def Dev.answered (s : Dev) (n slot : Nat) (t : TagSt) : Dev :=
  (s.freeTag n slot).dropReqs n (fun q => decide (q.kind ≤ 6) && q.tlp.tag.toNat % 256 == t.tag && q.stall == t.stall
    && (q.tlp.reqId == s.porterRid) == t.pf)

/-- The slots in the bytes of a descriptor read. -/
def slotsOf (l : List Byte) : List (BitVec 512) := (List.range (l.length / 64)).map (fun j => BitVec.ofNat 512 (leAt l (64 * j) 64))

/-- Descriptor slots arrive (R263). -/
def Dev.fetched (s : Dev) (n : Nat) (t : TagSt) (l : List (BitVec 512)) : Dev :=
  let k := 8 * t.stall + t.ring
  let x := s.ring k
  let got := l.take (t.len / 64)
  if t.dead then s
  else (s.setRing k { x with slots := x.slots ++ got, fetch := (x.fetch + got.length) % s.rsize k, fetching := false }).run n

/-- A read of a Porter fails: `st` is the status that a data read gives (R262, R267, R274, R277, R279, R286). A list read that fails gives
BAD_LIST, as R267 says, in every way that it can fail, though R273 and R274 name BAD_CPL and READ_TIMEOUT without excepting it (DEDUCED, log
139). -/
def Dev.readFail (s : Dev) (n : Nat) (t : TagSt) (st : Nat) : Dev :=
  let k := 8 * t.stall + t.ring
  let h := n / 32
  if t.dead && t.kind ≠ 4 then s.run n
  else match t.kind with
  | 0 => (s.updDesc k t.slot (fun d => d.addFail (t.off + t.got) st (t.va + t.got))).run n
  | 1 =>
    (s.updDesc k t.slot (fun d =>
      (if t.dst then { d with dst := { d.dst with busy := false } } else { d with src := { d.src with busy := false } }).addFail
        t.off 0x05 t.va)).run n
  | 2 => (s.setRing k { s.ring k with fetching := false, fetchBad := some t.slot }).run n
  | 3 => (s.pollFail t.stall).run n
  | 4 => (s.flushed k t false).run n
  | _ =>
    let lvl := (((s.xl h).walks.look none t.slot).map WalkSt.level).getD 0
    ((s.walkEnd h t.slot (some (if t.kind = 5 then (5, lvl) else (7, 0)))).walkWake h t.slot).run n

/-- A read other than a data read is complete with its bytes. -/
def Dev.readDone (s : Dev) (n : Nat) (t : TagSt) (l : List Byte) : Except Fault Dev :=
  let k := 8 * t.stall + t.ring
  let h := n / 32
  match t.kind with
  | 1 => .ok (if t.dead then s.run n else (s.updDesc k t.slot (fun d => d.takeList t.dst t.va l)).run n)
  | 2 => .ok (s.fetched n t (slotsOf l))
  | 3 => s.pollDone n t.stall ((List.range 8).map (fun r => leAt l (4 * r) 2))
  | 4 => .ok ((s.flushed k t true).run n)
  | 5 =>
    .ok (match (s.xl h).walks.look none t.slot with
      | some y => if t.dead then s.run n else ((s.walkEntry h t.slot y (BitVec.ofNat 64 (leAt l 0 8))).walkWake h t.slot).run n
      | none => s.run n)
  | _ => .ok (s.run n)

/-- POLL_COMPLETE (R262). A poll of a Stall silenced since is stale (R320). -/
def execPollComplete (n : Fin 64) (st : Fin 1024) (ok : Bool) (pis : List (BitVec 16)) (s : State) :
    Host.Outcome State Fault Refusal :=
  let d := s.dev
  s.doneOr (match d.outstanding n (fun t => t.kind == 3 && t.stall == st.val) with
    | none => .ok d
    | some (slot, t) =>
      let d1 := d.answered n slot t
      if d.staleTag t then .ok (d1.inc .staleCpl 1 n)
      else if ok then d1.pollDone n st (pis.map BitVec.toNat)
      else .ok ((d1.pollFail st).run n))

/-- DESCRIPTOR_FETCH (R263). -/
def execDescriptorFetch (n : Fin 64) (s : State) : Host.Outcome State Fault Refusal :=
  let d := s.dev
  s.done (match (d.porter n).ring with
    | some k => if d.porterOn n && d.tag14 then (d.issueFetch n k).run n else d
    | none => d)

/-- DESCRIPTOR_READ_COMPLETE (R263, R279). -/
def execDescriptorReadComplete (n : Fin 64) (ok : Bool) (slots : List (BitVec 512)) (s : State) : Host.Outcome State Fault Refusal :=
  let d := s.dev
  s.done (match d.outstanding n (fun t => t.kind == 2) with
    | none => d
    | some (slot, t) =>
      let d1 := d.answered n slot t
      if d.staleTag t then d1.inc .staleCpl 1 n
      else if ok then d1.fetched n t slots else d1.readFail n t 0)

/-! ### Descriptors start (R264-R268) -/

/-- The next descriptor of the ring that Porter `n` serves, where one may start (R257, R263, R303): none behind one that has
failed, or that waits (R268). -/
def Dev.nextDesc (s : Dev) (n : Nat) : Option (Nat × Desc) :=
  let p := s.porter n
  match p.ring with
  | none => none
  | some k =>
    let x := s.ring k
    let failed := x.prog.any (fun d => d.bad || (!d.moves && d.ended.isNone))
    let held := match x.susp with
      | some f => f.kind != 3
      | none => false
    if !s.porterOn n || p.park || s.rstate k != 2 || decide (4 ≤ x.prog.length) || failed || held then none
    else x.slots.head?.map (fun r => (k, { slot := s.rci k, phase := s.rphase k, raw := [r] }))

/-- A descriptor starts: CI moves past it (R259). -/
def Dev.startDesc (s : Dev) (k : Nat) (d : Desc) : Dev :=
  let x := s.ring k
  let (ci, ph) := s.slotPast k d.slot d.phase d.n
  (s.setRing k { x with prog := x.prog ++ [d], slots := x.slots.drop d.n }).setCi k ci ph

/-- The next descriptor starts if its OPCODE is one of `p`. -/
def Dev.startOp (s : Dev) (n : Nat) (p : Nat → Bool) (f : Dev → Nat → Desc → Dev) : Dev :=
  match s.nextDesc n with
  | some (k, d) => if p d.op then (f s k d).run n else s
  | none => s

/-- A descriptor that ends as it starts. -/
def Dev.startBad (s : Dev) (n k : Nat) (d : Desc) (st : Nat) : Dev := (s.startDesc k d).endDesc n k d.slot st 0 0

/-- COPY and FILL (R265). -/
def Dev.startCopy (s : Dev) (n k : Nat) (d : Desc) : Dev :=
  if d.len = 0 ∨ 2 ^ 32 < d.len then s.startBad n k d 0x03
  else
    let src : Cursor := if d.op = 1 then cursorOf (d.flag 2) (d.num 0x10 8) d.len else {}
    s.startDesc k { d with src := src, dst := cursorOf (d.flag 3) d.dstAddr d.len }

/-- INLINE (R266): it waits for all of its slots (R263). -/
def Dev.startInline (s : Dev) (n k : Nat) (d : Desc) : Dev :=
  match d.inlineSlots with
  | none => s.startBad n k d 0x04
  | some m =>
    let x := s.ring k
    if x.slots.length < m then s
    else s.startDesc k { d with n := m, raw := x.slots.take m, dst := cursorOf false d.dstAddr d.len }

/-- A descriptor that waits (R268, R311). `noted` says that nothing was in progress before it (R282). -/
def Dev.startWait (s : Dev) (n k : Nat) (d : Desc) : Dev :=
  if s.mayCharge n k then
    (s.chargeStall (k / 8) 64).startDesc k { d with noted := decide (d.op = 4) && (s.ring k).prog.isEmpty }
  else s

/-- A LEDGER_SYNC is permitted to the Stall (R330). -/
def Dev.syncPermitted (s : Dev) (st c : Nat) : Bool :=
  decide (c < 256) && ((!s.b F.LEDGER_KIND c && s.f F.LEDGER_STALL c == st)
    || (s.b F.LEDGER_SYNC_EN c && s.f F.LEDGER_SYNC_STALL c == st))

/-- COPY (R265). -/
def execPorterCopy (n : Fin 64) (s : State) : Host.Outcome State Fault Refusal :=
  s.done (s.dev.startOp n (fun o => o == 1) (fun d k x => d.startCopy n k x))

/-- FILL (R265). -/
def execPorterFill (n : Fin 64) (s : State) : Host.Outcome State Fault Refusal :=
  s.done (s.dev.startOp n (fun o => o == 2) (fun d k x => d.startCopy n k x))

/-- INLINE (R266). -/
def execPorterInline (n : Fin 64) (s : State) : Host.Outcome State Fault Refusal :=
  s.done (s.dev.startOp n (fun o => o == 3) (fun d k x => d.startInline n k x))

/-- FENCE (R268). -/
def execPorterFence (n : Fin 64) (s : State) : Host.Outcome State Fault Refusal :=
  s.done (s.dev.startOp n (fun o => o == 4) (fun d k x => d.startWait n k x))

/-- NOTIFY (R265, R268). -/
def execPorterNotify (n : Fin 64) (s : State) : Host.Outcome State Fault Refusal :=
  s.done (s.dev.startOp n (fun o => o == 5) (fun d k x => d.startWait n k x))

/-- LEDGER_SYNC (R330). -/
def execLedgerSync (n : Fin 64) (s : State) : Host.Outcome State Fault Refusal :=
  s.done (s.dev.startOp n (fun o => o == 6) (fun d k x =>
    if d.syncPermitted (k / 8) (x.num 0x28 8) then d.startWait n k x else d.startBad n k x 0x0E))

/-- BAD_OPCODE (R264). -/
def execBadOpcode (n : Fin 64) (s : State) : Host.Outcome State Fault Refusal :=
  s.done (s.dev.startOp n (fun o => o == 0 || decide (6 < o)) (fun d k x => d.startBad n k x 0x02))

/-! ### Reads and their completions (R271-R274) -/

/-- DATA_READ_ISSUE (R272). -/
def execDataReadIssue (n : Fin 64) (s : State) : Host.Outcome State Fault Refusal :=
  let d := s.dev
  s.done (match (d.porter n).ring with
    | some k => if d.porterOn n && d.tag14 then (d.issueRead n k).run n else d
    | none => d)

/-- An unexpected completion (R274, R281). -/
def Dev.unexpected (s : Dev) (n : Nat) : Dev :=
  (((s.inc .unexpCpl 1 n).aerU .porterPf AER.unexpectedCompletion).aerC .porterPf 13).pulse (78 + n / 32)

/-- The bytes of a completion are the next that its request expects (R273). A zero-length read expects one completion. -/
def TagSt.expects (t : TagSt) (c : Tlp) : Bool :=
  t.kind == 4 || t.kind == 6 ||
    (c.lowerAddr.toNat == (t.addr + t.got) % 128 && (c.byteCount == t.len - t.got || c.byteCount == (t.len - t.got) % 4096)
      && decide (1 ≤ c.payload.length) && decide (c.payload.length ≤ t.len - t.got))

/-- A slot held in quarantine. -/
def Dev.quarantine (s : Dev) (n slot : Nat) (t : TagSt) (stale : Bool) : Dev :=
  let s1 := s.freeTag n slot
  s1.setTag n slot (some { t with quar := true, stale := stale })

/-- Data of a data read accepted (R273, R275). Bytes at or above S of a descriptor that suspends are discarded uncounted (R298 item 5). -/
def Dev.dataIn (s : Dev) (n slot : Nat) (t : TagSt) (c : Tlp) : Dev :=
  let k := 8 * t.stall + t.ring
  let len := c.payload.length
  let t1 := { t with got := t.got + len }
  let s1 := if t1.got = t.len then s.freeTag n slot else s.setTag n slot (some t1)
  if t.dead then s1.run n
  else
    let x := s.ring k
    let at' := t.off + t.got
    let use := match x.susp with
      | some f => if f.kind ≤ 2 ∧ f.slot = t.slot then min len (f.off - at') else len
      | none => len
    let s2 := (s1.count .bytesRd 0 t.stall n use).updDesc k t.slot (fun d =>
      if use = 0 then d
      else
        let d1 := { d with stage := d.stage ++ [(at', c.payload.take use, c.ep)] }
        if c.ep then d1.addFail (at' + use) 0x0A (t.va + t.got) else d1)
    s2.run n

/-- A completion that names an outstanding slot (R273). -/
def Dev.completionIn (s : Dev) (n slot : Nat) (t : TagSt) (c : Tlp) : Except Fault Dev :=
  let s0 := if c.ep then s.aerU .porterPf AER.poisoned else s
  if c.status ≠ .sc then
    let s1 := s0.answered n slot t
    .ok (if t.refused = true ∧ t.dead = false ∧ c.status = .ur then
        ((s1.inc .raRefused 1 (n / 32)).updDesc (8 * t.stall + t.ring) t.slot (fun d =>
          { d with redo := d.redo ++ [(t.off + t.got, t.len - t.got)] })).run n
      else s1.readFail n t (if c.status = .ur then 0x06 else 0x07))
  else if !t.expects c then .ok (((s0.inc .badCpl 1 n).quarantine n slot t false).readFail n t 0x09)
  else if t.kind = 0 then .ok (s0.dataIn n slot t c)
  else
    let t1 := { t with got := t.got + c.payload.length, buf := t.buf ++ c.payload }
    if t.kind = 6 then .ok s0
    else if c.ep then .ok ((s0.answered n slot t).readFail n t 0)
    else if t1.got < t.len then .ok (s0.setTag n slot (some t1))
    else (s0.answered n slot t).readDone n t1 t1.buf

/-- A completion for a slot of a silenced Stall (R320): the slot is free with its last bytes. -/
def Dev.staleIn (s : Dev) (n slot : Nat) (t : TagSt) (c : Tlp) : Dev :=
  let s1 := s.inc .staleCpl 1 n
  let got := t.got + c.payload.length
  if c.status ≠ .sc ∨ t.len ≤ got then s1.answered n slot t else s1.setTag n slot (some { t with got := got })

/-- A completion names a tag slot of a Porter (R271, R273). -/
def Dev.tagNamed (s : Dev) (n : Nat) (c : Tlp) (t : TagSt) : Bool :=
  decide (c.tag.toNat = 256 * n + t.tag) && c.reqId == (if t.pf then s.porterRid else s.stallRid t.stall)

/-- A completion at a Porter (R273, R274, R320). In the Porter's safe state it is discarded and counted in STALE_CPL (R338). -/
def Dev.porterCpl (s : Dev) (n : Nat) (c : Tlp) : Except Fault Dev :=
  let mine (t : TagSt) : Bool := s.tagNamed n c t
  match (s.porter n).tags.findSome? (fun e => e.2.bind (fun t => if mine t then some (e.1, t) else none)) with
    | none => .ok (if s.porterSafe n then s.inc .staleCpl 1 n else s.unexpected n)
    | some (slot, t) =>
      if s.porterSafe n then .ok (if t.quar then s.inc .staleCpl 1 n else s.staleIn n slot t c)
      else if t.quar then .ok (if t.stale then s.inc .staleCpl 1 n else s.unexpected n)
      else if s.staleTag t then .ok ((s.staleIn n slot t c).run n)
      else s.completionIn n slot t c

/-- A request's timeout (R274, R320). -/
def Dev.timedOut (s : Dev) (n slot : Nat) (t : TagSt) : Dev :=
  if s.staleTag t then s.quarantine n slot t true
  else
    let s1 := ((s.inc .cplTimeout 1 n).aerU .porterPf AER.completionTimeout).pulse (78 + n / 32)
    (s1.quarantine n slot t false).readFail n t 0x08

/-- A completion arrives. A tag slot that reads with an uncorrectable error is taken as timed out (R342). -/
def Dev.cplArrive (s : Dev) (n : Nat) (c : Tlp) : Except Fault Dev :=
  let hit := (s.porter n).tags.findSome? (fun e => e.2.bind (fun t =>
    if s.tagNamed n c t = true ∧ t.quar = false then (s.badWord (78 + n / 32) (fun w => decide (w = .tag n e.1))).map (fun w => (w, e.1, t)) else none))
  match hit with
  | some (w, sl, t) => ((s.badFound (78 + n / 32) w).timedOut n sl t).porterCpl n c
  | none => s.porterCpl n c

/-- PORTER_COMPLETION (R273). -/
def execPorterCompletion (n : Fin 64) (t : Tlp) (s : State) : Host.Outcome State Fault Refusal := s.doneOr (s.dev.cplArrive n t)

/-- COMPLETION_TIMEOUT (R274). -/
def execCompletionTimeout (n : Fin 64) (slot : Fin 512) (s : State) : Host.Outcome State Fault Refusal :=
  let d := s.dev
  s.done (match d.tagAt n slot with
    | some t => if t.quar then d else d.timedOut n slot t
    | none => d)

/-- QUARANTINE_END (R274). -/
def execQuarantineEnd (n : Fin 64) (slot : Fin 512) (s : State) : Host.Outcome State Fault Refusal :=
  let d := s.dev
  s.done (match d.tagAt n slot with
    | some t => if t.quar then (d.freeTag n slot).run n else d
    | none => d)

/-- FLUSH_READ_COMPLETE (R277). -/
def execFlushReadComplete (n : Fin 64) (slot : Fin 512) (ok : Bool) (s : State) : Host.Outcome State Fault Refusal :=
  let d := s.dev
  s.done (match d.tagAt n slot with
    | some t =>
      if t.quar || t.kind != 4 then d
      else
        let d1 := d.answered n slot t
        if d.staleTag t then d1.inc .staleCpl 1 n
        else (d1.flushed (8 * t.stall + t.ring) t ok).run n
    | none => d)

/-! ### Records, resuming and stopping (R276-R280) -/

/-- The vector behind a record (R278). -/
def Dev.recordVec (s : Dev) (n k : Nat) (d : Desc) (st : Nat) : Dev :=
  if st ≠ 0 then s.errVec n k
  else if d.flag 1 then s.stallMsg n k (if d.op = 5 then d.num 0x31 1 % 16 else s.f F.RING_CTL_CPL_VEC (k / 8) (k % 8))
  else s

/-- The head descriptor's record written, and its vector (R276, R278). A flush that failed halts the ring with it (R277). The ports of the writes
that it announces stay known, for a wait that asks for all (R268). -/
def Dev.writeRecord (s : Dev) (n k : Nat) (d : Desc) (va : Nat) (t : Tlp) : Dev :=
  let x := s.ring k
  let st := (x.outcome d).1
  let s1 := (s.setRing k { x with prog := x.prog.tail, flushBad := none }).tellPorts k (fun p => !x.prog.tail.any (fun y => y.slot == p.slot))
  let s2 := s1.pushReq n { kind := 11, stall := k / 8, ring := k % 8, slot := d.slot, va := va, tlp := t }
  if st = 0x0C ∧ s.rstate k ≠ 3 ∧ (d.halted = false ∨ s.rstate k = 4) then
    let (ci, ph) := s.slotPast k d.slot d.phase d.n
    s2.haltRing k st d.slot ci ph []
  else s2.recordVec n k d st

/-- COMPLETION_RECORD (R276): the next record due of a ring of this Porter. -/
def Dev.recordNext (s : Dev) (n : Nat) : List Nat → Dev
  | [] => s
  | k :: t => match s.recordTry n k with
    | (s1, some (d, va, tlp)) => (s1.writeRecord n k d va tlp).run n
    | (s1, none) => s1.recordNext n t

/-- COMPLETION_RECORD (R276). -/
def execCompletionRecord (n : Fin 64) (s : State) : Host.Outcome State Fault Refusal :=
  s.done (if s.dev.porterOn n then s.dev.recordNext n (s.dev.busyRings n) else s.dev)

/-- PREEMPTION_DONE (R303). -/
def execPreemptionDone (n : Fin 64) (s : State) : Host.Outcome State Fault Refusal :=
  let d := s.dev
  s.done (match (d.porter n).ring with
    | some k => if (d.porter n).park && d.parkReady k then (d.parkDone n k).run n else d
    | none => d)

/-- RESUME of a ring (R279, R282). -/
def Dev.ringResume (s : Dev) (k : Nat) : Dev :=
  if s.rstate k = 4 then
    ((s.setRstate k 1).setF F.RING_STATUS_ERR 0 (k / 8) (k % 8)).run (s.stallPorter (k / 8))
  else s.cfgErr (k / 8)

/-- EN set on a DISABLED ring (R280, R262). -/
def Dev.ringEnable (s : Dev) (k : Nat) : Dev :=
  if s.rstate k = 0 then
    let st := k / 8
    let ci := s.f F.RING_START_CI st (k % 8)
    let s1 := (((s.setB F.RING_CTL_EN true st (k % 8)).setCi k ci true).setRstate k 1).setRing k { pi := ci, fetch := ci }
    (s1.setB F.STALL_STATUS_ACTIVE true st).setStall st { s1.stallSt st with empties := 0 }
  else s

/-- A fault of a ring withdrawn (R307, R319). -/
def Dev.withdraw (s : Dev) (k : Nat) : Dev :=
  (s.setRing k { s.ring k with fault := none, susp := none }).dropFq
    (fun r => r.stall == k / 8 && r.ring == k % 8 && r.x.kind != 4)

/-- EN cleared (R280, R307): the oldest descriptor runs to its next boundary, those after it end without records. A NOTIFY
whose write is issued ends with it. -/
def Dev.ringDisable (s : Dev) (k : Nat) : Dev :=
  let st := k / 8
  let n := s.stallPorter st
  let s0 := s.setB F.RING_CTL_EN false st (k % 8)
  let x := s0.ring k
  if s.rstate k = 0 ∨ s.rstate k = 3 then s0
  else if s.rstate k = 4 then (s0.setRing k {}).setRstate k 0
  else
    let s1 := (s0.withdraw k).setRstate k 3
    match x.saved with
    | some (_, p, some d) =>
      (((s1.setRing k { s1.ring k with prog := [d], saved := none, slots := [] }).endDesc n k d.slot 1 p 0)).run n
    | some (_, _, none) => (s1.setRing k { s1.ring k with saved := none, slots := [] }).run n
    | none =>
      let i := (x.prog.findIdx? (fun y => y.ended.isNone)).getD x.prog.length
      let gone := x.prog.drop (i + 1)
      let s2 := ((s1.setRing k { s1.ring k with prog := x.prog.take (i + 1), slots := [] }).countDesc (k / 8) n
        (gone.filter (fun d => d.ended.isNone)).length false).killReads n (fun t =>
          t.ofRing k && decide (t.kind ≤ 1) && gone.any (fun d => d.slot == t.slot))
      let s3 := match x.oldest with
        | none => s2
        | some d =>
          if d.moves then
            s2.updDesc k d.slot (fun d => { d with lim := some (min (d.lim.getD d.len) (d.segUp (if d.op = 1 then d.rd else d.wr))) })
          else if d.sent then s2
          else s2.endDesc n k d.slot 1 0 0
      s3.run n

/-- Every request of a STOPPING ring has completed or timed out (R280). -/
def Dev.ringStopped (s : Dev) (k : Nat) : Dev :=
  let n := s.stallPorter (k / 8)
  let x := s.ring k
  let p := s.porter n
  if s.rstate k = 3 ∧ x.prog.isEmpty = true
      ∧ p.tags.any (fun e => match e.2 with
        | some t => t.ofRing k && !t.quar && !s.staleTag t
        | none => false) = false
      ∧ p.port.any (fun q => q.stall == k / 8 && q.ring == k % 8 && q.kind != 3 && q.kind != 13) = false then
    (((s.setRing k {}).setRstate k 0).leaveRing n k).run n
  else s

/-- RING_STOPPED (R280). -/
def execRingStopped (st : Fin 1024) (r : Fin 8) (s : State) : Host.Outcome State Fault Refusal :=
  s.done (s.dev.ringStopped (8 * st + r))

end Sys2Proof.Machine
end

