-- ==== Sys2Proof/Machine/StallOps.lean ====
section
/-! DEFINITION. Stalls and translation: fault responses (R300-R302), the mailbox (R315-R317), silencing (R318-R321), writes of the
binding, share, translation and invalidation registers, the Ledger's folds (R326, R331). -/

namespace Sys2Proof.Machine

/-! ### Fault records and responses (R300-R302) -/

/-- Records of a half's fault queue. -/
def Dev.fqSize (s : Dev) (h : Nat) : Nat := 2 ^ min (max (s.f F.XLAT_CTL_FQ_SIZE_LOG2 h) 4) 12

/-- The fault queue is full. -/
def Dev.fqFull (s : Dev) (h : Nat) : Bool := (s.f F.FQ_PI_INDEX h + 1) % s.fqSize h == s.f F.FQ_CI_INDEX h % s.fqSize h

/-- A fault record's bytes (R300). LEVEL of a RANGE fault is a free value. -/
def FqRec.bytes (r : FqRec) (phase : Bool) (free : Nat) : List Byte :=
  leBytes r.x.addr 8 ++ leBytes r.x.off 8 ++ leBytes (r.stall + 1024 * r.porter) 2
    ++ leBytes (r.ring + 8 * b2n r.x.write + 16 * b2n r.x.pasid.isSome + 32 * b2n r.x.pmr + 128 * b2n phase) 1
    ++ leBytes r.x.cause 1 ++ leBytes r.x.slot 2 ++ leBytes r.x.kind 1 ++ leBytes (if r.x.level = 5 then free else r.x.level) 1
    ++ leBytes ((r.x.pasid.map BitVec.toNat).getD 0) 4 ++ leBytes 0 4

/-- The fault of a ring, or of a Stall's poll, changed. -/
def Dev.setFault (s : Dev) (st r : Nat) (poll : Bool) (f : Option XFault) : Dev :=
  if poll then s.setStall st { s.stallSt st with pollFault := f }
  else s.setRing (8 * st + r) { s.ring (8 * st + r) with fault := f }

/-- The fault that a ring, or a Stall's poll, of half `h` holds. -/
def Dev.faultOf (s : Dev) (h st r : Nat) (poll : Bool) : Option XFault :=
  if s.stallPorter st / 32 ≠ h then none else if poll then (s.stallSt st).pollFault else (s.ring (8 * st + r)).fault

/-- The oldest waiting fault record written (R300), while the management PF may issue requests (R404). -/
def Dev.faultRecord (s : Dev) (h : Nat) : Dev :=
  match (s.xl h).fq with
  | [] => s
  | r :: rest =>
    if s.fqFull h || !s.bme .mgmtPf then s
    else
      let pi := s.f F.FQ_PI_INDEX h
      let x := s.xl h
      let s1 := if r.x.level = 5 then s.useFree else s
      let t := mgmtWrite (s.f F.FQ_BASE_BASE h * 4096 + 32 * pi) (r.bytes x.phase (s.freeVal.toNat % 256))
      let s2 := ((s1.mgmtRequest t).1.setF F.FQ_PI_INDEX ((pi + 1) % s.fqSize h) h).inc .xlatFaults 1 h |>.tallyStall r.stall 5 1
      let s3 := s2.setXl h { s2.xl h with
        fq := rest, phase := if (pi + 1) % s.fqSize h = 0 then !x.phase else x.phase, vector := true }
      let poll := r.x.kind == 4
      let s4 := s3.setFault r.stall r.ring poll ((s3.faultOf h r.stall r.ring poll).map (fun f => { f with written := true }))
      if x.vector then s4 else s4.sendMsix .mgmtPf (s4.f F.XLAT_CTL_FQ_VEC h)

/-- A fault's record that still waits is dropped. -/
def Dev.dropRec (s : Dev) (st r : Nat) (poll : Bool) : Dev :=
  s.dropFq (fun q => q.stall == st && (q.x.kind == 4) == poll && (poll || q.ring == r))

/-- RESUME (R301). The fresh walk: what the cache holds for the address of the fault is dropped (log 128). -/
def Dev.faultResume (s : Dev) (h st r : Nat) (poll : Bool) : Dev :=
  let n := s.stallPorter st
  match s.faultOf h st r poll with
  | none => s.setB F.XLAT_STATUS_RESP_ERR true h
  | some f =>
    let s1 := ((s.setFault st r poll none).dropRec st r poll).xdrop h (fun e =>
      e.stall == st && e.page == f.addr / 2 ^ e.size && (e.mode == 1 || e.pasid == f.pasid))
    if poll then s1 else ((s1.setRstate (8 * st + r) 1).run n).preempt n

/-- The outcome of ABORT (R299, R301). -/
def Dev.faultAbort (s : Dev) (st r : Nat) (f : XFault) : Dev :=
  let k := 8 * st + r
  let n := s.stallPorter st
  let poll := f.kind == 4
  let s1 := (s.setFault st r poll none).dropRec st r poll
  if poll then (s1.pollFail st).run n
  else
    let x := s1.ring k
    match f.kind, x.saved with
    | 3, _ => (s1.haltRing k 0x11 f.slot (s1.rci k) (s1.rphase k) []).run n
    | 5, some (slot, _, some d) =>
      let (ci, ph) := s1.slotPast k slot d.phase d.n
      (s1.haltRing k 0x12 slot ci ph []).run n
    | _, some (slot, p, some d) =>
      let (ci, ph) := s1.slotPast k slot d.phase d.n
      let d1 := { d with ended := some (0x0D, p, f.addr), unbound := 0 }
      (((s1.haltRing k 0x0D slot ci ph [d1])).countDesc st n 1 false).run n
    | _, _ => s1.run n

/-- ABORT written to XLAT_RESP (R301). -/
def Dev.respAbort (s : Dev) (h st r : Nat) (poll : Bool) : Dev :=
  match s.faultOf h st r poll with
  | none => s.setB F.XLAT_STATUS_RESP_ERR true h
  | some f => s.faultAbort st r f

/-- No response came within FAULT_WAIT of the record's writing (R302). -/
def Dev.faultTimeout (s : Dev) (h st r : Nat) (poll : Bool) : Dev :=
  match s.faultOf h st r poll with
  | none => s
  | some f => if f.written && s.f F.XLAT_CTL_FAULT_WAIT h != 0 then (s.faultAbort st r f).inc .autoAbort 1 h else s

/-- A write of XLAT_RESP (R301). -/
def Dev.wrXlatResp (s : Dev) (h : Nat) (v : Word) : Dev :=
  let st := getBits v 0 10
  let r := getBits v 10 3
  let poll := v.getLsbD 13
  if v.getLsbD 14 then s.respAbort h st r poll else s.faultResume h st r poll

/-! ### Walks and page requests -/

/-- Reads of kind `kind` that walk `i` of half `h` has outstanding: those of a walk discarded since, or of a silenced Stall, come first. -/
def Dev.walkTag (s : Dev) (h i kind : Nat) : Option (Nat × Nat × TagSt) :=
  let l := (s.porters.filter (fun e => e.1 / 32 == h)).flatMap (fun e => e.2.tags.filterMap (fun x => x.2.bind (fun t =>
    if t.kind = kind ∧ t.slot = i ∧ t.quar = false then some (e.1, x.1, t) else none)))
  (l.find? (fun x => x.2.2.dead || s.staleTag x.2.2)).or l.head?

/-- The answer to a walk's read, with the tag slot freed. One that a discarded walk issued is dropped (R292, R307), and a stale one only counts
(R320); the oldest is answered first (DESIGN CHOICE, log 146). -/
def Dev.walkAnswer (s : Dev) (h i kind : Nat) (k : Dev → Nat → WalkSt → Dev) : Dev :=
  match s.walkTag h i kind with
  | none => s
  | some (n, slot, t) =>
    let s1 := s.answered n slot t
    if s.staleTag t then (s1.inc .staleCpl 1 n).run n
    else match t.dead, (s1.xl h).walks.look none i with
      | false, some y => if y.done then s1.run n else ((k s1 n y).walkWake h i).run n
      | _, _ => s1.run n

/-- A PRG Response (R295, R307). -/
def Dev.prgAnswer (s : Dev) (st prg : Nat) (c : PrgCode) : Dev :=
  let find (h : Nat) : Option (Nat × Nat × WalkSt) := (s.prgWalk h st prg).map (fun x => (h, x))
  match (find 0).or (find 1) with
  | none => s.inc .unexpPrg 1 (s.stallHalf st)
  | some (h, i, y) =>
    if c = .success then
      let s1 := s.setXl h { s.xl h with walks := (s.xl h).walks.put none i none }
      let s2 := s1.xdrop h (fun e => e.stall == st && e.mode == 2 && e.pasid == y.pasid && e.page == y.addr / 2 ^ e.size)
      (y.waiters.foldl (fun s w => s.walkStart h w 2 y.addr) s2).walksTry h
    else (s.walkEnd h i (some (8, 0))).walkWake h i

/-! ### Registers of binding, share, translation and invalidation -/

/-- Every ring of a Stall is DISABLED. -/
def Dev.ringsOff (s : Dev) (st : Nat) : Bool := (List.range 8).all (fun r => s.rstate (8 * st + r) == 0)

/-- A write of STALL_BIND (R309). The Stall is in no round, and a held share takes effect (R314). -/
def Dev.wrBind (s : Dev) (st : Nat) (v : Word) : Dev :=
  if getBits v 0 7 = getBits (s.reg .stallBind st) 0 7 then s
  else if s.ringsOff st then
    let n := s.stallPorter st
    let s1 := (s.setReg .stallBind (v &&& 0x7F) st).applyShare st
    (s1.run n).run (s1.stallPorter st)
  else s.setB F.STALL_MGR_STATUS_BIND_ERR true st

/-- A write of STALL_SHARE (R314): held until the round ends, or taken at once where no round is under way. -/
def Dev.wrShare (s : Dev) (st : Nat) (v : Word) : Dev :=
  let s1 := s.setStall st { s.stallSt st with share := some (v &&& 0x3FFFFFFFFFFFF) }
  let p := s.porter (s.stallPorter st)
  if s.b F.STALL_BIND_BOUND st && (p.turn.isSome || !p.left.isEmpty) then s1 else s1.applyShare st

/-- A write of STALL_XLAT (R284). -/
def Dev.wrStallXlat (s : Dev) (st : Nat) (v : Word) : Dev :=
  if s.ringsOff st then s.setReg .stallXlat (v &&& 0xFFFFFFFFFF00F) st
  else s.setB F.XLAT_STATUS_XLAT_CFG_ERR true (s.stallHalf st)

/-- A write of XLAT_CTL: FQ_SIZE_LOG2 only while the fault queue is empty. -/
def Dev.wrXlatCtl (s : Dev) (h : Nat) (v : Word) : Dev :=
  let keep := s.f F.XLAT_CTL_FQ_SIZE_LOG2 h
  let s1 := s.setReg .xlatCtl (v &&& 0xFFFF) h
  if s.f F.FQ_PI_INDEX h = s.f F.FQ_CI_INDEX h then s1 else s1.setF F.XLAT_CTL_FQ_SIZE_LOG2 keep h

/-- A write of FQ_BASE (R300). -/
def Dev.wrFqBase (s : Dev) (h : Nat) (v : Word) : Dev :=
  let s1 := ((s.setReg .fqBase (v &&& 0xFFFFFFFFFFFFF000) h).setF F.FQ_PI_INDEX 0 h).setF F.FQ_CI_INDEX 0 h
  s1.setXl h { s1.xl h with phase := true }

/-- A write of FQ_CI (R300). -/
def Dev.wrFqCi (s : Dev) (h : Nat) (v : Word) : Dev :=
  let s1 := s.setF F.FQ_CI_INDEX (getBits v 0 12) h
  s1.setXl h { s1.xl h with vector := false }

/-- A write of XLAT_INV_CTL (R292). -/
def Dev.wrInvCtl (s : Dev) (v : Word) : Dev :=
  if s.b F.XLAT_INV_CTL_INV_BUSY then s.setB F.XLAT_INV_CTL_INV_ERR true
  else
    let n := 2 ^ min (getBits v 12 6) 36
    let page := s.f F.XLAT_INV_ADDR_ADDR / n * n
    (s.setB F.XLAT_INV_CTL_INV_BUSY true).invStart { scope := getBits v 0 2, stall := getBits v 2 10, page := page, pages := n }

/-- The Invalidation Completion of an ATS Invalidation Request, sent from the Stall's Routing ID (R293). -/
def Dev.invReply (s : Dev) (v : InvSt) : Dev :=
  match v.itag with
  | none => s.setB F.XLAT_INV_CTL_INV_BUSY false
  | some i =>
    let t : Tlp := { kind := .msg, msgCode := 2, reqId := s.stallRid v.stall, payload := leBytes (2 ^ i) 4, len := 4 }
    s.pushReq (s.stallPorter v.stall) { kind := 15, stall := v.stall, ring := 0, tlp := t }

/-- Every invalidation that is complete ends (R292, R293). -/
def Dev.invDone (s : Dev) : Dev :=
  let done := s.invs.filter s.invComplete
  done.foldl Dev.invReply { s with invs := s.invs.filter (fun v => !s.invComplete v) }

/-! ### The mailbox (R315-R317) -/

/-- Bit `st` of MB_PENDING set, with the vector where it was clear. -/
def Dev.mbPend (s : Dev) (st : Nat) (vec : Bool) : Dev :=
  let f : Fld := ⟨.mbPending, st % 64, 1⟩
  let was := s.b f (st / 64)
  let s1 := s.setB f true (st / 64)
  if !was && vec then s1.sendMsix .mgmtPf (s.f F.MB_GLOBAL_MB_VEC) else s1

/-- The Stall's mailbox vector. -/
def Dev.mbVec (s : Dev) (st : Nat) : Dev := s.stallVec st (s.f F.MB_CTL_MB_VEC st)

/-- Length of a message: 1 to 64 dwords. -/
def mbLen (n : Nat) : Nat := min (max n 1) 64

/-- Both directions cleared (R317). -/
def Dev.mbClear (s : Dev) (st : Nat) : Dev :=
  let mine (e : RegId × Word) : Bool := (e.1.kind == .mbOut || e.1.kind == .mbMgrIn) && e.1.i == st
  let s1 : Dev := { s with regs := s.regs.filter (fun e => !mine e) }
  (((s1.setB F.MB_CTL_OUT_BUSY false st).setB F.MB_CTL_IN_FULL false st).setB F.MB_MGR_CTL_IN_FULL false st).setB
    F.MB_MGR_CTL_OUT_PEND false st

/-- SEND of a Stall (R315). -/
def Dev.mbSend (s : Dev) (st len : Nat) : Dev :=
  let s0 := s.setF F.MB_CTL_OUT_LEN len st
  if s.b F.MB_CTL_OUT_BUSY st then s0.cfgErr st
  else
    (((s0.setB F.MB_CTL_OUT_BUSY true st).setB F.MB_MGR_CTL_OUT_PEND true st).setF F.MB_MGR_CTL_OUT_LEN (mbLen len) st).mbPend st true

/-- ACK of the manager (R315). -/
def Dev.mbMgrAck (s : Dev) (st : Nat) : Dev := ((s.setB F.MB_CTL_OUT_BUSY false st).setB F.MB_MGR_CTL_OUT_PEND false st).mbVec st

/-- SEND of the manager (R316). During the Stall's FLR it sends nothing, and IN is cleared (R333). -/
def Dev.mbMgrSend (s : Dev) (st len : Nat) : Dev :=
  if s.b F.STALL_MGR_STATUS_FLR_BUSY st then s.mbClear st
  else
    let s0 := s.setF F.MB_MGR_CTL_IN_LEN len st
    if s.b F.MB_MGR_CTL_IN_FULL st then s0.setB F.MB_MGR_CTL_MB_ERR true st
    else (((s0.setB F.MB_MGR_CTL_IN_FULL true st).setB F.MB_CTL_IN_FULL true st).setF F.MB_CTL_IN_LEN (mbLen len) st).mbVec st

/-- ACK of a Stall (R316). -/
def Dev.mbAck (s : Dev) (st : Nat) : Dev := ((s.setB F.MB_MGR_CTL_IN_FULL false st).setB F.MB_CTL_IN_FULL false st).mbPend st true

/-! ### Silencing (R318-R321) -/

/-- Everything a silenced Stall had under way ends (R319): page requests, walks, faults; its GEN moves on. Requests that it has issued to the
core port are bound and proceed (R23). -/
def Dev.quiet (s : Dev) (st : Nat) : Dev :=
  let noWalk (h : Nat) (s : Dev) : Dev :=
    s.setXl h { s.xl h with walks := (s.xl h).walks.filter (fun e => (e.2.map (fun y => y.stall != st)).getD false)
                            waitq := (s.xl h).waitq.filter (fun q => q.1.stall != st) }
  let s2 := (noWalk 1 (noWalk 0 s)).dropFq (fun r => r.stall == st)
  let s3 := s2.setStall st { s2.stallSt st with pollFault := none, empties := 0 }
  (s3.setB F.STALL_STATUS_ACTIVE false st).setF F.STALL_MGR_STATUS_GEN ((s.f F.STALL_MGR_STATUS_GEN st + 1) % 65536) st

/-- Bus Master Enable of a Stall cleared (R318): its enabled rings halt with MASTER_OFF, at the first descriptor without a record. -/
def Dev.masterOff (s : Dev) (st : Nat) : Dev :=
  let s1 := (s.setCfBits (.stall st) 0x04 4 false).silenceRings st 0x13
  let s2 := (List.range 8).foldl (fun s r => s.setRing (8 * st + r) { s.ring (8 * st + r) with saved := none }) s1
  (s2.quiet st).run (s.stallPorter st)

/-- An FLR of a Stall (R318, R321): rings DISABLED, its registers at their reset values, its translations removed. -/
def Dev.stallFlr (s : Dev) (st : Nat) : Dev :=
  let n := s.stallPorter st
  let s1 := (List.range 8).foldl (fun s r =>
    let k := 8 * st + r
    (if s.rstate k = 0 ∨ s.rstate k = 4 then s else s.countDesc st n
      ((s.ring k).prog.filter (fun d => d.ended.isNone)).length false).setRing k {} |>.leaveRing n k) s
  let s2 := (s1.quiet st).mbClear st
  let mine (e : RegId × Word) : Bool := e.1.kind.info.form == .stall && e.1.i == st
  let s3 : Dev := { s2 with
    regs := s2.regs.filter (fun e => !mine e), cfg := s2.cfg.filter (fun e => e.1.fn != .stall st)
    msix := s2.msix.filter (fun e => e.1 / 64 != 2 + st), pba := s2.pba.filter (fun e => e.1 != 2 + st) }
  let s4 := (s3.xdrop 0 (fun e => e.stall == st)).xdrop 1 (fun e => e.stall == st)
  (((s4.setB F.MB_MGR_CTL_FLR_SEEN true st).mbPend st false).setB F.STALL_MGR_STATUS_FLR_BUSY true st).run n

/-- VF Enable and NumVFs of the Porter PF (PCI Express Base 7.0, log 13). -/
def Dev.vfCount (s : Dev) : Nat := if s.cfBit .porterPf 0x168 0 then min (s.cfNum .porterPf 0x170 0 16) 1024 else 0

/-- SR-IOV Control and NumVFs written: Stalls that are removed are reset (R318). -/
def Dev.vfWrite (s : Dev) (en : Bool) (num : Nat) : Dev :=
  let was := s.vfCount
  let s1 := (s.setCfBits .porterPf 0x168 1 en).setCf .porterPf 0x170
    ((s.cf .porterPf 0x170 &&& 0xFFFF0000) ||| BitVec.ofNat 32 (num % 65536))
  let now := s1.vfCount
  ((List.range was).filter (fun st => decide (now ≤ st))).foldl Dev.stallFlr s1

/-- The Porter PF's own reset, with every Stall's (R318). -/
def Dev.porterFlr (s : Dev) : Dev :=
  let s1 := (List.range 1024).foldl Dev.stallFlr s
  ({ s1 with
    cfg := s1.cfg.filter (fun e => e.1.fn != .porterPf), msix := s1.msix.filter (fun e => e.1 / 64 != 1)
    pba := s1.pba.filter (fun e => e.1 != 1) } : Dev).tagChecks

/-! ### Ledger folds (R326, R331) -/

/-- The bitmap word of an entry. -/
def Dev.foldAddr (s : Dev) (e : LedEnt) : Nat :=
  (if e.sel then s.f F.LEDGER_BITMAP_B e.ctx else s.f F.LEDGER_BITMAP_A e.ctx) * 4096 + 8 * e.word

/-- LEDGER_SYNCs of a context see its flushes and flags anew. -/
def Dev.syncsRun (s : Dev) (c : Nat) : Dev :=
  (s.rings.filterMap (fun e => if e.2.prog.any (fun d => d.sync == some c) then some (s.stallPorter (e.1 / 8)) else none)).dedup.foldl
    Dev.run s

/-- A fold fails: FAULT of its context, and the entry is kept (R331). -/
def Dev.foldFail (s : Dev) (h : Nat) (e : LedEnt) : Dev :=
  let q := s.ledger.queue.look [] h
  let q' := if q.any (fun x => x.same e) then mergeInto q e else e :: q
  ({ s.ledgerFault e.ctx with ledger := { s.ledger with queue := s.ledger.queue.put [] h q' } } : Dev).syncsRun e.ctx

/-- The home half issues the read of its next fold (R326). -/
def Dev.foldStart (s : Dev) (h : Nat) : Dev :=
  let q := s.ledger.queue.look [] h
  let f := s.ledger.folds.look [] h
  match q.find? (fun e => !s.b F.LEDGER_CMD_FAULT e.ctx) with
  | none => s
  | some e =>
    if 64 ≤ f.length ∨ s.ledgerSafe h = true ∨ s.bme .mgmtPf = false then s
    else
      let t : Tlp := { kind := .mrd, addr := BitVec.ofNat 64 (s.foldAddr e), len := 8, hdr := memHdr (s.foldAddr e) }
      let s1 : Dev := { s with ledger := { s.ledger with queue := s.ledger.queue.put [] h (q.erase e) } }
      match s1.mgmtRequest t with
      | (s2, true) => { s2 with ledger := { s2.ledger with folds := s2.ledger.folds.put [] h (f ++ [e]) } }
      | (s2, false) => s2.foldFail h e

/-- The oldest fold read of a half returns (R324, R326, R331). With Bus Master Enable clear the fold waits, and begins anew (R404). -/
def Dev.foldRead (s : Dev) (h : Nat) (ok : Bool) (data : BitVec 64) (writeOk : Bool) : Dev :=
  match s.ledger.folds.look [] h with
  | [] => s
  | e :: rest =>
    let s1 : Dev := { s with ledger := { s.ledger with folds := s.ledger.folds.put [] h rest } }
    if !ok || !writeOk || s.b F.LEDGER_CMD_FAULT e.ctx then s1.foldFail h e
    else if !s.bme .mgmtPf then
      { s1 with ledger := { s1.ledger with queue := s1.ledger.queue.put [] h (e :: s1.ledger.queue.look [] h) } }
    else match s1.mgmtRequest (mgmtWrite (s.foldAddr e) (leBytes (data ||| e.mask).toNat 8)) with
      | (s2, true) => s2
      | (s2, false) => s2.foldFail h e

/-- Tokens of every bucket that has a rate raised at a TCLK edge (R182, R311). -/
def Dev.refill (s : Dev) : Dev :=
  let port (s : Dev) (p q : Nat) : Dev :=
    let x := s.sched p
    if s.rate p q = 0 then s
    else s.setSched p { x with tok := x.tok.put 65536000 q (min (x.tokens q + s.rate p q) (1000 * s.burst p q : Nat)) }
  let one (s : Dev) (e : RegId × Word) : Dev :=
    match e.1.kind with
    | .pschQShape => port s e.1.i e.1.j
    | .pschPortShape => port s e.1.i 8
    | .stallShare =>
      let x := s.stallSt e.1.i
      if s.stallRate e.1.i = 0 then s
      else
        let top : Int := (min (s.f F.STALL_SHARE_BURST e.1.i) 1048576 * 1000 : Nat)
        (s.setStall e.1.i { x with tokens := min (x.tokens + s.stallRate e.1.i) top }).run (s.stallPorter e.1.i)
    | _ => s
  s.regs.foldl one s

end Sys2Proof.Machine
end

