-- ==== Sys2Proof/Machine/PortOps.lean ====
section
/-! DEFINITION. Ports and partitions (R74-R80, R87-R89, R107, R108, R347, R450): how a link goes down, the resets of partitions and of
functions, and the writes of PORT_CTL, PART_CTL, SVC_CTL, SLOT_CFG and SB_CTL. -/

namespace Sys2Proof.Machine

/-! ### A link goes down (R24, R76, R80, R101, R207, R347) -/

/-- Margining of every lane of a port ends as its link leaves L0 (PCI Express Base 7.0). -/
def Dev.marginEnd (s : Dev) (p : Nat) : Dev :=
  (s.lanesOf p).foldl (fun s m =>
    let x := s.lane (p / 16) m
    if x.margin then s.setLane (p / 16) m { x with margin := false } else s) s

/-- The USP of partition `q` reports the smallest latency tolerance received on any DSP of it, where that has changed (R87). DSPs on other
members are not heard of (log 119). -/
def Dev.ltrReport (s : Dev) (q : Nat) : Dev :=
  match s.uspFn q with
  | some (.port u) =>
    let l := (s.dspsOf q).filterMap (fun p => (s.link p).ltr)
    match l with
    | [] => s
    | a :: t =>
      let v := t.foldl (fun (x : Nat × Nat) (b : BitVec 32) => (ltrLess x.1 (b.toNat % 65536), ltrLess x.2 (b.toNat / 65536)))
        (a.toNat % 65536, a.toNat / 65536)
      let w := BitVec.ofNat 32 (v.1 + 65536 * v.2)
      if s.cfBit (portFn u) 0x78 10 && (s.link u).ltr != some w then
        (s.setLink u { s.link u with ltr := some w }).emit (.link u (.ltr w))
      else s
  | _ => s

/-- An LTR message at DSP `p` (R87), where LTR is enabled. -/
def Dev.ltrIn (s : Dev) (p : Nat) (v : BitVec 32) : Dev :=
  if s.cfBit (portFn p) 0x78 10 then (s.setLink p { s.link p with ltr := some v }).ltrReport (s.f F.PORT_CTL_PART p) else s

/-- The link of a USP or DSP is gone: LTSSM `lt`, purge under a new generation, Data Link Layer State Changed (R24, R100, R159). -/
def Dev.linkGone (s0 : Dev) (p lt : Nat) : Dev :=
  let s := s0.closeOpened p
  let was := s.b F.PORT_STATUS_DL_ACTIVE p
  let s1 := (((s.marginEnd p).lanesIdle p).setF F.PORT_STATUS_LTSSM lt p).setB F.PORT_STATUS_DL_ACTIVE false p
  let s2 := ((s1.spareEndOf p).newGen p (s1.purgeStatus p)).lockEnd p
  let s3 := if (s2.link p).ltr.isSome then (s2.setLink p { s2.link p with ltr := none }).ltrReport (s.f F.PORT_CTL_PART p) else s2
  if was && s.hasSlot p then s3.slotEvent p 8 else s3

/-- The link of a fabric port is gone (R197, R207): a failure where it was in use, and a FAILED port trains anew; one in FAILOVER does so once
its move is complete. -/
def Dev.fabricGone (s : Dev) (p : Nat) : Dev :=
  let s1 := (((s.marginEnd p).lanesIdle p).setF F.PORT_STATUS_LTSSM 0 p).spareEndOf p
  if s.nstate p = 7 then (s1.setB F.PORT_STATUS_DL_ACTIVE false p).toState p 1
  else if 2 ≤ s.nstate p ∧ s.nstate p ≤ 5 then s1.linkFail p
  else s1.setB F.PORT_STATUS_DL_ACTIVE false p

/-- Port `p` in L1; `pm` says that D3hot brought it there (R87). -/
def Dev.enterL1 (s : Dev) (p : Nat) (pm : Bool) : Dev :=
  (s.setLink p { s.link p with pmL1 := pm, sub := 0 }).setF F.PORT_STATUS_LTSSM 6 p

/-- The partner's answer to a request of the device is not among the commands: a free value (log 28). -/
def Dev.partnerAccepts (s : Dev) : Bool := s.freeVal.getLsbD 0

/-- A USP whose function enters D3hot asks for PCI-PM L1 (R87). -/
def Dev.pmL1Request (s : Dev) (p : Nat) : Dev :=
  let lt := s.f F.PORT_STATUS_LTSSM p
  if (lt == 3 || lt == 5) && s.b F.PORT_STATUS_DL_ACTIVE p then
    let s1 := (s.emit (.link p .l1Request)).useFree
    if s.partnerAccepts then (s1.marginEnd p).enterL1 p true else s1
  else s

/-! ### Resets below the device's own (R80, R318, R450) -/

/-- A function's configuration space at its default values; Slot Control and Slot Status keep theirs (R80, R99). Nothing that the old values
set holds the port's link any more: Link Disable, Secondary Bus Reset, containment. -/
def Dev.cfgDefault (s : Dev) (f : Fn) : Dev :=
  let s1 : Dev := { s with cfg := s.cfg.filter (fun e => e.1.fn != f || e.1.dw == slotCtlOff / 4) }
  match f with
  | .port p => s1.setLink p { s1.link p with disable := false, hotReset := false, dpc := false }
  | _ => s1

/-- The reset that an FLR gives the management PF: its configuration space and its MSI-X table. -/
def Dev.mgmtFlr (s : Dev) : Dev :=
  let s1 := s.cfgDefault .mgmtPf
  { s1 with msix := s1.msix.filter (fun e => e.1 / 64 != 0), pba := s1.pba.filter (fun e => e.1 != 0) }

/-- The service functions of partition `q` reset as by an FLR (R80). -/
def Dev.serviceFlr (s : Dev) (q : Nat) : Dev :=
  let s1 := if s.b F.SVC_CTL_MGMT_EN && s.f F.SVC_CTL_MGMT_PART == q then s.mgmtFlr.cfgDefault (.svc 254) else s
  if s.b F.SVC_CTL_PORTER_EN && s.f F.SVC_CTL_PORTER_PART == q then s1.porterFlr.cfgDefault (.svc 255) else s1

/-- The configuration dwords of a bridge that enter the committed sets (R121). -/
def routingDwords : List Nat := [0x04, 0x18, 0x1C, 0x20, 0x24, 0x28, 0x2C]

/-- The bridges of partition `q` whose registers this device keeps. -/
def Dev.bridgesOf (s : Dev) (q : Nat) : List (BridgeFn × Fn) :=
  ((s.uspBridge q).map (fun f => (BridgeFn.usp, f))).toList
    ++ (List.range 256).filterMap (fun v => (s.bridgeOf q v).map (fun f => (BridgeFn.dsp (Fin.ofNat 256 v), f)))

/-- The sets follow the bridges of partition `q` as they stand (R121, R122): rebuilt and committed; in a Hall an EDIT of every routing dword
goes to the master (DESIGN CHOICE, log 115). -/
def Dev.reroute (s : Dev) (q : Nat) : Dev :=
  if s.b F.HALL_CTL_EN && (s.hall.asked || s.current) then
    ((s.bridgesOf q).flatMap (fun x => routingDwords.map (fun off => (x, off)))).foldl (fun s (x, off) =>
      let (s1, tag) := s.takeTag
      s1.sendEdit q x.1 off 0xF (s1.cf x.2 off) tag) s
  else (s.rebuild q).commitReq

/-- The bus number that the USP of partition `q` captures (R78), which enters the committed sets. -/
def Dev.captureBus (s : Dev) (q bus : Nat) : Dev :=
  if s.fwd.captured.look 0 q = bus then s
  else
    let s1 : Dev := { s with fwd := { s.fwd with captured := s.fwd.captured.put 0 q bus } }
    if s.b F.HALL_CTL_EN && (s.hall.asked || s.current) then
      let (s2, tag) := s1.takeTag
      s2.sendEdit q .usp capturedOff 1 (BitVec.ofNat 32 bus) tag
    else (s1.rebuild q).commitReq

/-- A partition reset (R80); `own` says that it comes from DL_Down or Hot Reset, which reach the USP's function too. The copies of bridges
whose ports are on other members return to their defaults; their links follow what their own members are told (log 119). -/
def Dev.partReset (s : Dev) (q : Nat) (own : Bool) : Dev :=
  let s1 := (s.dspsOf q).foldl (fun s p =>
    (((s.emit (.link p (.hotReset true))).linkGone p 0).emit (.link p (.hotReset false))).cfgDefault (portFn p)) s
  let s2 : Dev := { s1.serviceFlr q with cfg := (s1.serviceFlr q).cfg.filter (fun e => match e.1.fn with
    | .remote r v => decide (r ≠ q ∨ v = 256)
    | _ => true) }
  match own, s2.uspFn q with
  | true, some f => ((s2.cfgDefault f).reroute q).captureBus q 0
  | _, _ => s2.reroute q

/-- DL_Down of a port (R24, R80, R101). A link that was training is in Detect again. -/
def Dev.linkDown (s : Dev) (p : Nat) : Dev :=
  if s.b F.PORT_STATUS_DL_ACTIVE p then
    match s.role p with
    | 0 =>
      if s.hasSlot p && s.slotState p == 3 then ((s.marginEnd p).lanesIdle p).spareEndOf p |>.lockEnd p |>.surpriseDown p false
      else if s.hasSlot p then s.linkGone p 0
      else (s.linkGone p 0).aerU (portFn p) AER.surpriseDown
    | 1 => (s.linkGone p 0).partReset (s.f F.PORT_CTL_PART p) true
    | _ => s.fabricGone p
  else if s.role p = 2 ∧ 6 ≤ s.nstate p then s.fabricGone p
  else if 0 < s.f F.PORT_STATUS_LTSSM p ∧ s.f F.PORT_STATUS_LTSSM p < 8 then ((s.marginEnd p).lanesIdle p).setF F.PORT_STATUS_LTSSM 0 p
  else s

/-- The link partner's credits at initialization, on VC0: 0 of a dedicated kind is infinite (PCI Express Base 7.0). -/
def Dev.initCredits (s : Dev) (p : Nat) (cr : List Nat) : Dev :=
  let l := s.link p
  let n := if s.b F.PORT_STATUS_FLIT p then 8 else 6
  let kinds := List.range n
  s.setLink p { l with
    cr := kinds.foldl (fun t k => Tbl.put 0 t k (cr.getD k 0)) []
    inf := kinds.filter (fun k => decide (k < 6) && cr.getD k 0 == 0) }

/-- A PCIe link comes up (R40, R153, R155): PORT_STATUS, credits both ways, Data Link Layer State Changed. -/
def Dev.pcieUp (s : Dev) (p w rate : Nat) (flit : Bool) (cr : List Nat) : Dev :=
  let s1 := (((s.portUp p w rate flit).initCredits p cr).cover p).advertiseAll p
  if s1.hasSlot p then s1.slotEvent p 8 else s1

/-- A rate goes with a mode: 64 and 128 GT/s are Flit mode (R41). -/
def flitOk (rate : Nat) (flit : Bool) : Bool := decide (rate < 5) || flit

/-- Recovery entered (R68): a change of rate, to `rate`, ends a substitution and starts equalization at that rate. -/
def Dev.recover (s : Dev) (p : Nat) (rate : Option Nat) : Dev :=
  let s1 := (s.marginEnd p).setF F.PORT_STATUS_LTSSM 4 p
  match rate with
  | some n => (s1.spareEndOf p).eqStart p n
  | none => s1.spareRecovery p

/-! ### Acknowledgement and replay on a PCIe link (R136, R343) -/

/-- An Ack or Nak of sequence number `a` takes the TLPs up to it out of the replay buffer. One that names no TLP in flight is a Data
Link Protocol Error, and the link goes down (R343). -/
def Dev.ackTo (s : Dev) (p a : Nat) : Except Unit Dev :=
  let l := s.link p
  let d (q : Nat) : Nat := (q + 4096 - a) % 4096
  let stay := l.replay.filter (fun x => decide (0 < d x.seq ∧ d x.seq < 2048))
  let gone := l.replay.filter (fun x => !decide (0 < d x.seq ∧ d x.seq < 2048))
  if (a + 1) % 4096 = (l.nextSeq + 4096 - stay.length) % 4096 then
    .ok (s.setLink p { l with replay := stay, replayNum := if gone.isEmpty then l.replayNum else 0 })
  else .error ()

/-- A replay (R343): counted, save during a switchover (R67); the fourth without progress rolls REPLAY_NUM over, and the link is
retrained. A word of the replay buffer with an uncorrectable error is met: the port leaves L0 for Detect (R342). -/
def Dev.pcieReplay (s : Dev) (p : Nat) : Dev :=
  match s.badReplay p with
  | some w => (s.purgeReplayed p w).linkDown p
  | none =>
  let l := s.link p
  let s1 := s.emit (.link p .replay)
  if s.switching p then s1
  else if 4 ≤ l.replayNum + 1 then
    (((s1.setLink p { l with replayNum := 0 }).aerC (portFn p) AER.replayRollover).setF F.PORT_STATUS_LTSSM 4 p).emit
      (.link p .retrain)
  else s1.setLink p { l with replayNum := l.replayNum + 1 }

/-! ### Register writes -/

/-- Another enabled DSP of partition `q` on this device has virtual number `v`. -/
def Dev.vnumTaken (s : Dev) (p q v : Nat) : Bool := (s.dspsOf q).any (fun x => x != p && s.f F.PORT_CTL_VNUM x == v)

/-- The partition has a port on another member (R215): its USP, or a DSP that the map names. -/
def Dev.spansMembers (s : Dev) (q : Nat) : Bool :=
  s.b F.HALL_CTL_EN && (s.f F.PART_CTL_USP_MEMBER q != s.me
    || (List.range 256).any (fun v => getBits (s.vdsp q v) 0 1 == 1 && getBits (s.vdsp q v) 1 4 != s.me))

/-- A write that sets EN is refused (R75, R215). -/
def Dev.enableRefused (s : Dev) (p role q v : Nat) : Bool :=
  role == 3 || (role == 2 && decide (s.portWidth p < 4))
    || (role == 1 && !(s.f F.PART_CTL_USP_MEMBER q == s.me && s.f F.PART_CTL_USP_PORT q == p))
    || (role == 0 && (!s.b F.PART_CTL_EN q || decide (253 < v) || s.vnumTaken p q v))
    || (role == 2 && !s.b F.HALL_CTL_EN)
    || (decide (role < 2) && !s.current && s.spansMembers q)

/-- A port is enabled (R75, R153, R196): its reservations are claimed and it may train; a failover under way goes on (R208). -/
def Dev.portOn (s : Dev) (p : Nat) : Dev :=
  let s1 := (s.cover p).setF F.PORT_STATUS_LTSSM 0 p
  let s2 := if s.role p = 2 then
      (let s0 := (s1.setF F.NERUP_STATUS_TRAIN_TRIES 0 p).ctlClear p
       if s0.nstate p = 6 then s0 else (s0.setNerup p {}).toState p 1)
    else s1
  s2.trainNow p

/-- A port without a link stands in Disabled, with no pool. -/
def Dev.portHalt (s : Dev) (p : Nat) : Dev :=
  let s1 := ((s.setF F.PORT_STATUS_LTSSM 8 p).unclaim p).emit (.link p .disabled)
  s1.setLink p { s1.link p with disable := false, hotReset := false }

/-- A port stops (R76): LTSSM Disabled, new generation and purge; a USP whose link was up reaches DL_Down by it (R80). The link of a fabric port
in use fails instead, and its TLPs move (R24, R197, R207 item 6). -/
def Dev.portStop (s : Dev) (p : Nat) : Dev :=
  let s1 :=
    if s.role p = 2 then
      (let s0 := ((s.marginEnd p).setB F.PORT_STATUS_DL_ACTIVE false p).spareEndOf p
       if 2 ≤ s.nstate p ∧ s.nstate p ≤ 6 then (s0.linkFail p).ctlClear p else ((s0.newGen p .ur).ctlClear p).toState p 0)
    else s.linkGone p 8
  let s3 := s1.portHalt p
  if s.role p = 1 ∧ s.b F.PORT_STATUS_DL_ACTIVE p = true then s3.partReset (s.f F.PORT_CTL_PART p) true else s3

/-- A port is disabled (R76, R105, R106): it stops, and a slot that has power is turned off. A power-on that waits is given up, and its Command
Completed set (R99). -/
def Dev.portOff (s : Dev) (p : Nat) : Dev :=
  if s.hasSlot p && (s.slotState p == 2 || s.slotState p == 3 || s.slotState p == 4) then
    ((s.portStop p).slotPowerOff p).cmdDone p (s.slot p).gateWait
  else s.portStop p

/-- A write of PORT_CTL (R75, R76). -/
def Dev.wrPortCtl (s : Dev) (p : Nat) (v : Word) : Dev :=
  let old := s.reg .portCtl p
  let was := getBits old 0 1 == 1
  let on := getBits v 0 1 == 1
  let moved := decide (getBits old 1 17 ≠ getBits v 1 17)
  if (moved && (was || on)) || (on && !was && s.enableRefused p (getBits v 1 2) (getBits v 3 7) (getBits v 10 8)) then
    s.setB F.PORT_CTL_PORT_CFG_ERR true p
  else
    let err := getBits old 22 1 == 1 && getBits v 22 1 == 0
    let word := (v &&& 0x3FFFFF) ||| (if err then 0x400000 else 0)
    if was && !on then (s.portOff p).setReg .portCtl word p
    else
      let s1 := s.setReg .portCtl word p
      if on && !was then s1.portOn p else s1

/-- A write of PART_CTL (R77, R80). -/
def Dev.wrPartCtl (s : Dev) (q : Nat) (v : Word) : Dev :=
  let old := s.reg .partCtl q
  let was := getBits old 0 1 == 1
  let on := getBits v 0 1 == 1
  let keep : Word := 0x3FF7FFC
  let moved := decide (old &&& keep ≠ v &&& keep)
  let names := s.enabledPorts.any (fun p => decide (s.role p < 2) && s.f F.PORT_CTL_PART p == q)
  let taken := s.enabledParts.any (fun r => r != q && s.hallPart r == getBits v 16 10)
  if (moved && was) || (was && !on && names) || (on && !was && taken) then s.setB F.PART_CTL_PART_CFG_ERR true q
  else
    let err := getBits old 15 1 == 1 && getBits v 15 1 == 0
    let s1 := s.setReg .partCtl ((v &&& 0x3FF7FFD) ||| (if err then 0x8000 else 0)) q
    if getBits v 1 1 = 1 then s1.partReset q false else s1

/-- Every partition that a service function is placed in, before or after a write, is disabled (R108). -/
def Dev.partsOff (s : Dev) (l : List (Bool × Nat)) : Bool := l.all (fun x => !x.1 || !s.b F.PART_CTL_EN x.2)

/-- A write of SVC_CTL (R108). The Porter core ports are ingresses that PORTER_EN enables: they claim or release their reservations
(R153), and a Porter in service without 14-bit tags says so at once (R271). -/
def Dev.wrSvcCtl (s : Dev) (v : Word) : Dev :=
  let old := s.reg .svcCtl
  let place (w : Word) (lo : Nat) : Bool × Nat := (getBits w lo 1 == 1, getBits w (lo + 1) 7)
  let m := decide (getBits old 0 8 ≠ getBits v 0 8)
  let x := decide (getBits old 8 8 ≠ getBits v 8 8)
  let bound := s.regs.any (fun e => e.1.kind == .stallBind && getBits e.2 0 64 != 0 && s.b F.STALL_BIND_BOUND e.1.i)
  if (m && !s.partsOff [place old 0, place v 0]) || (x && (!s.partsOff [place old 8, place v 8] || bound)) then
    s.setB F.SVC_CTL_SVC_CFG_ERR true
  else
    let err := getBits old 16 1 == 1 && getBits v 16 1 == 0
    let s1 := s.setReg .svcCtl ((v &&& 0xFFFF) ||| (if err then 0x10000 else 0))
    let cores := (List.range 64).map (512 + ·)
    if getBits old 8 1 = getBits v 8 1 then s1
    else if getBits v 8 1 = 1 then (cores.foldl Dev.cover s1).tagChecks
    else cores.foldl Dev.unclaim s1

/-- Port `p` lies in the Rows that its half's chain covers. -/
def Dev.sbCovers (s : Dev) (p : Nat) : Bool := decide (p % 256 / 16 < s.sbRows (p / 256))

/-- A write of SLOT_CFG (R107). Taking the slot away leaves it EMPTY. A write that leaves SLOT_EN at 1 on a port whose ROLE has since become
another is stored: only raising the bit counts as setting it (DESIGN CHOICE, log 122). -/
def Dev.wrSlotCfg (s : Dev) (p : Nat) (v : Word) : Dev :=
  let on := getBits v 0 1 == 1
  if s.b F.PORT_CTL_EN p || (on && !s.slotEn p && (s.role p != 0 || !s.sbCovers p)) then
    s.setB F.PORT_CTL_PORT_CFG_ERR true p
  else
    let s1 := s.setReg .slotCfg (v &&& 0x3FF1FFFFFFF) p
    if on == s.slotEn p then s1 else (if s.slotEn p then s.slotGone p else s1.slotGone p).setReg .slotCfg (v &&& 0x3FF1FFFFFFF) p

/-- A write of SB_CTL (R97). A chain that is stopped starts with nothing shifted (R95). -/
def Dev.wrSbCtl (s : Dev) (h : Nat) (v : Word) : Dev :=
  let old := s.reg .sbCtl h
  let moved := decide (getBits old 0 14 ≠ getBits v 0 14)
  let slots := (List.range 256).any (fun k => s.slotEn (256 * h + k))
  if moved && slots then s.setB F.SB_CTL_SB_CFG_ERR true h
  else
    let keep := old &&& ~~~(v &&& 0xC000) &&& 0xC000
    let s1 := s.setReg .sbCtl ((v &&& 0x3FFF) ||| keep) h
    if getBits old 0 1 = getBits v 0 1 then s1 else s1.setChain h {}

/-! ### Containment (R347) -/

/-- DPC Trigger Enable as it acts: 0b11 acts as 0b10. -/
def Dev.dpcTrigger (s : Dev) (p : Nat) : Nat := min (s.cfNum (portFn p) 0x2F4 16 2) 2

/-- A trigger of containment is armed: ERR_FATAL at 0b01 and 0b10, ERR_NONFATAL at 0b10, an uncorrectable error of the DSP by either,
the software trigger where enabled. -/
def Dev.dpcArmed (s : Dev) (p : Nat) (c : DpcCause) : Bool :=
  match c with
  | .uncorrectable | .errFatal | .software => decide (1 ≤ s.dpcTrigger p)
  | .errNonFatal => s.dpcTrigger p == 2

/-- DPC Trigger Reason of DPC Status (PCI Express Base 7.0): 0 unmasked uncorrectable, 1 ERR_NONFATAL, 2 ERR_FATAL, 3 extension. -/
def dpcReason : DpcCause → Nat
  | .uncorrectable => 0
  | .errNonFatal => 1
  | .errFatal => 2
  | .software => 3

/-- Containment begins (R347): the status, the link in Disabled, GEN and the purge, and the interrupt where it is enabled. The safe state of its Row
has purged already, and the link is in Disabled (R352). -/
def Dev.contain (s : Dev) (p : Nat) (c : DpcCause) : Dev :=
  let f := portFn p
  let ext := if c = .software then 0x20 else 0
  let st := (s.cf f 0x2F8 &&& 0xFFFFFF90) ||| BitVec.ofNat 32 (1 + 2 * dpcReason c + ext + 8)
  let s1 := (s.setCf f 0x2F8 st).setLink p { s.link p with dpc := true }
  let s2 := if s.safe (p / 16) then s1 else (s1.linkGone p 8).emit (.link p .disabled)
  if s2.cfBit f 0x2F4 19 then s2.sendMsi p else s2

/-- A port that nothing of its function keeps down any more is in Detect, if it is enabled: the safe state of its Row keeps it in Disabled (R338,
R352). -/
def Dev.linkFree (s : Dev) (p : Nat) : Dev :=
  if s.b F.PORT_CTL_EN p && !s.safe (p / 16) then (s.setF F.PORT_STATUS_LTSSM 0 p).trainNow p else s

/-- DPC Trigger Status cleared (R347): the link may train. -/
def Dev.uncontain (s : Dev) (p : Nat) : Dev :=
  let s1 := s.setCfBits (portFn p) 0x2F8 1 false
  (s1.setLink p { s1.link p with dpc := false }).linkFree p

/-! ### Secondary Bus Reset (R450) and Link Disable -/

/-- Secondary Bus Reset of a DSP that has a link, set or cleared. A link that is up goes down with it. -/
def Dev.linkHotReset (s : Dev) (p : Nat) (set : Bool) : Dev :=
  let l := s.link p
  if l.hotReset = set then s
  else if set then
    let s1 := (s.setLink p { l with hotReset := true }).emit (.link p (.hotReset true))
    if s.b F.PORT_STATUS_DL_ACTIVE p then s1.linkGone p 10 else s1
  else ((s.setLink p { l with hotReset := false }).emit (.link p (.hotReset false))).linkFree p

/-- Link Disable of a DSP set or cleared (PCI Express Base 7.0). -/
def Dev.linkDisable (s : Dev) (p : Nat) (set : Bool) : Dev :=
  let l := s.link p
  if l.disable = set then s
  else if set then
    let s1 := s.setLink p { l with disable := true }
    (if s.b F.PORT_STATUS_DL_ACTIVE p then s1.linkGone p 8 else s1.setF F.PORT_STATUS_LTSSM 8 p).emit (.link p .disabled)
  else (s.setLink p { l with disable := false }).linkFree p

/-- Secondary Bus Reset of a bridge of partition `q`, set or cleared (R80, R450). The bit is that of Bridge Control; of a bridge on another
member it reaches no port here (log 119). -/
def Dev.sbr (s : Dev) (q : Nat) (f : BridgeFn) (set : Bool) : Dev :=
  match f with
  | .usp => match s.uspFn q with
    | some u =>
      let was := s.cfBit u 0x3C 22
      let s1 := s.setCfBits u 0x3C 0x400000 set
      if set && !was then s1.partReset q false else s1
    | none => s
  | .dsp v => match s.bridgeOf q v with
    | some (.port p) => (s.setCfBits (portFn p) 0x3C 0x400000 set).linkHotReset p set
    | some (.remote r w) => s.setCfBits (.remote r w) 0x3C 0x400000 set
    | some g =>
      let was := s.cfBit g 0x3C 22
      let s1 := s.setCfBits g 0x3C 0x400000 set
      if set && !was then (if v = 255 then s1.porterFlr else s1.mgmtFlr) else s1
    | none => s

end Sys2Proof.Machine
end

