-- ==== Sys2Proof/Machine/CfgOps.lean ====
section
/-! DEFINITION. Configuration space (R77-R83, R98, R219): what each function's dwords read, which bits software may write, and
what a write does. Bit places that the manual leaves to PCI Express Base 7.0 are PRESUMED (log 13). -/

namespace Sys2Proof.Machine

/-- Function type: 0 USP, 1 DSP, 2 management PF, 3 Porter PF, 4 Stall. -/
def Dev.ftype (s : Dev) (f : Fn) : Nat :=
  match f with
  | .port p => if s.role p = 1 then 0 else 1
  | .svc _ => 1
  | .remote _ v => if v = 256 then 0 else 1
  | .mgmtPf => 2
  | .porterPf => 3
  | .stall _ => 4

/-- The local partition of a function. -/
def Dev.fnPart (s : Dev) (f : Fn) : Nat :=
  match f with
  | .port p => s.f F.PORT_CTL_PART p
  | .svc v => if v = 254 then s.f F.SVC_CTL_MGMT_PART else s.f F.SVC_CTL_PORTER_PART
  | .remote q _ => q
  | .mgmtPf => s.f F.SVC_CTL_MGMT_PART
  | .porterPf | .stall _ => s.f F.SVC_CTL_PORTER_PART

/-- The function is there to be configured (R76, R77, R79). -/
def Dev.fnExists (s : Dev) (f : Fn) : Bool :=
  match f with
  | .port p => s.b F.PORT_CTL_EN p && decide (s.role p < 2)
  | .svc v => if v = 254 then s.b F.SVC_CTL_MGMT_EN else s.b F.SVC_CTL_PORTER_EN
  | .remote _ _ => s.b F.HALL_CTL_EN
  | .mgmtPf => s.b F.SVC_CTL_MGMT_EN
  | .porterPf => s.b F.SVC_CTL_PORTER_EN
  | .stall n => s.b F.SVC_CTL_PORTER_EN && decide (n < s.vfCount)

/-! ### Read-only values -/

/-- The first 256 bytes' capabilities of a function type: offset and ID (R82). -/
def capList (ty : Nat) : List (Nat × Nat) :=
  match ty with
  | 0 => [(0x40, 0x01), (0x50, 0x10), (0x90, 0x0D)]
  | 1 => [(0x40, 0x01), (0x50, 0x10), (0x90, 0x0D), (0xA0, 0x05)]
  | 4 => [(0x40, 0x10), (0x80, 0x11)]
  | _ => [(0x40, 0x01), (0x50, 0x10), (0xA0, 0x11)]

/-- The extended capabilities of a bridge: offset and ID; 0 stands for an ID that is open. -/
def bridgeExt : List (Nat × Nat) :=
  [(0x100, 0x01), (0x150, 0x19), (0x180, 0x25), (0x190, 0x26), (0x1C0, 0x2A), (0x1F0, 0x31), (0x210, 0), (0x230, 0x27), (0x280, 0x1E),
    (0x290, 0x1F), (0x2A0, 0x32), (0x2D0, 0x2F)]

/-- The extended capabilities of a function type (R82). -/
def extList (ty : Nat) : List (Nat × Nat) :=
  match ty with
  | 0 => bridgeExt ++ [(0x300, 0x23)]
  | 1 => bridgeExt ++ [(0x2E0, 0x0D), (0x2F0, 0x1D), (0x300, 0x23)]
  | 2 => [(0x100, 0x01), (0x150, 0x2F), (0x300, 0x23)]
  | 3 => [(0x100, 0x01), (0x150, 0x0E), (0x160, 0x10), (0x1A0, 0x0F), (0x1B0, 0x13), (0x1C0, 0x1B), (0x1D0, 0x2F), (0x300, 0x23)]
  | _ => [(0x100, 0x0F)]

/-- The offset of the capability after `off`, 0 after the last (R82). -/
def nextCap (l : List (Nat × Nat)) (off : Nat) : Nat := ((l.find? (fun c => decide (off < c.1))).map Prod.fst).getD 0

/-- Identity of R81: Device ID and Vendor ID; Class code and Revision ID. -/
def idWords (ty : Nat) : BitVec 32 × BitVec 32 :=
  match ty with
  | 0 => (0x51201F6A, 0x06040010)
  | 1 => (0x51211F6A, 0x06040010)
  | 2 => (0x51221F6A, 0x05800010)
  | 3 => (0x51231F6A, 0x08800010)
  | _ => (0xFFFFFFFF, 0x08800010)

/-- The virtual number of a DSP. -/
def Dev.vnumOf (s : Dev) (f : Fn) : Nat :=
  match f with
  | .port p => s.f F.PORT_CTL_VNUM p
  | .svc v | .remote _ v => v
  | _ => 0

/-- Header type (R81): multi-function on function 0 of a device with other functions. -/
def Dev.headerType (s : Dev) (f : Fn) : Nat :=
  if 2 ≤ s.ftype f then 0
  else
    let v := s.vnumOf f
    let q := s.fnPart f
    if s.ftype f = 1 ∧ v % 8 = 0 ∧ (List.range 7).any (fun k => (s.bridgeOf q (v + 1 + k)).isSome) = true then 0x81 else 1

/-- The port that stands for a function in the DVSEC (R83): its own, for a bridge on another member that of the map, or for a PF the USP of
its partition. A service DSP, which has no port, shows its partition's USP_PORT (DESIGN CHOICE, log 120). -/
def Dev.dvsecPort (s : Dev) (f : Fn) : Nat :=
  match f with
  | .port p => p
  | .remote q v => if v = 256 then s.f F.PART_CTL_USP_PORT q else getBits (s.vdsp q v) 5 10 % 512
  | _ => s.f F.PART_CTL_USP_PORT (s.fnPart f)

/-- The member of a function's port in the DVSEC (R83). -/
def Dev.dvsecMember (s : Dev) (f : Fn) : Nat :=
  match f with
  | .remote q v => if v = 256 then s.f F.PART_CTL_USP_MEMBER q else getBits (s.vdsp q v) 1 4
  | _ => s.me

/-- Link Capabilities (R82): speed, width, ASPM L0s and L1, exit latencies (R88), port number. A service DSP, which has no
link, reads as x1; rate and width of a port on another member are not known here, and free (log 119). -/
def Dev.linkCap (s : Dev) (f : Fn) : Nat :=
  match f with
  | .port p =>
    let dsp := s.ftype f == 1
    (min (s.f F.PORT_CTL_MAX_RATE p) 6 + 1) + 16 * s.portWidth p + 0xC00 + 0x3000 + 0x10000 + (if dsp then 0x180000 else 0)
      + 2 ^ 24 * (p % 256)
  | .remote _ _ => (Config.cfgWord (s.ftype f) 0x5C).toNat % 1024 + 0x13C00 + (if s.ftype f = 1 then 0x180000 else 0)
      + 2 ^ 24 * (s.dvsecPort f % 256)
  | _ => 0x11 + 0xC00 + (if s.ftype f = 1 then 0x100000 else 0)

/-- Link Status (R79): speed, width, Data Link Layer Link Active of a DSP; that of a port on another member is free (log 119). -/
def Dev.linkSta (s : Dev) (f : Fn) : Nat :=
  match f with
  | .port p =>
    (s.f F.PORT_STATUS_RATE p + 1) + 16 * s.f F.PORT_STATUS_WIDTH p
      + (if s.f F.PORT_STATUS_LTSSM p = 4 then 0x800 else 0) + (if s.ftype f = 1 ∧ s.b F.PORT_STATUS_DL_ACTIVE p = true then 0x2000 else 0)
  | .remote _ _ => (Config.cfgWord (s.ftype f) 0x60).toNat / 65536
  | _ => 0x11 + (if s.ftype f = 1 then 0x2000 else 0)

/-- The function is a DSP with a slot. Of a DSP on another member this member does not know the slot: its copy shows none (DESIGN CHOICE,
log 119). -/
def Dev.fnSlot (s : Dev) (f : Fn) : Bool :=
  match f with
  | .port p => s.hasSlot p
  | _ => false

/-- Slot Capabilities (R98). -/
def Dev.slotCap (s : Dev) (f : Fn) : Nat :=
  match f with
  | .port p => if s.hasSlot p then
      s.f F.SLOT_CFG_BTN p + 2 + 4 * s.f F.SLOT_CFG_MRL p + 0x18 + 0x20 * s.f F.SLOT_CFG_SURPRISE p + 0x40
        + 0x80 * s.f F.SLOT_CFG_SPLV p + 0x8000 * s.f F.SLOT_CFG_SPLS p + 0x80000 * s.f F.SLOT_CFG_PSN p
    else 0
  | _ => 0

/-- A dword of the PCI Express capability, `k` bytes into it (R82, R98, R274): read-only bits. -/
def Dev.pcieRo (s : Dev) (f : Fn) (k : Nat) : Nat :=
  let ty := s.ftype f
  match k with
  | 0x04 => 0x8025 + (if 2 ≤ ty then 0x10000000 else 0)
  | 0x0C => s.linkCap f
  | 0x10 => 0x10000 * s.linkSta f
  | 0x14 => s.slotCap f
  | 0x24 => if ty = 3 then 0xF + 0x10000 else if ty = 1 then 0x20 + 0x800 else 0x800
  | 0x28 => if f = .svc 255 then 0x20 else 0
  | 0x2C => match f with
    | .port p => 2 * (2 ^ (min (s.f F.PORT_CTL_MAX_RATE p) 6 + 1) - 1)
    | .remote _ _ => (Config.cfgWord ty 0x7C).toNat
    | _ => 2
  | 0x34 => if s.fnSlot f then 1 else 0
  | _ => 0

/-- The header of the capability that starts at `off`, with what its first dword holds beside ID and next pointer. -/
def Dev.capHead (s : Dev) (f : Fn) (off id : Nat) : Nat :=
  let ty := s.ftype f
  let hi := match id with
    | 0x01 => 0x3
    | 0x10 => 2 + 16 * (if ty = 0 then 5 else if ty = 1 then 6 else 0) + (if s.fnSlot f then 0x100 else 0)
    | 0x05 => 0x180
    | 0x11 => 15
    | _ => 0
  id + 0x100 * nextCap (capList ty) off + 0x10000 * hi

/-- The header of an extended capability. The DVSEC's version is 1 (R82); the others' are those of PCI Express Base 7.0. -/
def extHead (ty off id : Nat) : BitVec 32 :=
  let next := nextCap (extList ty) off
  let base : BitVec 32 := BitVec.ofNat 32 (id + 2 ^ 20 * next)
  if off = 0x300 then base ||| 0x10000
  else base ||| (Config.cfgWord ty off &&& (if id = 0 then 0xFFFFF else 0xF0000))

/-- The DSPs of this member that a domain's holder has locked: the holder's member, and its ingress port where it is one of this member's. -/
def Dev.dspHolder (s : Dev) (d : Nat) : Option (Nat × Nat) :=
  s.links.findSome? (fun e => e.2.lockDom.bind (fun (x, i, m) =>
    if x == d then some (m, if m == s.me then i else (Config.lockPort d m).toNat) else none))

/-- The holder of a lock domain as this member knows it (R219): the master's table; elsewhere the granted sequence of one of its own ports, or the
holder that has locked one of its DSPs, whose ingress port is a free value; of other members' sequences it is not told (DESIGN CHOICE, log 116). -/
def Dev.lockHolder (s : Dev) (d : Nat) : Option (Nat × Nat) :=
  if s.isMaster then (if s.b F.LOCK_STATE_HELD d then some (s.f F.LOCK_STATE_MEMBER d, s.f F.LOCK_STATE_PORT d) else none)
  else match s.links.find? (fun e => e.2.locked && s.lockDomain (s.hallPart (s.f F.PORT_CTL_PART e.1)) == d) with
    | some e => some (s.me, e.1)
    | none => s.dspHolder d

/-- LOCK of the DVSEC (R219), without its stored bits. -/
def Dev.dvsecLock (s : Dev) (f : Fn) : Nat :=
  let d := s.lockDomain (s.hallPart (s.fnPart f))
  8 * d + (match s.lockHolder d with
    | some (m, p) => 2 + 0x80 * m + 0x800 * p
    | none => 0)

/-- A dword of the Hylvoiq DVSEC, `k` bytes into it (R83). DIE_SERIAL is that of the half in charge. -/
def Dev.dvsec (s : Dev) (f : Fn) (k : Nat) : Nat :=
  let ty := s.ftype f
  match k with
  | 0x04 => 0x1F6A + 0x10000 + 0x40 * 2 ^ 20
  | 0x08 => 1
  | 0x0C =>
    let half := match f with
      | .port p => p / 256
      | .remote _ _ => s.dvsecPort f / 256
      | _ => s.ic
    s.dvsecPort f + 0x400 * s.dvsecMember f + 0x4000 * half + 0x10000 * ty
  | 0x10 => s.fnPart f + 0x10000 * s.hallPart (s.fnPart f)
  | 0x14 => s.dvsecLock f
  | 0x18 => getBits (s.reg .dieSerial s.ic) 0 32
  | 0x1C => getBits (s.reg .dieSerial s.ic) 32 32
  | _ => 0

/-- Read-only bits of the extended capabilities that the manual states: AER (R346), ATS (R293), SR-IOV (R82), PRI (R295), L1 PM
Substates (R88), ACS (R114), 14-bit tags (R82). -/
def extRo (ty off : Nat) : Nat :=
  match ty, off with
  | 3, 0x16C => 1024 * 0x10001
  | 3, 0x174 => 0x10001
  | 3, 0x178 => 0x51240000
  | 3, 0x17C => 0x553
  | 3, 0x184 => 0x4
  | 3, 0x1A4 => 0x20
  | 3, 0x1B8 => 512
  | 3, 0x1C4 => 0x1404
  | 3, 0x1D4 => 0x6
  | 4, 0x104 => 0x20
  | 1, 0x2E4 => 0x5F
  | 0, 0x284 | 1, 0x284 => 0x1F + 0x100 * 30 + 0x10000 + 0x80000 * 4
  | _, _ => 0

/-- A dword whose read-only bits the manual leaves to PCI Express Base 7.0, but for those of `cfgKnown`. -/
def cfgOpen (ty off : Nat) : Bool :=
  decide (ty < 2) && ((decide (0x154 ≤ off) && decide (off < 0x238) && (extList ty).all (fun c => c.1 != off)) || off == 0x294
    || off == 0x2D4 || off == 0x2F4)
    || (ty == 3 && (off == 0x154 || off == 0x164)) || (ty == 2 && off == 0x154)

/-- Bits of an open dword that the manual does give, and their value: PTM requester and responder (R5), 14-bit tags of Device Capabilities 3 and
L0p (R5, R82), and of the DPC capability Interrupt Message Number 0 (R81), no Root Port extensions (R5), the software trigger (R347). -/
def cfgKnown (ty off : Nat) : BitVec 32 × BitVec 32 :=
  match ty, off with
  | 0, 0x294 | 1, 0x294 => (0x3, 0x3)
  | 0, 0x2D4 | 1, 0x2D4 => (0xE, 0xE)
  | 2, 0x154 => (0x6, 0x6)
  | 1, 0x2F4 => (0xFFF, 0x80)
  | _, _ => (0, 0)

/-- The header's read-only dwords (R81). -/
def Dev.headRo (s : Dev) (f : Fn) (off : Nat) : BitVec 32 :=
  let ty := s.ftype f
  match off with
  | 0x00 => (idWords ty).1
  | 0x04 => 0x100000
  | 0x08 => (idWords ty).2
  | 0x0C => BitVec.ofNat 32 (0x10000 * s.headerType f)
  | 0x10 => if ty = 2 ∨ ty = 3 then 4 else 0
  | 0x18 => if ty = 2 then 4 else 0
  | 0x24 => if ty < 2 then 0x10001 else 0
  | 0x2C => if ty = 2 then s.rst.subsys.truncate 32 else if 3 ≤ ty then (s.rst.subsys >>> 32).truncate 32 else 0
  | 0x34 => 0x40
  | _ => 0

/-- Where the MSI-X table and PBA lie (R81, 10_porters_rings_descriptors.md): BAR2 of the management PF, BAR0 elsewhere. -/
def msixPlace (ty k : Nat) : BitVec 32 :=
  if k = 4 then (if ty = 2 then 0x2 else 0x2000) else if k = 8 then (if ty = 2 then 0x8002 else 0x3000) else 0

/-- The read-only bits of a configuration dword. -/
def Dev.cfgRo (s : Dev) (f : Fn) (off : Nat) : BitVec 32 :=
  let ty := s.ftype f
  let pcie := if ty = 4 then 0x40 else 0x50
  let mx := if ty = 4 then 0x80 else 0xA0
  match (capList ty).find? (fun c => c.1 == off), (extList ty).find? (fun c => c.1 == off) with
  | some c, _ => BitVec.ofNat 32 (s.capHead f off c.2)
  | none, some c => extHead ty off c.2
  | none, none =>
    if off < 0x40 then s.headRo f off
    else if off = 0x44 ∧ ty ≠ 4 then 0x8
    else if pcie ≤ off ∧ off < pcie + 0x3C then BitVec.ofNat 32 (s.pcieRo f (off - pcie))
    else if 2 ≤ ty ∧ mx < off ∧ off ≤ mx + 8 then msixPlace ty (off - mx)
    else if 0x300 < off ∧ off < 0x340 ∧ ty ≠ 4 then BitVec.ofNat 32 (s.dvsec f (off - 0x300))
    else if cfgOpen ty off then (Config.cfgWord ty off &&& ~~~(cfgKnown ty off).1) ||| (cfgKnown ty off).2
    else BitVec.ofNat 32 (extRo ty off)

/-! ### Writable bits -/

/-- Bits of the AER status registers that the device's functions have (R343): the uncorrectable ones, and the correctable ones. -/
def aerMask : BitVec 32 × BitVec 32 := (0x7FF030, 0xF1C1)

/-- Bits that software stores in a bridge's configuration space. -/
def bridgeRw (dsp slot : Bool) (off : Nat) : BitVec 32 :=
  match off with
  | 0x0C => 0xFF
  | 0x04 | 0x18 | 0x1C | 0x20 | 0x24 | 0x28 | 0x2C => routingRw off
  | 0x3C => 0x4300FF
  | 0x44 => 0x3
  | 0x58 => 0x79FF
  | 0x60 => if dsp then 0xDB else 0xCB
  | 0x68 => if slot then 0x17FF else 0
  | 0x78 => if dsp then 0x73F else 0x71F
  | 0x80 => 0xF
  | 0xA0 => if dsp then 0x710000 else 0
  | 0xA4 => if dsp then 0xFFFFFFFC else 0
  | 0xA8 => if dsp then 0xFFFFFFFF else 0
  | 0xAC => if dsp then 0xFFFF else 0
  | 0xB0 => if dsp then 1 else 0
  | 0x108 | 0x10C => aerMask.1
  | 0x114 => aerMask.2
  | 0x154 => 0x3
  | 0x288 => 0xE3FFFF0F
  | 0x28C => 0xFB
  | 0x298 => 0xFF03
  | 0x2AC => 0xFF0F
  | 0x2B0 => 0xD
  | 0x2D8 => 0x7F
  | 0x2E4 => if dsp then 0x5F0000 else 0
  | 0x2F4 => if dsp then 0x9F0000 else 0
  | 0x314 => 1
  | _ => if 0x238 ≤ off ∧ off < 0x278 then 0xFF7F else 0

/-- Bits that software stores in a physical function's configuration space. -/
def pfRw (ty off : Nat) : BitVec 32 :=
  match off with
  | 0x04 => 0x546
  | 0x0C => 0xFF
  | 0x10 => if ty = 2 then 0xFC000000 else 0xFFFFC000
  | 0x14 => 0xFFFFFFFF
  | 0x18 => if ty = 2 then 0xFFFF0000 else 0
  | 0x1C => if ty = 2 then 0xFFFFFFFF else 0
  | 0x3C => 0xFF
  | 0x44 => 0x3
  | 0x58 => 0x79FF
  | 0x60 => 0xC8
  | 0x78 => 0x71F
  | 0xA0 => 0xC0000000
  | 0x108 | 0x10C => aerMask.1
  | 0x114 => aerMask.2
  | 0x158 => if ty = 2 then 0x7 else 0
  | 0x168 => if ty = 3 then 0x19 else 0
  | 0x170 => if ty = 3 then 0xFFFF else 0
  | 0x180 => if ty = 3 then 0xFFFFFFFF else 0
  | 0x184 => if ty = 3 then 0xFFFFC000 else 0
  | 0x188 => if ty = 3 then 0xFFFFFFFF else 0
  | 0x1A4 => if ty = 3 then 0x801F0000 else 0
  | 0x1B4 => if ty = 3 then 0x1 else 0
  | 0x1BC => if ty = 3 then 0xFFFFFFFF else 0
  | 0x1C4 => if ty = 3 then 0x70000 else 0
  | 0x1D8 => if ty = 3 then 0x7 else 0
  | 0x314 => 1
  | _ => 0

/-- Bits that software stores in a Stall's configuration space. -/
def stallRw (off : Nat) : BitVec 32 :=
  match off with
  | 0x04 => 0x4
  | 0x48 => 0x10
  | 0x68 => 0x300
  | 0x80 => 0xC0000000
  | 0x104 => 0x80000000
  | _ => 0

/-- Bits that software stores. -/
def Dev.cfgRw (s : Dev) (f : Fn) (off : Nat) : BitVec 32 :=
  let ty := s.ftype f
  if ty < 2 then bridgeRw (ty == 1) (s.fnSlot f) off else if ty = 4 then stallRw off else pfRw ty off

/-- Bits that a written 1 clears. -/
def Dev.cfgW1c (s : Dev) (f : Fn) (off : Nat) : BitVec 32 :=
  let ty := s.ftype f
  if ty = 4 then (if off = 0x48 then 0xF0000 else 0)
  else match off with
    | 0x58 => 0xF0000
    | 0x68 => if s.fnSlot f then 0x11F0000 else 0
    | 0x104 => aerMask.1
    | 0x110 => aerMask.2
    | 0x2A4 => if ty < 2 then 1 else 0
    | 0x2F8 => if ty = 1 then 0x9 else 0
    | 0x314 => 4
    | _ => 0

/-- L0s of Link Control, which a port in Flit mode does not report as enabled (R87). -/
def Dev.l0sHidden (s : Dev) (f : Fn) (off : Nat) : BitVec 32 :=
  match f with
  | .port p => if off = 0x60 ∧ s.b F.PORT_STATUS_FLIT p = true then 1 else 0
  | _ => 0

/-- Bits that count what no command tells, and read as free values: the Flits received while the FBER measurement is enabled (R5). -/
def Dev.cfgFree (s : Dev) (f : Fn) (off : Nat) : BitVec 32 :=
  match f with
  | .port p => if s.fberOn p then (if off = 0x2B4 then 0xFFFFFFFF else if off = 0x2B8 then 0xFFFF else 0) else 0
  | _ => 0

/-- What a configuration dword reads (R81-R83). Slot Control and Slot Status of a port without a slot read 0. -/
def Dev.cfgRead (s : Dev) (f : Fn) (off : Nat) : BitVec 32 :=
  let own := (s.cfgRw f off ||| s.cfgW1c f off) &&& ~~~(s.l0sHidden f off)
  let open_ := s.cfgFree f off
  if open_ ≠ 0 then (s.cf f off &&& ~~~open_) ||| (s.freeVal.truncate 32 &&& open_)
  else if off = 0x68 ∧ s.fnSlot f = false then 0
  else if cfgOpen (s.ftype f) off then (s.cf f off &&& own) ||| (s.cfgRo f off &&& ~~~own)
  else (s.cf f off &&& ~~~(s.l0sHidden f off)) ||| s.cfgRo f off

/-! ### What a write does -/

/-- A dword of a bridge that enters the committed sets: Command, bus numbers, windows (R121). -/
def isRouting (ty off : Nat) : Bool := decide (ty < 2) && routingDwords.contains off

/-- Pending MSI-X entries of a function sent as far as they may be now (R404): a Stall's through its Porter's core port (R17, R319). -/
def Dev.sendPending (s : Dev) (f : Fn) : Dev :=
  (List.range 16).foldl (fun s e =>
    if s.pendingBit f e && s.msixReady f e then
      match f with
      | .stall n => (s.setPendingBit f e false).stallVec n e
      | _ => (s.setPendingBit f e false).formMsix f e
    else s) s

/-- A pending MSI of a DSP sent once it is unmasked. -/
def Dev.sendPendingMsi (s : Dev) (p : Nat) : Dev :=
  if s.cfBit (portFn p) 0xB4 0 && !s.cfBit (portFn p) 0xB0 0 then (s.setCfBits (portFn p) 0xB4 1 false).sendMsi p else s

/-- Slot Control and Slot Status of port `p` written (R99, R103): events cleared, enables stored, then the controls that change. In COOLING a
write of Power Controller Control is completed at once, and one that changes an indicator with it once more at the SB_LOAD that latches the
indicator (DESIGN CHOICE, log 133). -/
def Dev.slotCtlWrite (s : Dev) (p : Nat) (m v : BitVec 32) : Dev :=
  let off := slotCtlOff
  let old := s.cf (portFn p) off
  let x := (old &&& ~~~(m &&& 0x103F)) ||| (v &&& m &&& 0x103F)
  let y := x &&& ~~~(v &&& m &&& 0x11F0000)
  let s1 := s.setCf (portFn p) off y
  let s2 := if slotIrq y && !slotIrq old then s1.sendMsi p else s1
  let ctl := (m &&& 0x7C0) ≠ 0
  let new := (old &&& ~~~m) ||| (v &&& m)
  let ind := ((new ^^^ old) &&& 0x3C0) ≠ 0
  let s3 := if ctl ∧ ind then s2.indicatorWrite p ((new.toNat >>> 8) % 4) ((new.toNat >>> 6) % 4) else s2
  let s4 := if ctl ∧ new.getLsbD 10 ≠ old.getLsbD 10 then s3.powerWrite p (!new.getLsbD 10)
    else if (m &&& 0x400) ≠ 0 ∧ new.getLsbD 10 = true then s3.latchRelease p else s3
  if s.slotState p = 5 ∧ (m &&& 0x400) ≠ 0 then s4.slotEvent p 4
  else if (m &&& 0xFFFF) ≠ 0 then s4.setSlot p { s4.slot p with cmdWait := true } else s4

/-- Retrain Link: Recovery at the same rate; Perform Equalization of Link Control 3 has the lanes equalized again at it (PCI Express Base
7.0). -/
def Dev.retrain (s : Dev) (p : Nat) : Dev :=
  let s1 := s.recover p none
  if s.cfBit (portFn p) 0x154 0 then s1.eqStart p (s.f F.PORT_STATUS_RATE p) else s1

/-- FBER Measurement Control written: bit 1 clears the counters; the count of Flits stands where the measurement ends. -/
def Dev.fberWrite (s : Dev) (p : Nat) (old w : BitVec 32) : Dev :=
  let f := portFn p
  let s1 := if old.getLsbD 0 && !s.fberOn p then
      ((s.setCf f 0x2B4 (s.freeVal.truncate 32)).setCf f 0x2B8
        ((s.cf f 0x2B8 &&& 0xFFFF0000) ||| (s.freeVal >>> 32).truncate 32 &&& 0xFFFF)).useFree
    else s
  if w.getLsbD 1 then s1.fberClear p else s1

/-- What a stored write brings about beside the storing, for a DSP's or USP's port (R5, R55, R347, R450). -/
def Dev.portEffect (s : Dev) (p off : Nat) (old w : BitVec 32) : Dev :=
  let f := portFn p
  let new := s.cf f off
  let dsp := s.ftype f == 1
  match off with
  | 0x04 => if new.getLsbD 2 && !old.getLsbD 2 && dsp then s.sendPendingMsi p else s
  | 0x44 => if !dsp && new.toNat % 4 == 3 && old.toNat % 4 != 3 then s.pmL1Request p else s
  | 0x60 =>
    let s1 := if dsp && new.getLsbD 4 != old.getLsbD 4 then s.linkDisable p (new.getLsbD 4) else s
    if dsp && w.getLsbD 5 && s1.f F.PORT_STATUS_LTSSM p == 3 then (s1.retrain p).emit (.link p .retrain) else s1
  | 0xB0 | 0xA0 => if dsp then s.sendPendingMsi p else s
  | 0x2F4 => if dsp && w.getLsbD 22 && !(s.link p).dpc && s.dpcArmed p .software then s.contain p .software else s
  | 0x2A4 => if w.getLsbD 0 then (s.setCf f 0x2A4 0).setCf f 0x2A8 0 else s
  | 0x2B0 => s.fberWrite p old w
  | 0x2F8 => if dsp && w.getLsbD 0 && (s.link p).dpc then s.uncontain p else s
  | _ => if 0x238 ≤ off ∧ off < 0x278 ∧ w.toNat % 65536 ≠ 0 then s.marginWrite p ((off - 0x238) / 4) (new.toNat % 65536) else s

/-- What a stored write brings about at the device's own functions (R271, R318, R404). -/
def Dev.fnEffect (s : Dev) (f : Fn) (off : Nat) (old w : BitVec 32) : Dev :=
  let new := s.cf f off
  match f with
  | .port p => s.portEffect p off old w
  | .svc _ | .remote _ _ => s
  | .mgmtPf => if off = 0x58 ∧ w.getLsbD 15 = true then s.mgmtFlr else if off = 0x04 ∨ off = 0xA0 then s.sendPending .mgmtPf else s
  | .porterPf =>
    if off = 0x58 ∧ w.getLsbD 15 = true then s.porterFlr
    else if off = 0x04 ∨ off = 0xA0 then s.sendPending .porterPf
    else if off = 0x168 ∨ off = 0x170 then
      (s.setCf .porterPf off old).vfWrite (if off = 0x168 then new.getLsbD 0 else s.cfBit .porterPf 0x168 0)
        (if off = 0x170 then new.toNat % 65536 else s.cfNum .porterPf 0x170 0 16) |>.setCf .porterPf off new
    else if off = 0x1D8 then s.tagChecks
    else s
  | .stall n =>
    if off = 0x48 ∧ w.getLsbD 15 = true then s.stallFlr n
    else if off = 0x04 then
      (if old.getLsbD 2 && !new.getLsbD 2 then s.masterOff n else if new.getLsbD 2 then s.sendPending f else s)
    else if off = 0x80 then s.sendPending f
    else s

/-- Secondary Bus Reset as Bridge Control is written: a bridge is named by partition and kind. -/
def Dev.sbrWrite (s : Dev) (f : Fn) (set : Bool) : Dev :=
  match f with
  | .port p => s.sbr (s.fnPart f) (if s.role p = 1 then .usp else .dsp (Fin.ofNat 256 (s.vnumOf f))) set
  | .svc v => s.sbr (s.fnPart f) (.dsp (Fin.ofNat 256 v)) set
  | _ => s.setCfBits f 0x3C 0x400000 set

/-- A configuration write of the dword at `off`: stored, cleared and acted on (R7, R81). A 1 written to the RSV bits of the DVSEC's LOCK is
discarded (DESIGN CHOICE, log 121). PowerState takes D0 and D3hot, which the functions have (R87), and no other. -/
def Dev.cfgWrite (s : Dev) (f : Fn) (off : Nat) (be : BitVec 4) (v : BitVec 32) : Dev :=
  let m := beMask be
  let w := v &&& m
  let slot := match f with
    | .port p => if off = 0x68 ∧ s.hasSlot p = true then some p else none
    | _ => none
  match slot with
  | some p => s.slotCtlWrite p m v
  | none =>
    let old := s.cf f off
    let rw := s.cfgRw f off &&& m &&& (if off = 0x3C ∧ s.ftype f < 2 then ~~~0x400000 else ~~~0)
    let rw := if off = 0x44 ∧ s.ftype f ≠ 4 ∧ (v.toNat % 4 = 1 ∨ v.toNat % 4 = 2) then rw &&& ~~~0x3 else rw
    let new := ((old &&& ~~~rw) ||| (v &&& rw)) &&& ~~~(w &&& s.cfgW1c f off)
    let s1 := (s.setCf f off new).fnEffect f off old w
    if off = 0x3C ∧ s.ftype f < 2 ∧ be.getLsbD 2 = true then s1.sbrWrite f (w.getLsbD 22) else s1

/-! ### Host configuration requests (R78, R79, R113, R121, R122, R213) -/

/-- A write of a bridge's routing dwords waits for its commit (R122): on a device that commits its own tables it is rebuilt and
committed, on a member of a Hall it becomes an EDIT to the master (R213). -/
def Dev.routeWrite (s : Dev) (q : Nat) (bf : BridgeFn) (f : Fn) (off : Nat) (be : BitVec 4) (v : BitVec 32) (w : BridgeWait) : Dev :=
  let s1 := s.cfgWrite f off be v
  if s.b F.HALL_CTL_EN && (s.hall.asked || s.current) then
    let (s2, tag) := s1.takeTag
    ({ s2 with hall := { s2.hall with sent := s2.hall.sent ++ [(tag, w)] } } : Dev).sendEdit q bf off be v tag
  else
    let s2 := (s1.rebuild q).commitReq
    { s2 with fwd := { s2.fwd with bridge := s2.fwd.bridge ++ [w] } }

/-- A host's configuration write to a virtual bridge; `w` says how it is answered. -/
def Dev.bridgeWrite (s : Dev) (q : Nat) (bf : BridgeFn) (off : Nat) (be : BitVec 4) (v : BitVec 32) (w : BridgeWait) : Option Dev :=
  let fn := match bf with
    | .usp => s.uspBridge q
    | .dsp d => s.bridgeOf q d.val
  match fn with
  | none => none
  | some f =>
    if !s.fnExists f then none
    else if isRouting (s.ftype f) off && be != 0 then some (s.routeWrite q bf f off be v w)
    else some ((s.cfgWrite f off be v).bridgeDone w)

/-- The function that a configuration request addresses (R78, R79): a bridge, or a service function or Stall. -/
inductive CfgTarget where
  | bridge (f : BridgeFn)
  | fn (f : Fn)
  deriving DecidableEq, Repr

/-- Target of a consumed configuration request `t` from partition `q` at ingress `i`; none where nothing occupies the routing ID. -/
def Dev.cfgTarget (s : Dev) (q : Nat) (t : Tlp) : Option CfgTarget :=
  if t.kind = .cfgrd0 ∨ t.kind = .cfgwr0 then (if devFn t.destId = 0 then some (.bridge .usp) else none)
  else match s.busKind q (busOf t.destId) with
    | (2, _) => some (.bridge (.dsp (Fin.ofNat 256 (devFn t.destId))))
    | (_, 254) => if t.destId = s.mgmtRid then some (.fn .mgmtPf) else none
    | (_, 255) =>
      if t.destId = s.porterRid then some (.fn .porterPf)
      else if s.porterRid.toNat < t.destId.toNat ∧ t.destId.toNat ≤ s.porterRid.toNat + 1024 then
        some (.fn (.stall (t.destId.toNat - s.porterRid.toNat - 1)))
      else none
    | _ => none

/-- The routing ID with which a consumed configuration request is completed (R78, R79): the function's that it names, or where nothing
occupies the ID that of its ingress, or CPL_ID for one that came over the fabric. -/
def Dev.cfgCplId (s : Dev) (q : Nat) (st : Stored) : BitVec 16 :=
  match s.cfgTarget q st.tlp with
  | some (.bridge _) => s.bridgeRid q st.tlp
  | some (.fn _) => st.tlp.destId
  | none => if decide (st.ingress < 512) && s.role st.ingress == 2 then st.cplId else s.cplIdOf st.ingress

/-- A consumed configuration request answered with a status and data. -/
def Dev.cfgReply (s : Dev) (st : Stored) (cs : CplStatus) (data : List Byte) : Dev :=
  s.generate st (backTo st.ingress) (s.cfgCplId st.d.part st) cs data

/-- A configuration request consumed by a function of the device (R79, R113, R122). A routing ID that no function occupies is answered
with Unsupported Request. The USP captures the bus number of a Type 0 write (R78). -/
def Dev.cfgRequest (s : Dev) (q : Nat) (st : Stored) : Dev :=
  let t := st.tlp
  let off := t.reg.toNat / 4 * 4
  let wr := t.kind == .cfgwr0 || t.kind == .cfgwr1
  let v : BitVec 32 := BitVec.ofNat 32 (leAt t.payload 0 4)
  let s0 := if t.kind = .cfgwr0 then s.captureBus q (busOf t.destId) else s
  match s0.cfgTarget q t with
  | none => s0.cfgReply st .ur []
  | some (.fn f) =>
    if !s0.fnExists f then s0.cfgReply st .ur []
    else if wr then (s0.cfgWrite f off t.be v).cfgReply st .sc []
    else s0.cfgReply st .sc (leBytes (s0.cfgRead f off).toNat 4)
  | some (.bridge bf) =>
    if wr then
      match s0.bridgeWrite q bf off t.be v { q := q, reply := some st } with
      | some s1 => s1
      | none => s0.cfgReply st .ur []
    else
      let fn := match bf with
        | .usp => s0.uspBridge q
        | .dsp d => s0.bridgeOf q d.val
      match fn with
      | some f => if s0.fnExists f then s0.cfgReply st .sc (leBytes (s0.cfgRead f off).toNat 4) else s0.cfgReply st .ur []
      | none => s0.cfgReply st .ur []

end Sys2Proof.Machine
end

