-- ==== Sys2Proof/Machine/PulseOps.lean ====
section
/-! DEFINITION. What the time base makes a Floor bank group do: scrub steps and the end of a retirement window (R147-R150), through the pulse
handshakes of their crossings (R374-R376). -/

namespace Sys2Proof.Machine

/-- Every TLP in the Floor changed by `f`. -/
def Dev.mapStored (s : Dev) (f : Stored → Stored) : Dev :=
  { s with
    floor := { s.floor with queues := s.floor.queues.map (fun e => (e.1, e.2.map f)) }
    arbs := s.arbs.map (fun e => (e.1, { e.2 with reqs := e.2.reqs.map (fun r => { r with st := f r.st }) }))
    links := s.links.map (fun e => (e.1, { e.2 with lockSlot := e.2.lockSlot.map f, behind := e.2.behind.map f }))
    twin := { s.twin with streams := s.twin.streams.map (fun e =>
      (e.1, { e.2 with held := e.2.held.map (fun h => (h.1, f h.2)) })) } }

/-- The cell of bank `b` at bank row `r` (R139). -/
def bankCell (b r : Nat) : Nat := groupBase (b / 16) + 16 * r + b % 16

/-- Symbol errors of a chunk set. -/
def Dev.setChunk (s : Dev) (c k n : Nat) : Dev :=
  { s with floor := { s.floor with chunks := s.floor.chunks.put 0 (4 * c + k) n } }

/-- What a scrub of chunk `k` of cell `c` finds (R147): corrections are written back; an uncorrectable chunk of a held cell stays
and poisons its TLP, one of a free cell is wiped. -/
def Dev.scrubChunk (s : Dev) (b c k upset : Nat) : Dev :=
  let n := s.chunkErrs c k + upset
  if n = 0 then s
  else if n ≤ 2 then (s.setChunk c k 0).countCorr b
  else
    let s1 := ((s.logUncorr c k 1).uncorrCandidate c).aerU .mgmtPf AER.uncorrectableInternal
    if s1.inDevice.any (fun st => st.cells.contains c) then
      (s1.setChunk c k n).mapStored (fun st => if st.cells.contains c then { st with poisoned := true } else st)
    else { s1 with floor := s1.floor.wipeCells [c] }

/-- A bank scrubs its next chunk row (R149); `upset` symbol errors are found in it beside those known. -/
def Dev.scrubRow (s : Dev) (b upset : Nat) : Dev :=
  let x := s.floor.banks.look {} b
  if (s.group (b / 16)).live then
    let d1 := s.scrubChunk b (bankCell b (x.row / 4)) (x.row % 4) upset
    let y := d1.floor.banks.look {} b
    { d1 with floor := { d1.floor with banks := d1.floor.banks.put {} b { y with row := (x.row + 1) % 3072 } } }
  else s

/-- A bank's corrections of the window judged, and counted anew. -/
def Dev.judgeBank (s : Dev) (b : Nat) : Dev :=
  let x := s.floor.banks.look {} b
  let s1 := if s.b F.FLOOR_CTL_AUTO_RETIRE && decide (s.f F.FLOOR_RETIRE_LIMIT < x.winCorr) then s.candidate b else s
  let y := s1.floor.banks.look {} b
  { s1 with floor := { s1.floor with banks := s1.floor.banks.put {} b { y with winCorr := 0 } } }

/-- The retirement window of group `g` ends (R150): its 16 banks, whose windows the model ends together, are judged in ascending order (DESIGN
CHOICE, log 123). -/
def Dev.retireWindow (s : Dev) (g : Nat) : Dev :=
  let s1 := (List.range 16).foldl (fun s k => s.judgeBank (16 * g + k)) s
  s1.setGroup g { s1.group g with cand := false }

/-! ### Pulse handshakes (R374-R376) -/

/-- The destination domain of a handshake: numbers below 512 are the scrub steps of a bank, `512 + g` the windows of group `g` (log 55). -/
def pulseDomain (k : Nat) : Nat := 160 + (if k < 512 then k / 16 else k - 512)

/-- What one pulse does at its destination. -/
def Dev.pulseAct (s : Dev) (k upset : Nat) : Dev := if k < 512 then s.scrubRow k upset else s.retireWindow (k - 512)

/-- A handshake of stopped clocks replaced. -/
def Dev.setPulse (s : Dev) (k : Nat) (x : PulseSt) : Dev := { s with pulses := s.pulses.put {} k x }

/-- A pulse found its counter at 15 (R374). -/
def Dev.pulseOvf (s : Dev) (d : Nat) : Dev :=
  let h := domHalf d
  (if s.b F.CLK_STATUS_CDC_OVF h then s else s.setF F.CLK_STATUS_OVF_DOMAIN d h).setB F.CLK_STATUS_CDC_OVF true h

/-- A pulse raised (R374-R376): its destination acts on it, or while that has its clocks stopped it waits as the outstanding request or in the
counter, or it is discarded and counted, with the destination in reset, its domain or its Floor block. -/
def Dev.raisePulse (s : Dev) (k upset : Nat) : Dev :=
  let d := pulseDomain k
  if s.rst.blockBusy = some (68 + domHalf d) then s.inc .cdcLost 1 (domHalf d)
  else if s.b F.DOMAIN_STATE_READY d then s.pulseAct k upset
  else if s.f F.DOMAIN_STATE_POWER d = 2 then
    let x := s.pulses.look {} k
    if x.out = 0 then s.setPulse k { x with out := 1 }
    else if x.acc < 15 then s.setPulse k { x with acc := x.acc + 1 }
    else s.pulseOvf d
  else s.inc .cdcLost 1 (domHalf d)

/-- The handshakes into domain `d` that hold something. -/
def Dev.pulsesOf (s : Dev) (d : Nat) : Tbl PulseSt := s.pulses.filter (fun e => pulseDomain e.1 == d)

/-- The handshakes into domain `d` are idle. -/
def Dev.dropPulses (s : Dev) (d : Nat) : Dev := { s with pulses := s.pulses.filter (fun e => pulseDomain e.1 != d) }

/-- The clocks of domain `d` run again: the outstanding count is acted on in full, then the accumulated one (R374, R376). -/
def Dev.pulsesRun (s : Dev) (d : Nat) : Dev :=
  (s.pulsesOf d).foldl (fun s e => (List.range (e.2.out + e.2.acc)).foldl (fun s _ => s.pulseAct e.1 0) s) (s.dropPulses d)

/-- Domain `d` enters reset: counts that wait are discarded and counted (R375). -/
def Dev.pulsesLost (s : Dev) (d : Nat) : Dev :=
  (s.pulsesOf d).foldl (fun s e => s.inc .cdcLost (e.2.out + e.2.acc) (domHalf d)) (s.dropPulses d)

end Sys2Proof.Machine
end

