-- ==== Sys2Proof/Machine/DomainOps.lean ====
section
/-! DEFINITION. Switched power domains (R375-R381, R384): which writes of DOMAIN_CTL are accepted, the ramp queue, what a
domain loses when it is switched off and what it starts with. -/

namespace Sys2Proof.Machine

/-- The pending changes of domain `d`. -/
def Dev.domain (s : Dev) (d : Nat) : DomainSt := s.domains.look {} d

/-- The pending changes of domain `d` replaced. -/
def Dev.setDomain (s : Dev) (d : Nat) (x : DomainSt) : Dev := { s with domains := s.domains.put {} d x }

/-- POWER of domain `d`: 0 OFF, 1 WAKING, 2 ON, 3 SLEEPING. -/
def Dev.power (s : Dev) (d : Nat) : Nat := s.f F.DOMAIN_STATE_POWER d

/-- The domain that domain `d` depends on (R378): a PHY quad's Row logic, a Porter cluster's translation unit. -/
def dependsOn (d : Nat) : Option Nat :=
  if d < 128 then some (128 + d / 4) else if 192 ≤ d ∧ d < 200 then some (200 + (d - 192) / 4) else none

/-- The switched domains in the order of their ramps: the Aisle ends, then the rows of R378 in turn. -/
def rampOrder : List Nat :=
  [204, 205, 200, 201, 202, 203] ++ (List.range 32).map (160 + ·) ++ (List.range 32).map (128 + ·) ++ List.range 128
    ++ (List.range 8).map (192 + ·)

/-- Domains that depend on domain `d`. -/
def dependants (d : Nat) : List Nat := (List.range 206).filter (fun e => dependsOn e == some d)

/-- Every domain of a list is OFF. -/
def Dev.allOff (s : Dev) (l : List Nat) : Bool := l.all (fun d => s.power d == 0)

/-- The Porter clusters of half `h`. -/
def clustersOf (h : Nat) : List Nat := (List.range 4).map (fun k => 192 + 4 * h + k)

/-- The ports of Row `r`. -/
def rowPorts (r : Nat) : List Nat := (List.range 16).map (fun k => 16 * r + k)

/-- Every port of half `h` has EN clear and every Porter cluster of it is OFF. -/
def Dev.halfIdle (s : Dev) (h : Nat) : Bool := !s.enabledPorts.any (fun p => p / 256 == h) && s.allOff (clustersOf h)

/-- Tag slots of Porter `n` in use for data and list reads, for other reads, and in quarantine (`PORTER_STATUS`). -/
def Dev.tagCounts (s : Dev) (n : Nat) : Nat × Nat × Nat :=
  let l := (s.porter n).tags.filterMap (fun e => e.2)
  ((l.filter (fun t => decide (t.kind ≤ 1) && !t.quar)).length, (l.filter (fun t => decide (1 < t.kind) && !t.quar)).length,
    (l.filter (fun t => t.quar)).length)

/-- A lane of PHY quad `d` belongs to an enabled port, or the spare in it is enabled (R378). -/
def Dev.quadUsed (s : Dev) (d : Nat) : Bool :=
  let r := d / 4
  (List.range 4).any (fun k => s.b F.PORT_CTL_EN (s.portOfLane r (4 * (d % 4) + k)))
    || (d % 4 == 3 && s.b F.ROW_SPARE_CTL_SPARE_EN r)

/-- Power-off and clock stop of domain `d` are permitted (R378); `off` tells power-off. -/
def Dev.mayStop (s : Dev) (d : Nat) (off : Bool) : Bool :=
  if d < 128 then !s.quadUsed d
  else if d < 160 then
    let r := d - 128
    !(rowPorts r).any (fun p => s.b F.PORT_CTL_EN p || s.slotEn p) && s.allOff ((List.range 4).map (4 * r + ·))
  else if d < 192 then off || (!s.b F.GROUP_CTL_ALLOC_EN (d - 160) && !s.inDevice.any (fun st => st.cells.any (fun c => cellGroup c == d - 160)))
  else if d < 200 then
    let c := d - 192
    !(List.range 1024).any (fun st => s.b F.STALL_BIND_BOUND st && s.f F.STALL_BIND_PORTER st / 8 == c)
      && (List.range 8).all (fun k => s.tagCounts (8 * c + k) == (0, 0, 0))
  else if d < 202 then s.allOff (clustersOf (d - 200))
  else if d < 204 then (List.range 256).all (fun c => s.ledState c == 0)
  else s.halfIdle 0 || s.halfIdle 1

/-- A domain that depends on `d` waits for its ramp or wakes (R384). -/
def Dev.dependantWakes (s : Dev) (d : Nat) : Bool :=
  (dependants d).any (fun e => s.power e == 1 || (s.power e == 3 && (s.domain e).onAfter))

/-- A write of DOMAIN_CTL to domain `d` is accepted (R378, R340, R384). -/
def Dev.domainAccepts (s : Dev) (d : Nat) (v : Word) : Bool :=
  let pwr := s.b F.DOMAIN_CTL_PWR_EN d
  let clk := s.b F.DOMAIN_CTL_CLK_EN d
  let pwr' := getBits v 0 1 == 1
  let clk' := getBits v 1 1 == 1
  let on := pwr' && !pwr
  let onOk := match dependsOn d with
    | some e => s.b F.DOMAIN_CTL_PWR_EN e
    | none => true
  (!on || (onOk && !s.rst.tripped)) && (!(pwr && !pwr') || (s.mayStop d true && !s.dependantWakes d))
    && (!(clk && !clk') || s.mayStop d false)

/-! ### What a domain loses and starts with -/

/-- Lane of Row `d / 4` that lies in PHY quad `d`. -/
def quadLanes (d : Nat) : List Nat :=
  (List.range 4).map (fun k => 4 * (d % 4) + k) ++ (if d % 4 = 3 then [16] else [])

/-- The registers of a domain at their reset values. What says that a Row has a slot stays, SLOT_CFG and SLOT_STATE, for switching a domain
never changes a slot's power (R30; DEDUCED, log 111). -/
def Dev.loseRegs (s : Dev) (d : Nat) : Dev :=
  { s with regs := s.regs.filter (fun e => e.1.domain != some d || e.1.kind == .slotCfg || e.1.kind == .slotState) }

/-- Cells of bank group `g` that TLPs hold. -/
def Dev.heldIn (s : Dev) (g : Nat) : List Nat := (s.inDevice.flatMap (fun st => st.cells)).filter (fun c => cellGroup c == g)

/-- A chunk's bytes, a free value. -/
def Dev.freeChunk (s : Dev) : Option (BitVec 512) :=
  some (BitVec.ofNat 512 (((List.range 8).map (fun k => (Config.freeBits (s.free + k)).toNat <<< (64 * k))).foldl (· + ·) 0))

/-- The bytes of a cell become free values: the TLPs of a powered-off group's cells are unpredictable (R31, R351). -/
def Dev.loseCell (s : Dev) (c : Nat) : Dev :=
  (List.range 4).foldl (fun s k =>
    { s with floor := { s.floor with data := s.floor.data.put none (4 * c + k) s.freeChunk }, free := s.free + 8 }) s

/-- The contents of domain `d` are lost (R378): its registers and what its logic holds. -/
def Dev.loseDomain (s0 : Dev) (d : Nat) : Dev :=
  let s := if 128 ≤ d ∧ d < 160 then (rowPorts (d - 128)).foldl Dev.failoverEnd s0 else s0
  let s1 := s.loseRegs d
  if d < 128 then { s1 with lanes := s1.lanes.filter (fun e => !(e.1 / 17 == d / 4 && (quadLanes d).contains (e.1 % 17))) }
  else if d < 160 then
    let r := d - 128
    { s1 with
      rows := s1.rows.filter (fun e => e.1 != r)
      links := s1.links.filter (fun e => e.1 / 16 != r)
      nerup := s1.nerup.filter (fun e => e.1 / 16 != r) }
  else if d < 192 then ((s1.heldIn (d - 160)).foldl Dev.loseCell s1).setGroup (d - 160) {}
  else if d < 200 then { s1 with porters := s1.porters.filter (fun e => e.1 / 8 != d - 192) }
  else if d < 202 then { s1 with xlat := s1.xlat.filter (fun e => e.1 != d - 200) }
  else if d < 204 then
    { s1 with ledger := { s1.ledger with
        cache := s1.ledger.cache.filter (fun e => e.1 / 4096 != d - 202)
        queue := s1.ledger.queue.put [] (d - 202) []
        folds := s1.ledger.folds.put [] (d - 202) [] } }
  else if d < 206 then s1.aisleLost
  else s1

/-- A bank group whose cells have been wiped (R144, R161): every cell that no TLP holds is free, with zero data. -/
def Dev.freshGroup (s0 : Dev) (g : Nat) : Dev :=
  let held := s0.heldIn g
  let stays (x : Nat) : Bool := cellGroup (x / 4) != g || held.contains (x / 4)
  let s : Dev := { s0 with floor := { s0.floor with
    chunks := s0.floor.chunks.filter (fun e => stays e.1), data := s0.floor.data.filter (fun e => stays e.1) } }
  if held.isEmpty then s.setGroup g { live := true }
  else
    s.setGroup g { live := true, fresh := 12288,
                   returned := ((List.range 12288).map (groupBase g + ·)).filter (fun c => !held.contains c) }

/-- The ports that have a lane in PHY quad `d`, or lie in Row `d - 128`. -/
def Dev.portsIn (s : Dev) (d : Nat) : List Nat :=
  if d < 128 then (rowPorts (d / 4)).filter (fun p => s.b F.PORT_CTL_EN p && (s.lanesOf p).any (fun m => (quadLanes d).contains m))
  else if d < 160 then (rowPorts (d - 128)).filter (fun p => s.b F.PORT_CTL_EN p)
  else []

/-- What starts once domain `d` is ready: a group's cells, the ports of its lanes, its Porters. -/
def Dev.domainStarts (s : Dev) (d : Nat) : Dev :=
  if d < 160 then (s.portsIn d).foldl (fun s p => s.trainNow p) s
  else if d < 192 then ((s.freshGroup (d - 160)).coverHold ((d - 160) / 16))
  else if d < 200 then (List.range 8).foldl (fun s k => s.run (8 * (d - 192) + k)) s
  else s

/-! ### Changes of power -/

/-- `DOMAIN_STATE` replaced. -/
def Dev.setDomState (s : Dev) (d power : Nat) (stopped reset ready queued : Bool) : Dev :=
  s.setReg .domainState
    (BitVec.ofNat 64 (power + 4 * b2n stopped + 8 * b2n reset + 16 * b2n ready + 32 * b2n queued)) d

/-- Wake begins: the domain waits for its dependency and its place (R378). -/
def Dev.domainWake (s : Dev) (d : Nat) : Dev := s.setDomState d 1 false true false true

/-- Sleep begins: the domain is in reset and its contents are lost (R378). -/
def Dev.domainSleep (s : Dev) (d : Nat) : Dev := ((s.pulsesLost d).loseDomain d).setDomState d 3 false true false false

/-- PWR_EN of domain `d` set (R378, R384). -/
def Dev.powerOn (s : Dev) (d : Nat) : Dev :=
  match s.power d with
  | 0 => s.domainWake d
  | 1 => s.setDomain d { s.domain d with offAfter := false }
  | 3 => s.setDomain d { s.domain d with onAfter := true }
  | _ => s

/-- PWR_EN of domain `d` cleared (R378, R384). -/
def Dev.powerOff (s : Dev) (d : Nat) : Dev :=
  match s.power d with
  | 1 => s.setDomain d { s.domain d with offAfter := true }
  | 2 => s.domainSleep d
  | 3 => s.setDomain d { s.domain d with onAfter := false }
  | _ => s

/-- CLK_EN as it acts on an ON domain (R376, R378). -/
def Dev.clockFollow (s : Dev) (d : Nat) : Dev :=
  if s.power d = 2 then
    let run := s.b F.DOMAIN_CTL_CLK_EN d
    let t := s.setDomState d 2 (!run) false run false
    if run && !s.b F.DOMAIN_STATE_READY d then
      (if d < 160 then (t.portsIn d).foldl (fun s p => s.trainNow p) t
       else if 192 ≤ d ∧ d < 200 then (List.range 8).foldl (fun s k => s.run (8 * (d - 192) + k)) t
       else if d = 200 ∨ d = 201 then t.walksTry (d - 200)
       else if 204 ≤ d then t.aisleDrain else t.pulsesRun d)
    else t
  else s

/-- An accepted write of DOMAIN_CTL takes effect on one domain. -/
def Dev.domainApply (s : Dev) (d : Nat) (v : Word) : Dev :=
  let was := s.b F.DOMAIN_CTL_PWR_EN d
  let on := getBits v 0 1 == 1
  let s1 := s.setReg .domainCtl (v &&& 3) d
  let s2 := if on && !was then s1.powerOn d else if was && !on then s1.powerOff d else s1
  s2.clockFollow d

/-- A write of DOMAIN_CTL (R378): either Aisle end's acts on both. -/
def Dev.wrDomain (s : Dev) (d : Nat) (v : Word) : Dev :=
  if 206 ≤ d then s
  else
    let l := if 204 ≤ d then [204, 205] else [d]
    if l.any (fun e => s.safe (84 + domHalf e)) then
      (l.filter (fun e => s.safe (84 + domHalf e))).foldl (fun s e => s.intErr (84 + domHalf e)) s
    else if s.domainAccepts d v then l.foldl (fun s e => s.domainApply e v) s
    else s.setB F.PWR_STATUS_DOMAIN_CFG_ERR true

/-- Domains of half `h` in their power ramp. -/
def Dev.ramps (s : Dev) (h : Nat) : Nat := (s.domains.filter (fun e => e.2.ramp && domHalf e.1 == h)).length

/-- What domain `d` waits for is ON. -/
def Dev.dependencyOn (s : Dev) (d : Nat) : Bool :=
  match dependsOn d with
  | some e => s.power e == 2
  | none => true

/-- Domain `d` may enter its ramp (R378): QUEUED, its dependency ON, a place free in its half, and no domain before it in the
order could enter. -/
def Dev.mayRamp (s : Dev) (d : Nat) : Bool :=
  let ready (e : Nat) : Bool := s.b F.DOMAIN_STATE_QUEUED e && s.dependencyOn e && domHalf e == domHalf d
  ready d && decide (s.ramps (domHalf d) < 4) && rampOrder.find? ready == some d

/-- The ramp of a QUEUED domain begins. -/
def Dev.rampStart (s : Dev) (d : Nat) : Dev :=
  if s.mayRamp d then (s.setDomState d 1 false true false false).setDomain d { s.domain d with ramp := true } else s

/-- The ramp of a domain is over and its memories are wiped: it leaves reset and is ON (R378). A power-off asked meanwhile
follows (R384). -/
def Dev.wakeDone (s : Dev) (d : Nat) : Dev :=
  if (s.domain d).ramp then
    let off := (s.domain d).offAfter
    let run := s.b F.DOMAIN_CTL_CLK_EN d
    let s1 := (s.setDomain d {}).setDomState d 2 (!run) false run false
    let s2 := s1.domainStarts d
    if off then s2.domainSleep d else s2
  else s

/-- A SLEEPING domain is switched off. A power-on asked meanwhile follows (R384). -/
def Dev.offDone (s : Dev) (d : Nat) : Dev :=
  if s.power d = 3 then
    let on := (s.domain d).onAfter
    let s1 := (s.setDomain d {}).setDomState d 0 false true false false
    if on then s1.domainWake d else s1
  else s

/-- Domains QUEUED or WAKING (`PWR_STATUS.WAKING`). -/
def Dev.wakingCount (s : Dev) : Nat := ((List.range 206).filter (fun d => s.power d == 1)).length

end Sys2Proof.Machine
end

