-- ==== Sys2Proof/Machine/TimeOps.lean ====
section
/-! DEFINITION. Device time (R421-R424, R449) and the clocks' droop response (R371, R372). -/

namespace Sys2Proof.Machine

/-! ### Clocks -/

/-- The clock record of half `h`. -/
def Dev.clock (s : Dev) (h : Nat) : ClockSt := s.clocks.look {} h

/-- The clock record of half `h` replaced. -/
def Dev.setClock (s : Dev) (h : Nat) (x : ClockSt) : Dev := { s with clocks := s.clocks.put {} h x }

/-- The divider that half `h` must not run faster than now (R371): sensors, FORCE_DIV, the clocks block's safe state. -/
def Dev.divFloor (s : Dev) (h : Nat) : Nat :=
  let force := s.f F.DROOP_CTL_FORCE_DIV h
  if s.f F.DROOP_STATUS_SAG2 h ≠ 0 ∨ s.safe (84 + h) = true ∨ 2 ≤ force then 6
  else if s.f F.DROOP_STATUS_SAG1 h ≠ 0 ∨ force = 1 then 5 else 4

/-- The divider in force. -/
def Dev.cclkDiv (s : Dev) (h : Nat) : Nat := s.f F.CLK_STATUS_CCLK_DIV h

/-- The divider slowed at once where a floor asks for it; a change from /4 is counted (R371, R372). -/
def Dev.slowClock (s : Dev) (h : Nat) : Dev :=
  let d := s.divFloor h
  if s.cclkDiv h < d then
    let s1 := s.setF F.CLK_STATUS_CCLK_DIV d h
    if s.cclkDiv h = 4 then s1.inc .droopEvents 1 h else s1
  else s

/-- One step toward /4 (R371). -/
def Dev.recoverClock (s : Dev) (h : Nat) : Dev :=
  let d := s.cclkDiv h
  if s.divFloor h < d ∧ 4 < d then s.setF F.CLK_STATUS_CCLK_DIV (d - 1) h else s

/-- CCLK cycles of one TCLK period counted at /5 and /6 (R372): 96 root cycles (R369). -/
def Dev.cclkCount (s : Dev) (h : Nat) : Dev :=
  let d := s.cclkDiv h
  let c := s.clock h
  if d = 5 ∨ d = 6 then
    let n := c.phase + 96
    (s.setClock h { c with phase := n % d }).inc (if d = 5 then .cclkDiv5Cyc else .cclkDiv6Cyc) (n / d) h
  else s

/-! ### Device time -/

/-- Units of device time in a nanosecond. -/
def timeUnit : Nat := 2 ^ 32

/-- One TCLK edge of half `h`, whose root PLL runs (R421). -/
def Dev.timeEdgeHalf (s : Dev) (h : Nat) : Dev :=
  if s.b F.CLK_STATUS_PLL_LOCK h then
    let n := (s.reg .timeIncr).toNat
    let t := if h = 0 then { s.time with tw := (s.time.tw + n) % 2 ^ 96 } else { s.time with te := (s.time.te + n) % 2 ^ 96 }
    ({ s with time := t }).cclkCount h
  else s

/-- One TCLK edge of both halves; gates follow device time (R184). -/
def Dev.timeEdge (s : Dev) : Dev := ((s.timeEdgeHalf 0).timeEdgeHalf 1).gatesNow

/-- The source in force: 0 none, 1 PTM, 2 TIME_PPS_IN. -/
def Dev.timeSrc (s : Dev) : Nat := let v := s.f F.TIME_CTL_SRC; if v = 3 then 0 else v

/-- `STEP_TH` as it acts. -/
def Dev.stepTh (s : Dev) : Nat := max (s.f F.TIME_ADJ_STEP_TH) 1

/-- A TIME record (R411, R426). -/
def Dev.postTime (s : Dev) (code : Nat) : Dev := s.post 0x08 2 [BitVec.ofNat 32 code]

/-- Device time set to `ns`: STEPPED, and the gates follow (R421, R187). -/
def Dev.stepTo (s : Dev) (ns : Nat) : Dev :=
  let u := ns % 2 ^ 64 * timeUnit
  let s1 := { s with time := { s.time with tw := u, te := u } }
  ((s1.setB F.TIME_STATUS_STEPPED true).gatesStep s.nowNs).postTime 2

/-- Synchronization lost: a step, a loss of the reference, a change of SRC (R422). -/
def Dev.unsync (s : Dev) : Dev :=
  ({ s with time := { s.time with good := 0 } }).setB F.TIME_STATUS_SYNCED false

/-- `TIME_INCR` set to `BASE_INCR` (R422). -/
def Dev.plainIncr (s : Dev) : Dev := s.setReg .timeIncr (s.reg .baseIncr)

/-- The reference is lost (R422-R424). -/
def Dev.loseRef (s : Dev) : Dev :=
  let s1 := s.unsync.plainIncr
  { s1 with time := { s1.time with prev := none, lost := true, dialog := none } }

/-- Nearest integer to `a / b` for positive `b`, halves upward. -/
def roundDiv (a : Int) (b : Int) : Int := (2 * a + b) / (2 * b)

/-- `e` as `LAST_ERR` reports it: two's complement, saturating. -/
def lastErr (e : Int) : Nat := ((max (-2147483648) (min 2147483647 e)) % 4294967296).toNat

/-- e / T limited to ±500 ppm, applied to `base` (R422 item 2). -/
def corrected (base : Int) (e T : Int) : Int :=
  if T < 2000 * e then base + roundDiv base 2000
  else if 2000 * e < -T then base - roundDiv base 2000
  else roundDiv (base * (T + e)) T

/-- A correction point (R422): `ref` the reference, `at0` device time where it was taken. -/
def Dev.correct (s : Dev) (ref at0 : Nat) : Dev :=
  let e : Int := ref - at0
  let th : Int := s.stepTh
  let s0 := s.setF F.TIME_STATUS_LAST_ERR (lastErr e)
  if th ≤ e ∨ e ≤ -th then
    let s1 := (s0.unsync.plainIncr).stepTo ((s.nowNs : Int) + e).toNat
    { s1 with time := { s1.time with prev := some ref, lost := false } }
  else
    let base : Int := (s.reg .baseIncr).toNat
    let s1 := match s.time.prev with
      | some p =>
        let T : Int := ref - p
        if 0 < T then
          let base' := base + roundDiv (base * e) (4 * T)
          (s0.setReg .baseIncr (BitVec.ofInt 64 base')).setReg .timeIncr (BitVec.ofInt 64 (corrected base' e T))
        else s0.plainIncr
      | none => s0.plainIncr
    let good := s.time.good + 1
    let s2 := { s1 with time := { s1.time with prev := some ref, lost := false, good := good } }
    if 2 ≤ good ∧ s.b F.TIME_STATUS_SYNCED = false then (s2.setB F.TIME_STATUS_SYNCED true).postTime 4 else s2

/-- Device time rounded to the nearest whole second (R423). -/
def Dev.nearestSecond (s : Dev) : Nat := (s.nowNs + 500000000) / 1000000000 * 1000000000

/-- `BASE_INCR` reloaded, as `SSC_COMP` selects (R422). -/
def Dev.reloadBase (s : Dev) : Dev :=
  let v : Word := if s.b F.TIME_CTL_SSC_COMP then 34445637714 else 34359738368
  (s.setReg .baseIncr v).setReg .timeIncr v

/-- A change of SRC (R422). -/
def Dev.srcChanged (s : Dev) : Dev :=
  let s1 := s.unsync.reloadBase
  { s1 with time := { s1.time with prev := none, lost := false, dialog := none } }

/-- A write of TIME_CTL (R422). -/
def Dev.wrTimeCtl (s : Dev) (v : Word) : Dev :=
  let s1 := s.setReg .timeCtl (v &&& 0x1FFFFF)
  if s1.timeSrc = s.timeSrc then s1 else s1.srcChanged

/-- Device time since its last whole second, in units of 2^-32 ns. -/
def Dev.sinceSecond (s : Dev) : Nat := (if s.ic = 0 then s.time.tw else s.time.te) % (10 ^ 9 * 2 ^ 32)

/-- TIME_PPS_OUT changes to `rise` (R423). -/
def Dev.ppsTurns (s : Dev) (rise : Bool) : Bool :=
  if rise then s.b F.TIME_CTL_PPS_OUT_EN && !s.time.ppsOut && decide (s.sinceSecond < (s.reg .timeIncr).toNat)
  else s.time.ppsOut && (decide (10 ^ 6 * 2 ^ 32 ≤ s.sinceSecond) || !s.b F.TIME_CTL_PPS_OUT_EN)

end Sys2Proof.Machine
end

