-- ==== Sys2Proof/Machine/SafeOps.lean ====
section
/-! DEFINITION. Safe states (R338-R341, R350, R393), the takeover by the standby (R394), and the thermal trip (R340). -/

namespace Sys2Proof.Machine

/-! ### Units of the Porter services block -/

/-- The unit of blocks 78 and 79 that a fault in a register strikes (R338): a Porter (0-63), the Ledger unit of a half (64 + h), or
none where the register belongs to no one unit. -/
def Dev.unitOf (s : Dev) (r : RegId) : Option Nat :=
  match r.kind with
  | .porterCtl | .porterStatus => some r.i
  | .ledgerCtx | .ledgerPageBase | .ledgerPages | .ledgerFlushIv | .ledgerBitmapA | .ledgerBitmapB | .ledgerCmd => some (64 + s.ic)
  | .stallBind | .stallShare | .stallMgrStatus | .mbMgrOut | .mbMgrIn | .mbMgrCtl =>
    if s.b F.STALL_BIND_BOUND r.i && s.f F.STALL_BIND_PORTER r.i / 32 == s.ic then some (s.f F.STALL_BIND_PORTER r.i) else none
  | _ => none

/-- Porter `n` enters its safe state (R338): its Stalls' rings halt with PORTER_SAFE, its core port is purged. -/
def Dev.porterUnitSafe (s : Dev) (n : Nat) : Dev :=
  if s.porterSafe n then s
  else
    let s1 := s.setF F.PORTER_SAFE_UNITS_PORTER (s.f F.PORTER_SAFE_UNITS_PORTER (n / 32) ||| 2 ^ (n % 32)) (n / 32)
    let s2 := (s.boundTo n).foldl (fun s st => s.silenceRings st 0x14) s1
    (s2.dropReqs n (fun _ => true)).purgeQueues (514 + n) .ur

/-- The Ledger unit of half `h` enters its safe state (R338). -/
def Dev.ledgerUnitSafe (s : Dev) (h : Nat) : Dev :=
  if s.ledgerSafe h then s else (s.setB F.PORTER_SAFE_UNITS_LEDGER true h).ledgerSafeEnter h

/-- A unit of block `78 + h`, or every unit of the half, in its safe state. -/
def Dev.unitSafe (s : Dev) (h : Nat) (u : Option Nat) : Dev :=
  match u with
  | some n => if n < 64 then s.porterUnitSafe n else s.ledgerUnitSafe (n - 64)
  | none => ((List.range 32).foldl (fun s k => s.porterUnitSafe (32 * h + k)) s).ledgerUnitSafe h

/-! ### What each block does (R338) -/

/-- A Row's ports stop as by clearing EN, one that DPC holds without a second purge (R352), its spare goes OFF and PRBS stops; slots keep their
state and power. -/
def Dev.rowSafe (s : Dev) (r : Nat) : Dev :=
  let s1 := ((rowPorts r).filter (fun p => s.b F.PORT_CTL_EN p)).foldl (fun s p =>
    (if (s.link p).dpc then s.portHalt p else s.portStop p).setB F.PORT_CTL_EN false p) s
  (List.range 17).foldl (fun s m =>
    if s.reg .lanePrbsCtl r m = 0 then s else s.setReg .lanePrbsCtl (s.reg .lanePrbsCtl r m &&& ~~~(0x83 : Word)) r m) (s1.spareEnd r)

/-- The egress points of a half purged (R159, R338). -/
def Dev.purgeHalf (s : Dev) (h : Nat) : Dev :=
  ((List.range 578).filter (fun e => egHalf s.ic e == h)).foldl (fun s e => s.purgeQueues e .ur) s

/-- An Aisle end stops (R338): TLPs that wait in the Aisle's buffers are discarded with their class's outcome. Bypass requests that cross are
withdrawn; their TLPs have crossed and stay queued. -/
def Dev.aisleSafe (s : Dev) : Dev :=
  let keep (a : ArbSt) : ArbSt := { a with reqs := a.reqs.filter (fun r => r.idx != 32) }
  let s1 := s.arbs.foldl (fun s e => { s with arbs := s.arbs.put {} e.1 (keep e.2) }) s
  { s1 with aisle := [] }.discardAll (s1.aisle.flatMap Prod.snd) .ur

/-- A translation unit's cache is emptied, and what its Porters translate in modes 1 and 2 ends as an ABORT. -/
def Dev.xlatSafe (s : Dev) (h : Nat) : Dev :=
  let x := s.xl h
  let ws := (x.walks.flatMap (fun e => match e.2 with
    | some y => y.waiters
    | none => [])) ++ x.waitq.map Prod.fst
  ws.foldl (fun s w => s.wake w) ((s.xdrop h (fun _ => true)).xforget h (fun _ => true))

/-! ### Takeover (R394, R425) -/

/-- The bytes that an access covers. -/
def Access.bytes (a : Access) : Nat :=
  match a.odd with
  | some n => n
  | none => if a.wide then 8 else 4

/-- The block of what an access of the register space names, where it is a register or a table word (R448). -/
def Dev.accessBlock (s : Dev) (a : Access) : Option Nat :=
  match a.bar, targetMgmt (a.off / 4 * 4) with
  | .mgmt, .reg r _ => some (s.blockOf r)
  | .mgmt, .tbl _ t _ => some (t.block s.ic)
  | _, _ => none

/-- An access ends as to a domain in reset (R21): a write is dropped, a read gives all ones, and the internal error bit of the block that it
names is set. -/
def Dev.endInReset (s : Dev) (a : Access) : Dev :=
  let s1 := match s.accessBlock a with
    | some b => s.intErr b
    | none => s
  let v : BitVec 64 := if a.wide then 0xFFFFFFFFFFFFFFFF else 0xFFFFFFFF
  match a.door with
  | .mgmtPf =>
    if a.write then s1 else if a.odd.isSome then s1.emit (.readBytes (List.replicate a.bytes 0xFF)) else s1.emit (.readData v)
  | .debug => if a.write then s1 else s1.emit (.debugData (List.replicate a.bytes 0xFF))
  | .i3c =>
    let m := { s1.mgmt with winBusy := false, winErr := true }
    { s1 with mgmt := if a.write then m else { m with winLo := v.truncate 32, winHi := if a.wide then 0xFFFFFFFF else 0 } }
  | .controller => s1

/-- Accesses in flight through a register path that stops end as to a domain in reset (R21, R394, R405). -/
def Dev.dropAccesses (s : Dev) : Dev :=
  let l := s.mgmt.slots.filterMap (fun e => e.2) ++ s.mgmt.waiting ++ s.mgmt.winAcc.toList
  l.foldl Dev.endInReset { s with mgmt := { s.mgmt with slots := [], waiting := [], winAcc := none } }

/-- The standby takes charge (R394): its event queue starts with a takeover record, a pass is abandoned and begun anew, a boot
that had not ended starts over. -/
def Dev.takeover (s : Dev) : Dev :=
  let h := 1 - s.ic
  let s1 := s.dropAccesses
  let s2 := ((s1.setF F.ROLE_STATUS_IN_CHARGE h).setB F.ROLE_STATUS_TAKEOVER true).setB F.ROLE_STATUS_STANDBY_OK false
  let s3 : Dev := { s2 with evq := { alert := false } }
  let s4 := s3.post 0x03 0 [BitVec.ofNat 32 h]
  let pass := s4.b F.TALLY_CTL_BUSY
  let s5 := if pass then s4.tallyAbandon.tallyStart else s4
  if s5.f F.BOOT_STATUS_STAGE < 4 then
    { s5.setF F.BOOT_STATUS_STAGE 2 with rst := { s5.rst with image := none, sections := [], recIdx := 0, delaying := false } }
  else s5

/-- The controller of half `h` stops: the other half takes charge if `h` was in charge and the other's runs, neither in its safe state nor in
reset. -/
def Dev.controllerSafe (s : Dev) (h : Nat) : Dev :=
  if s.ic = h ∧ s.rst.elected = true ∧ s.b F.ROLE_STATUS_STANDOFF = false ∧ s.rst.deviceSafe = false ∧ s.safe (83 - h) = false
    ∧ s.rst.blockBusy ≠ some (83 - h)
  then s.takeover else s.alertUpdate

/-! ### Entry -/

/-- What block `b` does as it enters its safe state; `u` is the unit of blocks 78 and 79. -/
def Dev.safeAct (s : Dev) (b : Nat) (u : Option Nat) : Dev :=
  if b < 32 then s.rowSafe b
  else if b < 34 then s
  else if b < 66 then s.spcSafe (b - 34)
  else if b < 68 then s
  else if b < 70 then s.purgeHalf (b - 68)
  else if b < 72 then s
  else if b < 74 then s.aisleSafe
  else if b < 76 then (s.fabricPorts.filter (fun p => p / 256 == b - 74)).foldl (fun s p => s.linkFail p) s
  else if b < 78 then s
  else if b < 80 then s.unitSafe (b - 78) u
  else if b < 82 then s.xlatSafe (b - 80)
  else if b < 84 then s.controllerSafe (b - 82)
  else if b < 86 then s.slowClock (b - 84)
  else if b = 86 then s.tallyAbandon
  else s

/-- Block `b` enters its safe state (R338): SAFE, SAFE_CAUSE, the first block noted, one Uncorrectable Internal Error. A block in its
safe state already takes another cause only from a thermal trip and the device-wide safe state; blocks 78 and 79 take further
units. -/
def Dev.enterSafe (s : Dev) (b cause : Nat) (u : Option Nat := none) : Dev :=
  if s.safe b then
    let s1 := if cause = 3 ∨ cause = 5 then s.setF F.ERR_STATUS_SAFE_CAUSE cause b else s
    if b = 78 ∨ b = 79 then s1.safeAct b u else s1
  else
    let s1 := (s.setB F.ERR_STATUS_SAFE true b).setF F.ERR_STATUS_SAFE_CAUSE cause b
    let s2 := if s1.b F.FLT_STATUS_FIRST_VALID then s1
      else (s1.setF F.FLT_STATUS_FIRST_BLOCK b).setB F.FLT_STATUS_FIRST_VALID true
    (s2.safeAct b u).aerU .mgmtPf AER.uncorrectableInternal

/-- The device-wide safe state after the third failed vote (R393). -/
def Dev.deviceWideSafe (s : Dev) : Dev :=
  let s1 : Dev := ({ s with rst := { s.rst with deviceSafe := true } } : Dev).alertUpdate
  (List.range 88).foldl (fun s b => s.enterSafe b 5) s1

/-! ### Thermal trip (R340) -/

/-- The blocks that a thermal trip sends to their safe states. -/
def tripBlocks : List Nat := List.range 32 ++ [68, 69, 78, 79, 80, 81]

/-- A thermal trip: the safe states, then every switched domain off. A domain that was QUEUED or WAKING goes OFF with the others. -/
def Dev.trip (s : Dev) : Dev :=
  if s.rst.tripped then s
  else
    let s1 : Dev := { s with rst := { s.rst with tripped := true } }
    let s2 := tripBlocks.foldl (fun s b => s.enterSafe b 3) s1
    (List.range 206).foldl (fun s d =>
      let t := if s.b F.DOMAIN_CTL_PWR_EN d then s.setB F.DOMAIN_CTL_PWR_EN false d else s
      if t.power d = 0 then t else (t.setDomain d {}).domainSleep d) s2

/-! ### Parity (R341, R350) -/

/-- The error registers of a block, which carry SECDED. -/
def RegKind.isErrReg (k : RegKind) : Bool :=
  [.errStatus, .errEn, .errRoute, .errParityLog, .errInject, .memCorr, .memUncorr, .porterSafeUnits].contains k

/-- Bits of a register that parity covers: its RW, RWS, W1C and W1S fields. -/
def RegKind.covered (k : RegKind) : Word := k.info.rw ||| k.info.rws ||| k.info.w1c ||| k.info.w1s

/-- A parity fault of block `b` at the word at `off`, which lies in register `r` (R341). -/
def Dev.parityFault (s : Dev) (b off : Nat) (r : Option RegId) : Dev :=
  let s1 := (s.setF F.ERR_PARITY_LOG_OFFSET off b).setB F.ERR_PARITY_LOG_VALID true b
  s1.enterSafe b 1 (r.bind s1.unitOf)

/-- One bit of a register's dword changed by a particle: which one is a free value. -/
def Dev.upsetBit (s : Dev) (r : RegId) (hi : Bool) : Dev :=
  let k := s.freeVal.toNat % 32 + (if hi then 32 else 0)
  let v := s.reg r.kind r.i r.j ^^^ (BitVec.ofNat 64 (2 ^ k) &&& r.kind.covered)
  s.useFree.setReg r.kind v r.i r.j

/-- One bit of a dword of a shadow set changed by a particle: which one is a free value. -/
def Dev.upsetShadow (s : Dev) (t : TblId) (byte : Nat) : Dev :=
  let k := s.freeVal.toNat % 32
  let j := if t.kind = .bus then t.j + k / 16 else t.j
  let bit := if t.kind = .bus then k % 16 else k + 8 * byte
  s.useFree.setSh t.kind (s.sh t.kind t.i j ^^^ BitVec.ofNat 64 (2 ^ bit)) t.i j

/-- The word at `off` of block `b` is upset (R341): an error register corrects one bit of it, and two bits, `double`, send the block to its safe
state as a parity fault of another covered word does, of a shadow set too. What no offset names is a word of internal configuration: its logged
offset is a free value (log 144). Words of the active sets are memory (R342). -/
def Dev.upsetAt (s : Dev) (b off : Nat) (double : Bool) : Dev :=
  match targetMgmt (off / 4 * 4) with
  | .reg r hi =>
    if s.blockOf r ≠ b ∨ s.domReady r = false then s
    else if r.kind.isErrReg then
      if double then
        let s1 := s.inc .memUncorr 1 b
        (if s.safe b then s1.aerU .mgmtPf AER.uncorrectableInternal else s1).enterSafe b 2 (s.unitOf r)
      else (s.inc .memCorr 1 b).aerC .mgmtPf AER.correctedInternal
    else if (r.kind.covered >>> (if hi then 32 else 0)) &&& 0xFFFFFFFF = 0 then s
    else (s.upsetBit r hi).parityFault b (off / 4 * 4) (some r)
  | .tbl false t byte => if t.block s.ic = b then (s.upsetShadow t byte).parityFault b (off / 4 * 4) none else s
  | .nothing => s.useFree.parityFault b (s.freeVal.toNat % 2 ^ 26) none
  | _ => s

/-- The lowest of the dwords at `offs` of block `b` for which an injection is armed (R350). -/
def Dev.armedAt (s : Dev) (b : Nat) (offs : List Nat) : Option Nat := offs.find? (fun o => (s.errs.look {} b).parity.contains o)

/-- A word stored with wrong parity is used by its block, which finds it at once (R341, R350; DEDUCED, log 144): the injections of the dwords
written disarm. -/
def Dev.parityHit (s : Dev) (b : Nat) (offs : List Nat) (off : Nat) (r : Option RegId) : Dev :=
  let e := s.errs.look {} b
  ({ s with errs := s.errs.put {} b { e with parity := e.parity.filter (fun o => !offs.contains o) } } : Dev).parityFault b off r

/-- TEST_MODE deasserted: every injection that has not acted disarms (R350, R387). -/
def Dev.disarmAll (s : Dev) : Dev :=
  s.errs.foldl (fun s e => { s with errs := s.errs.put {} e.1 { bad := e.2.bad } }) s

end Sys2Proof.Machine
end

