-- ==== Sys2Proof/Machine/ResetOps.lean ====
section
/-! DEFINITION. Resets (R386-R391), the election of the half in charge (R392, R393), and what the fuses say (R399). -/

namespace Sys2Proof.Machine

/-! ### Lifecycle state (R399) -/

/-- Consecutive set bits from bit 0 of the AND of two copies: a die's state. -/
def dieStateOf (c0 c1 : BitVec 3) : Nat :=
  let a := c0 &&& c1
  if !a.getLsbD 0 then 0 else if !a.getLsbD 1 then 1 else if !a.getLsbD 2 then 2 else 3

/-- Die `h`'s state, from its fuse shadow. -/
def Dev.dieState (s : Dev) (h : Nat) : Nat :=
  dieStateOf (BitVec.ofNat 3 (s.f F.LC_FUSE_COPY0 h)) (BitVec.ofNat 3 (s.f F.LC_FUSE_COPY1 h))

/-- The device's state: the lower of its dies'. -/
def Dev.lifecycle (s : Dev) : Nat := min (s.dieState 0) (s.dieState 1)

/-- A bit is set in one copy only. -/
def Dev.burnPartial (s : Dev) : Bool :=
  s.f F.LC_FUSE_COPY0 0 != s.f F.LC_FUSE_COPY1 0 || s.f F.LC_FUSE_COPY0 1 != s.f F.LC_FUSE_COPY1 1

/-- The dies differ. -/
def Dev.lcSplit (s : Dev) : Bool := s.dieState 0 != s.dieState 1

/-- Fault injection acts (R350). -/
def Dev.mayInject (s : Dev) : Bool := s.lifecycle == 0 && s.rst.testMode

/-- A write of ERR_INJECT (R350). -/
def Dev.wrInject (s : Dev) (b : Nat) (v : Word) : Dev :=
  if v = 0 then s
  else if !s.mayInject then s.intErr b
  else
    let e := s.errs.look {} b
    let off := getBits v 6 26 * 4
    let e' := { e with
      parity := if getBits v 0 1 = 1 then e.parity ++ [off] else e.parity
      memCorr := e.memCorr || getBits v 1 1 == 1
      memUncorr := e.memUncorr || getBits v 2 1 == 1 }
    let s1 : Dev := { s with errs := s.errs.put {} b e' }
    if getBits v 3 1 = 1 then s1.enterSafe b 4 else s1

/-- The fuse shadow of half `h` loaded from its fuses (R392). -/
def Dev.loadShadow (s : Dev) (f : FuseSt) (h : Nat) : Dev :=
  let serial := if h = 0 then f.serialW else f.serialE
  let c0 := if h = 0 then f.w0 else f.e0
  let c1 := if h = 0 then f.w1 else f.e1
  ((s.setReg .dieSerial serial h).setF F.LC_FUSE_COPY0 c0.toNat h).setF F.LC_FUSE_COPY1 c1.toNat h

/-! ### Registers -/

/-- A register's value after a reset that keeps RWS fields and seal bits (R386). -/
def resetWord (r : RegId) (v : Word) : Word :=
  let keep := r.kind.info.rws ||| r.kind.info.w1s
  (v &&& keep) ||| (r.reset &&& ~~~keep)

/-- The registers that a reset reaches at their values after it; `keep` gives the bits of a register that stay. -/
def Dev.resetRegs (s : Dev) (reached : RegId → Bool) (keep : RegId → Word) : Dev :=
  { s with regs := s.regs.filterMap (fun e =>
      if reached e.1 then
        let k := keep e.1
        let v := (e.2 &&& k) ||| (resetWord e.1 e.2 &&& ~~~k)
        if v = e.1.reset then none else some (e.1, v)
      else some e) }

/-- Every bit of a register. -/
def allBits : Word := 0xFFFFFFFFFFFFFFFF

/-- Bits of a register that a device soft reset keeps beside RWS fields and seals: the slot registers of R388, the state of power
domains and clocks, sensors, the sampled straps and roles, the fuse shadow, FIRST_VALID, and the safe states of a thermal trip
(R340). -/
def Dev.softKeeps (s : Dev) (r : RegId) : Word :=
  match r.kind with
  | .spcCfg | .spcStatus | .spcMeas | .sbCtl | .slotCfg | .slotState | .domainState | .droopStatus | .thermStatus | .dieSerial
  | .lcFuse | .timeIncr | .baseIncr | .dbgDenied => allBits
  | .clkStatus => 0x3D
  | .fltStatus => 0x8000
  | .roleStatus => 0x7F
  | .bootStatus => 0x58
  | .errStatus => if s.rst.tripped && s.f F.ERR_STATUS_SAFE_CAUSE r.i == 3 then 0x3C else 0
  | .porterSafeUnits => if s.rst.tripped then allBits else 0
  | _ => 0

/-! ### Device soft reset (R386, R388, R391, R449) -/

/-- A slot through a device soft reset or a block reset of its Row (R388, R389): PERST_N at 0 in the next frame, an ON slot POWERING
with power already valid. -/
def Dev.slotReset (s : Dev) (p : Nat) : Dev :=
  let x := { s.slot p with perstN := false }
  if s.slotState p = 3 then (s.setF F.SLOT_STATE_STATE 2 p).setSlot p { x with valid := true } else s.setSlot p x

/-- The ports whose slot holds anything. -/
def Dev.slotPorts (s : Dev) : List Nat := (List.range 512).filter (fun p => s.slotEn p || decide (s.slot p ≠ {}))

/-- A slot channel that a reset reaches in its safe state returns to OFF (R363), from FET_FAULT too (DESIGN CHOICE, log 142). The hold-off of its
discharge runs on; a power-on that waits ends (R360). -/
def Dev.spcReset (s : Dev) (n : Nat) : Dev :=
  ((s.setF F.SPC_STATUS_STATE 0 n).setSpc n { holdoff := (s.spc n).holdoff }).spcPowerEnds n

/-- Device time's control returns to its reset values; with a source chosen that is a change of SRC (R449). -/
def Dev.timeReset (s : Dev) (src : Nat) : Dev := if src = 0 then s.plainIncr else s.srcChanged

/-- A device soft reset with cause `last`; `stage` is the boot stage it leaves. Register accesses that hold or await a management request slot
stay (R22). -/
def Dev.softReset (s : Dev) (last stage : Nat) : Dev :=
  let s0 := s.enabledPorts.foldl (fun s p => s.emit (.link p .disabled)) s
  let src := s.f F.TIME_CTL_SRC
  let count := (s.f F.RESET_STATUS_SOFT_COUNT + 1) % 65536
  let channels := (List.range 32).filter (fun n => s.safe (34 + n))
  let regs := (s0.resetRegs (fun _ => true) s.softKeeps).regs
  let groups := (List.range 32).filter (fun g => s.power (160 + g) == 2)
  let d : Dev := {
    out := s0.out, free := s.free, bindCount := s.bindCount, regs := regs
    cfg := s.cfg.filter (fun e => match e.1.fn with
      | .port _ => e.1.dw == slotCtlOff / 4
      | _ => false)
    jtag := s.jtag, slots := s.slots, chains := s.chains, spcs := s.spcs, domains := s.domains, clocks := s.clocks
    floor := { groups := groups.map (fun g => (g, { live := true })), wiping := true }
    rst := { s.rst with soft := true, wipe := true, blockBusy := none, image := none, sections := [], recIdx := 0, delaying := false
                        replay := none, polled := none
                        armTarget := 0, burnTarget := 0, subsys := 0 }
    mgmt := { dynAddr := s.mgmt.dynAddr, slots := s.mgmt.slots, waiting := s.mgmt.waiting, winWrite := s.mgmt.winWrite, winWide := s.mgmt.winWide
              winBusy := (s.mgmt.slots.filterMap (fun e => e.2) ++ s.mgmt.waiting).any (fun a => a.door == .i3c) }
    time := { tw := s.time.tw, te := s.time.te, ppsOut := s.time.ppsOut } }
  let d1 := s.slotPorts.foldl (fun d p => d.slotReset p) d
  let d2 := channels.foldl (fun d n => d.spcReset n) d1
  ((((d2.timeReset src).setF F.RESET_STATUS_LAST last).setF F.RESET_STATUS_SOFT_COUNT count).setB F.RESET_STATUS_WIPE_DONE false).setF
    F.BOOT_STATUS_STAGE stage

/-- The stage to which boot goes back after a soft reset: IMAGE with a half in charge, else ELECTION. -/
def Dev.bootStage (s : Dev) : Nat := if s.rst.elected then 2 else s.f F.BOOT_STATUS_STAGE

/-- `RESET_CTL.SOFT` (R388): refused in the device-wide safe state. -/
def Dev.softWrite (s : Dev) : Dev :=
  if s.rst.deviceSafe then s.setB F.RESET_STATUS_BLOCK_ERR true else s.softReset 2 s.bootStage

/-! ### Cold reset (R386, R387) -/

/-- Cold reset with cause `last`: every register and all logic. The pins' levels stay as they are, and so do the TAPs, which only TRST_N
resets (R443; log 105). -/
def Dev.coldReset (s : Dev) (last : Nat) : Dev :=
  let gates := (List.range 32).filter (fun n => s.spcState n == 1 || s.spcState n == 2)
  let s1 := gates.foldl (fun s n => (s.emit (.gate n false)).emit (.slotPg n false)) s.dropAccesses
  let d : Dev := {
    out := s1.out, free := s.free, bindCount := s.bindCount, jtag := s.jtag
    rst := { perstLow := s.rst.perstLow, supplies := s.rst.supplies, vddIo := s.rst.vddIo, testMode := s.rst.testMode } }
  d.setF F.RESET_STATUS_LAST last

/-- Half `h` holds itself in cold reset (R366, R386). -/
def Dev.coldHeld (s : Dev) (h : Nat) : Bool := s.rst.perstLow || !s.rst.supplies || !s.b F.CLK_STATUS_PLL_LOCK h

/-! ### Block reset (R389, R390) -/

/-- Held twin copies that wait in the Floor of half `h` leave their streams (R237). -/
def Dev.dropHeld (s : Dev) (h : Nat) : Dev :=
  let gone (x : StreamSt) : List Stored := (x.held.map Prod.snd).filter (fun st => st.d.half == h)
  let l := s.twin.streams.flatMap (fun e => gone e.2)
  let keep (x : StreamSt) : StreamSt := { x with held := x.held.filter (fun y => y.2.d.half != h) }
  ({ s with twin := { s.twin with streams := s.twin.streams.map (fun e => (e.1, keep e.2)) } } : Dev).discardAll l .ur

/-- The block's TLPs leave the Floor of half `h`: its egress points are purged, the twin copies that it holds are discarded with their class's
outcome, and pulses toward its bank groups are lost (R375). -/
def Dev.floorReset (s : Dev) (h : Nat) : Dev :=
  let ings := (List.range 576).filter (fun i => ingHalf i == h)
  let s1 := ings.foldl (fun s i => if s.vcsOf i = [] then s else s.unclaim i) ((s.purgeHalf h).dropHeld h)
  let s2 := (halfGroups h).foldl (fun s g => s.pulsesLost (160 + g)) s1
  s2.setPool 1000 0 ((s2.pool 1000 0).setHalf h { (s2.pool 1000 0).half h with covC := 0 })

/-- The bucket registers after a reset of their block: PATH 0, with what is in flight still on its old path (R133). -/
def Dev.bucketReset (s : Dev) (old : Dev) : Dev :=
  (old.regs.filter (fun e => e.1.kind == .bucket)).foldl (fun s e =>
    let n := getBits e.2 16 21
    if n = 0 then s
    else
      let eff := getBits e.2 5 4
      s.setReg .bucket ((e.2 &&& 0x1FFFFF03E0) ||| (if eff = 0 then 0 else 0x10)) e.1.i) s

/-- The schedulers of half `h` start afresh on the queues as they stand. -/
def Dev.schedReset (s : Dev) (h : Nat) : Dev :=
  (List.range 256).foldl (fun s k =>
    let p := 256 * h + k
    let s1 := if s.scheds.any (fun e => e.1 == p) then s.setSched p {} else s
    (List.range 8).foldl (fun s q =>
      match s.queue p q with
      | [] => s
      | st :: _ => s.activate p q (s.groupOf p st.d.hallPart)) s1) s

/-- The rings and records of the Stalls that a reset of block `78 + h` reaches, and the MSI-X tables and PBAs of those whose Porter, or lack of one,
puts their BAR0 in the block (R448). -/
def Dev.servicesReset (s : Dev) (h : Nat) : Dev :=
  let mine (st : Nat) : Bool := s.stallHalf st == h || s.ic == h
  let walk (w : XWaiter) : Bool := mine w.stall
  let s1 := ((s.xforget 0 walk).xforget 1 walk)
  let s2 : Dev := { s1 with
    rings := s1.rings.filter (fun e => !mine (e.1 / 8))
    stalls := s1.stalls.filter (fun e => !mine e.1)
    porters := s1.porters.filter (fun e => e.1 / 32 != h)
    msix := s1.msix.filter (fun e => !(decide (128 ≤ e.1) && s.stallHalf (e.1 / 64 - 2) == h))
    pba := s1.pba.filter (fun e => !(decide (2 ≤ e.1) && s.stallHalf (e.1 - 2) == h)) }
  let s3 := { s2 with ledger := { s2.ledger with cache := s2.ledger.cache.filter (fun e => e.1 / 4096 != h) } }
  if s.ic = h then { s3 with ledger := {} } else s3

/-- What a block's logic holds beside its registers, as its reset leaves it. -/
def Dev.blockLogic (s : Dev) (b : Nat) : Dev :=
  if b < 32 then
    let s0 := ((rowPorts b).filter (fun p => s.b F.PORT_CTL_EN p)).foldl (fun s p => s.portStop p) s
    let s1 := (rowPorts b).foldl Dev.failoverEnd s0
    let s2 := ((rowPorts b).filter (fun p => s.slotEn p)).foldl (fun s p => s.slotReset p) s1
    { s2 with rows := s2.rows.filter (fun e => e.1 != b), lanes := s2.lanes.filter (fun e => e.1 / 17 != b) }
  else if b < 34 then s.setChain (b - 32) { s.chain (b - 32) with bad := 0 }
  else if b < 66 then (if s.safe b then s.spcReset (b - 34) else s)
  else if b < 68 then s
  else if b < 70 then s.floorReset (b - 68)
  else if b < 72 then s
  else if b < 74 then s.aisleLost
  else if b < 76 then
    if s.ic = b - 74 then
      let held := s.inDevice.filter (fun st => st.pool == 5)
      let s1 := held.foldl (fun s st => s.freeStored st true) s
      { s1 with
        hall := {}, twin := {}
        shadow := s1.shadow.filter (fun e => !(e.1.kind == .tree || e.1.kind == .lockdom || e.1.kind == .twinPart))
        active := s1.active.filter (fun e => !(e.1.kind == .tree || e.1.kind == .lockdom || e.1.kind == .twinPart)) }
    else s
  else if b < 78 then s
  else if b < 80 then s.servicesReset (b - 78)
  else if b < 82 then
    let s1 := s.setXl (b - 80) {}
    if s.ic = b - 80 then { s1 with invs := [] } else s1
  else if b = 86 then { s with tally := {} }
  else s

/-- Bits of a register that a reset of its block keeps beside RWS fields and seals (R389, R390): the error registers but SAFE,
SAFE_CAUSE and the parity log; slots, chains and slot channels; the device-wide tables; GEN; clocks, domains and sensors; device
time. -/
def blockKeeps (r : RegId) : Word :=
  match r.kind with
  | .errStatus => 0x43
  | .errParityLog => 0
  | .errEn | .errRoute | .sbCtl | .slotCfg | .slotState | .spcMeas | .spcCfg | .spcStatus
  | .pitch | .partDefmap | .domainState | .droopStatus | .thermStatus | .timeIncr | .baseIncr | .fltStatus | .dbgDenied => allBits
  | .portStatus => 0xFFFF0000
  | .clkStatus => 0x3D
  | _ => 0

/-- What starts again in a block whose reset reached it, on its fresh registers. -/
def Dev.blockStarts (s : Dev) (b : Nat) (old : Dev) : Dev :=
  if b = 66 + s.ic then s.bucketReset old
  else if b < 68 then s
  else if b < 70 then
    let h := b - 68
    let groups := (halfGroups h).filter (fun g => (s.group g).live)
    let s1 := groups.foldl (fun s g => s.freshGroup g) (s.wipeBegins (some h))
    (((List.range 576).filter (fun i => ingHalf i == h)).foldl (fun s i => if s.vcsOf i = [] then s else s.cover i) s1).coverHold h
  else if b < 72 then s.schedReset (b - 70)
  else if b < 80 then s
  else if b < 82 then
    let x := old.xl (b - 80)
    let ws := (x.walks.flatMap (fun e => match e.2 with
      | some y => y.waiters
      | none => [])) ++ x.waitq.map Prod.fst
    ws.foldl (fun s w => s.wake w) s
  else if b = 86 then s.timeReset (old.f F.TIME_CTL_SRC)
  else s

/-- A block reset is refused (R389). -/
def Dev.blockRefused (s : Dev) (b : Nat) : Bool :=
  decide (87 ≤ b) || b == 82 + s.ic || s.f F.ERR_STATUS_SAFE_CAUSE b == 3 || s.rst.blockBusy.isSome || s.rst.soft || s.rst.deviceSafe

/-- The reset of block `b` (R389, R390): its logic and registers now, the replay when it ends. -/
def Dev.blockReset (s : Dev) (b : Nat) : Dev :=
  if s.blockRefused b then s.setB F.RESET_STATUS_BLOCK_ERR true
  else
    let s1 := s.blockLogic b
    let s2 := s1.resetRegs (fun r => s.blockOf r == b) blockKeeps
    let s3 := s2.blockStarts b s
    ({ s3 with
      errs := s3.errs.put {} b {}
      rst := { s3.rst with blockBusy := some b } } : Dev).setB F.RESET_STATUS_BLOCK_BUSY true

/-! ### Votes (R392, R393) -/

/-- A vote succeeds: half `w` is in charge, by its strap or its serial number. STANDOFF ends; a half that was in charge before a
dispute and lost it is taken over. -/
def Dev.voteWon (s : Dev) (w by' : Nat) : Dev :=
  let s1 := (s.setF F.ROLE_STATUS_VOTE_BY by').setB F.ROLE_STATUS_STANDOFF false
  if s.rst.elected then (if s.ic = w then s1.alertUpdate else s1.takeover)
  else
    { (s1.setF F.ROLE_STATUS_IN_CHARGE w).setF F.BOOT_STATUS_STAGE 2 with rst := { s1.rst with elected := true } }

/-- A vote fails: STANDOFF, and the third time the device-wide safe state. -/
def Dev.voteLost (s : Dev) : Dev :=
  let n := min (s.f F.ROLE_STATUS_VOTES_FAILED + 1) 3
  let s1 := ((s.setF F.ROLE_STATUS_VOTES_FAILED n).setB F.ROLE_STATUS_STANDOFF true).alertUpdate
  if n = 3 then s1.deviceWideSafe else s1

/-- The strap vote (R392). Of two halves one may still be held in cold reset: the other, its fuse shadow loaded, gets no answer, and the vote
fails. -/
def Dev.strapVote (s : Dev) (answered : Bool) : Dev :=
  if s.f F.BOOT_STATUS_STAGE = 0 ∧ answered = false ∧ s.rst.elected = false ∧ s.f F.ROLE_STATUS_VOTES_FAILED = 0
      ∧ (s.rst.shadowW.isSome ∨ s.rst.shadowE.isSome) then (s.setF F.BOOT_STATUS_STAGE 1).voteLost
  else if s.f F.BOOT_STATUS_STAGE = 1 ∧ s.rst.elected = false ∧ s.f F.ROLE_STATUS_VOTES_FAILED = 0 then
    let w := s.b F.ROLE_STATUS_STRAP_W && s.rst.shadowW == some true
    let e := s.b F.ROLE_STATUS_STRAP_E && s.rst.shadowE == some true
    if answered && (w != e) then s.voteWon (b2n e) 0 else s.voteLost
  else s

/-- A serial-number vote in STANDOFF (R393). -/
def Dev.serialVote (s : Dev) (sentW sentE answered : Bool) : Dev :=
  if s.b F.ROLE_STATUS_STANDOFF && !s.rst.deviceSafe then
    let w := s.reg .dieSerial 0
    let e := s.reg .dieSerial 1
    if sentW && sentE && answered && s.rst.shadowW == some true && s.rst.shadowE == some true && w != e then
      s.voteWon (if w.toNat < e.toNat then 0 else 1) 1
    else s.voteLost
  else s

/-- No heartbeat for 100 µs (R394): the standby takes charge, or the halves are in dispute. A standby whose controller is stopped or in
reset does not claim (R402). -/
def Dev.heartbeatLost (s : Dev) (disputed : Bool) : Dev :=
  let other := 83 - s.ic
  if s.rst.elected && !s.b F.ROLE_STATUS_STANDOFF && !s.rst.deviceSafe && !s.safe other && s.rst.blockBusy != some other then
    if disputed then (s.setB F.ROLE_STATUS_STANDOFF true).alertUpdate else s.takeover
  else s

/-! ### Lifecycle transitions (R400, R401) -/

/-- A door from which lifecycle requests are accepted (R400). -/
def Dev.lcDoor (s : Dev) (d : Door) : Bool :=
  match d with
  | .mgmtPf | .i3c => decide (s.lifecycle < 3)
  | .debug => s.lifecycle == 0
  | .controller => decide (s.lifecycle < 3)

/-- TARGET is one that a GO may name: the next state, or with a partial burn or a split the state reported. -/
def Dev.lcTarget (s : Dev) (t : Nat) : Bool :=
  (t == s.lifecycle + 1) || ((s.burnPartial || s.lcSplit) && t == s.lifecycle)

/-- `LC_CTL.ARM` (R401). -/
def Dev.lcArm (s : Dev) (t : Nat) : Dev :=
  ({ s with rst := { s.rst with armTarget := t } } : Dev).setB F.LC_CTL_ARMED true

/-- `LC_CTL.GO` (R401): the burn begins, or LC_ERR. TARGET is that of the last ARM. -/
def Dev.lcGo (s : Dev) (t : Nat) : Dev :=
  let ok := s.b F.LC_CTL_ARMED && s.rst.armTarget == t && s.lcTarget t && !s.rst.testMode && !s.rst.wipe && s.rst.blockBusy.isNone
    && !s.b F.LC_CTL_BUSY && !s.b F.ROLE_STATUS_STANDOFF && !s.safe 87 && !s.rst.deviceSafe
  if ok then
    { (s.setB F.LC_CTL_ARMED false).setB F.LC_CTL_BUSY true with rst := { s.rst with burnTarget := t } }
  else s.setB F.LC_CTL_LC_ERR true

/-- The code of a lifecycle state. -/
def lcCode (t : Nat) : BitVec 3 := if t = 0 then 0 else if t = 1 then 1 else if t = 2 then 3 else 7

/-- The first `n` of the four copies burned to a code, in the order of R401: no bit is ever cleared. -/
def FuseSt.burn (f : FuseSt) (c : BitVec 3) (n : Nat) : FuseSt :=
  { f with
    w0 := if 1 ≤ n then f.w0 ||| c else f.w0
    w1 := if 2 ≤ n then f.w1 ||| c else f.w1
    e0 := if 3 ≤ n then f.e0 ||| c else f.e0
    e1 := if 4 ≤ n then f.e1 ||| c else f.e1 }

end Sys2Proof.Machine
end

