-- ==== Sys2Proof/Machine/EvqOps.lean ====
section
/-! DEFINITION. Reading the event queue (R411-R415). -/

namespace Sys2Proof.Machine

/-- `EVQ_STATUS` (R411, R414): words in the chain, ALERT_N, a record partly read, records waiting. The current record is one whose
first word has been removed. -/
def Dev.evqStatus (s : Dev) : Word :=
  if s.served then
    BitVec.ofNat 64 (s.evq.words + 64 * b2n s.evq.alert + 128 * b2n (!s.evq.current.isEmpty) + 256 * s.evq.backlog.length)
  else 0

/-- Records that read with an uncorrectable error are dropped as the queue comes to them (R342). -/
def Dev.evqSound (s : Dev) : Nat → Dev
  | 0 => s
  | n + 1 =>
    if s.evq.current.isEmpty then
      match firstPrio s.evq.chain with
      | some i =>
        let r := s.evq.chain.getD i []
        match s.badWord (82 + s.ic) (fun w => decide (w = .record r)) with
        | some w => (({ s with evq := { s.evq with chain := s.evq.chain.eraseIdx i } } : Dev).badFound (82 + s.ic) w).evqSound n
        | none => s
      | none => s
    else s

/-- The record that a read presents (R412): the current one, else that of lowest PRIO, the oldest of them, which leaves the whole ones
in the chain. -/
def Dev.evqPick (s : Dev) : Dev :=
  if s.evq.current.isEmpty then
    match firstPrio s.evq.chain with
    | some i => { s with evq := { s.evq with current := s.evq.chain.getD i [], chain := s.evq.chain.eraseIdx i } }
    | none => s
  else s

/-- The record that a read presents, after those that read with an uncorrectable error (R342, R412). -/
def Dev.evqSelect (s : Dev) : Dev := (s.evqSound s.evq.chain.length).evqPick

/-- The word that EVQ_DATA reads; 0 while no half serves the queue or the chain is empty (R407, R412). -/
def Dev.evqPeek (s : Dev) : BitVec 32 := if s.served then s.evq.current.headD 0 else 0

/-- Records of the backlog drained into the room that a removal made. -/
def Dev.evqRefill (s : Dev) : Dev := { s with evq := EvqSt.drain s.evq 256 }.alertUpdate

/-- The word presented is removed: the read of byte 3 (R408, R411). -/
def Dev.evqPop (s : Dev) : Dev :=
  if s.served then
    match s.evq.current with
    | _ :: t => ({ s with evq := { s.evq with current := t } } : Dev).evqRefill
    | [] => s
  else s

/-- A whole read of EVQ_DATA (R412). -/
def Dev.evqRead (s : Dev) : Dev := if s.served then (s.evqSelect).evqPop else s

/-- DROP_REST (R415): the words of the current record that have not been read. -/
def Dev.evqDropRest (s : Dev) : Dev :=
  if s.served && !s.evq.current.isEmpty then ({ s with evq := { s.evq with current := [] } } : Dev).evqRefill else s

/-- FLUSH (R415): the chain and the backlog emptied, every record counted. -/
def Dev.evqFlush (s : Dev) : Dev :=
  if s.served then
    let n := s.evq.chain.length + s.evq.backlog.length + (if s.evq.current.isEmpty then 0 else 1)
    (({ s with evq := { s.evq with chain := [], current := [], backlog := [] } } : Dev).inc .evqFlushed n).alertUpdate
  else s

/-- A write of EVQ_CMD. -/
def Dev.wrEvqCmd (s : Dev) (v : Word) : Dev :=
  let s1 := if getBits v 0 1 = 1 then s.evqDropRest else s
  if getBits v 1 1 = 1 then s1.evqFlush else s1

/-- A write of EVQ_WM: ALERT_N follows the new levels (R414). -/
def Dev.wrEvqWm (s : Dev) (v : Word) : Dev := (s.setReg .evqWm (v &&& 0x3F3F)).alertUpdate

end Sys2Proof.Machine
end

