-- ==== Sys2Proof/Machine/DedupOps.lean ====
section
/-! DEFINITION. TLPs for delivery on this member: what becomes of them at their turn (R114, R116), deduplication of Twin Hall copies (R236-R240),
and what a command leaves to be done at fabric and twin ports (R163, R229, R242, R243). -/

namespace Sys2Proof.Machine

/-! ### Delivery (R114, R116) -/

/-- A TLP bound for delivery on this member acts as its decision says (R114 item 4, R116): linked onto its egress queue, a configuration request
to a service function executed (R79), or refused. -/
def Dev.actHere (s : Dev) (st0 : Stored) : Dev :=
  let st : Stored := { st0 with twin := none }
  match st.d.action with
  | 0 => s.intoFloor (s.withPool st)
  | 4 => (s.returnCredit st).cfgRequest st.d.part st
  | a => (s.countRefused st.ingress { act := a, silent := true } st.tlp).refuse st a

/-- A held copy delivered: it leaves the hold pool, with its cells where it has an egress queue (R116, R237). -/
def Dev.deliverCopy (s : Dev) (st : Stored) : Dev :=
  if st.d.action = 0 then
    (s.chargePool st st.cells.length false).link1 { st with twin := none, pool := 6, creditKind := 2 }
  else (s.freeStored st true).actHere { st with cells := [], pool := 4 }

/-! ### Deduplication (R236-R239) -/

/-- Held copies that have become next delivered in order (R236). -/
def Dev.deliverNext (s : Dev) (k : Nat) : Nat → Dev
  | 0 => s
  | n + 1 =>
    let x := s.stream k
    match x.next with
    | none => s
    | some nx =>
      match x.held.find? (fun h => h.1 == nx) with
      | none => s
      | some h => ((s.setStream k ({ x with held := x.held.erase h }.to ((nx + 1) % 2 ^ 24))).deliverCopy h.2).deliverNext k n

/-- Held copies in sequence order from number `base` on. -/
def inSequence (base : Nat) (l : List (Nat × Stored)) : List (Nat × Stored) :=
  l.mergeSort (fun a b => decide ((a.1 + 2 ^ 24 - base) % 2 ^ 24 ≤ (b.1 + 2 ^ 24 - base) % 2 ^ 24))

/-- Every held copy of a record delivered in sequence order, and the record cleared (R239). -/
def Dev.clearStream (s : Dev) (k : Nat) : Dev :=
  let x := s.stream k
  (inSequence (x.next.getD 0) x.held).foldl (fun s h => s.deliverCopy h.2) (s.setStream k {})

/-- The records of a member's streams cleared (R239). -/
def Dev.clearStreamsOf (s : Dev) (m : Nat) : Dev :=
  (s.twin.streams.filterMap (fun e => if e.1 / 4096 = m then some e.1 else none)).foldl Dev.clearStream s

/-- The gap at NEXT given up while a copy is held (R238): every number before the first held copy, one expiry at a time. -/
def Dev.gapExpire (s : Dev) (k : Nat) : Dev :=
  let x := s.stream k
  if x.held.isEmpty then s else (s.giveUp k 1).deliverNext k x.held.length

/-- NEXT passes number `n`, and held copies that become next are delivered. -/
def Dev.streamPast (s : Dev) (k n : Nat) : Dev :=
  let s1 := s.setStream k ((s.stream k).to ((n + 1) % 2 ^ 24))
  s1.deliverNext k (s1.stream k).held.length

/-- A copy whose number is next delivered, and those that become next with it. -/
def Dev.deliverNow (s : Dev) (k n : Nat) (st : Stored) : Dev := (s.actHere st).streamPast k n

/-- A copy that must wait for its turn (R237): its cells come from the hold pool of its egress half, and its credit goes back; with no
room it is discarded. -/
def Dev.holdCopy (s : Dev) (k n : Nat) (st : Stored) : Dev :=
  let y := (s.pool 1000 0).half st.d.half
  let s0 := s.returnCredit st
  if y.heldC + cellsOf (tlpLen st.tlp) ≤ y.covC then
    let (s1, st1) := s0.take { st with pool := 5, creditKind := 2 }
    let x := s1.stream k
    s1.setStream k { x with held := x.held ++ [(n, st1)] }
  else s0.inc .holdFull

/-- A duplicate (R236, R238). -/
def Dev.dupCopy (s : Dev) (k n : Nat) (st : Stored) : Dev :=
  let s1 := (s.returnCredit st).inc .dupDrop
  if (s.stream k).gaveUp n then s1.inc .lateDrop else s1

/-- Number `n` is delivered at once by record `x` (R236). -/
def StreamSt.nextIs (x : StreamSt) (n : Nat) : Bool := match x.next with
  | none => true
  | some nx => n == nx

/-- A copy with TWIN set that is bound for delivery on this member (R236). -/
def Dev.dedup (s : Dev) (st : Stored) (n : Nat) : Dev :=
  let k := streamNo st.src st.d.bucket
  let x := s.stream k
  match x.next with
  | none => s.deliverNow k n st
  | some nx =>
    let d := (n + 2 ^ 24 - nx) % 2 ^ 24
    if d = 0 then s.deliverNow k n st
    else if 2 ^ 23 ≤ d then s.dupCopy k n st
    else if d ≤ 4095 then (if x.held.any (fun h => h.1 == n) then s.dupCopy k n st else s.holdCopy k n st)
    else
      let s1 := s.giveUp k d
      let s2 := (inSequence nx x.held).foldl (fun s h => s.deliverCopy h.2) (s1.setStream k { s1.stream k with held := [] })
      s2.deliverNow k n st

/-! ### What a command leaves to be done at fabric and twin ports -/

/-- After a command: TWIN_CHECKs sent, and DEGRADED and PART_MISMATCH; a change of these raises the Hall block's interrupt (R229, R243). -/
def Dev.twinUpdate (s0 : Dev) : Dev :=
  let s := s0.twinChecks
  let d := s.twinDegraded
  let m := s.twinMismatch
  if s.twin.degraded = d ∧ s.twin.mismatch = m then s
  else { s with twin := { s.twin with degraded := d, mismatch := m } }.pulse (74 + s.ic)

end Sys2Proof.Machine
end

