-- ==== Sys2Proof/Machine/Hall.lean ====
section
/-! DEFINITION. The Hall's and the Twin Hall's commands (R191-R243): claims and heartbeats, fabric links, failover, the Hall
Commit, locks, twin checks and stream resets. -/

namespace Sys2Proof.Machine

/-- What a command answers that may change the state of a twin port or the active TWIN_PART. -/
def State.doneTwin (s : State) (d : Dev) : Host.Outcome State Fault Refusal := s.done d.twinUpdate

/-! ### The master's role (R192-R195) -/

/-- A write of HALL_CTL (R191, R192). Clearing EN discards what a master has staged here, or this master for itself, and what a member that joins
holds of its tables. -/
def Dev.wrHallCtl (s : Dev) (v : Word) : Dev :=
  if s.fabricPorts.isEmpty then
    let was := s.b F.HALL_CTL_EN
    let err := s.b F.HALL_CTL_HALL_CFG_ERR && !v.getLsbD 29
    let s1 := s.setReg .hallCtl ((v &&& 0x1FFFFFFF) ||| (if err then 0x20000000 else 0))
    let on := s1.b F.HALL_CTL_EN
    if on && !was then
      let s2 := ((s1.setB F.HALL_STATUS_IS_MASTER false).setB F.HALL_STATUS_CURRENT false).setF F.HALL_STATUS_MASTER_NOW s1.me
      { s2.setF F.HALL_STATUS_MEMBERS (2 ^ s2.me) with hall := { high := s1.hall.high, fresh := s1.hall.fresh } }
    else if was && !on then
      let joins := s.hall.asked && !s.b F.HALL_STATUS_CURRENT
      let s2 := if s.hall.staged.isEmpty && s.f F.HALL_STATUS_PHASE == 0 && !joins then s1 else { s1 with shadow := s1.active }
      let s3 := (s2.setB F.HALL_COMMIT_REC_VALID false).setF F.HALL_STATUS_PHASE 0
      { s3 with hall := { high := s1.hall.high, fresh := s1.hall.fresh } }
    else s1
  else s.setB F.HALL_CTL_HALL_CFG_ERR true

/-- The member may claim (R193): the MASTER_ID member after its first fabric port reached JOIN, the standby while it had a
master. -/
def Dev.mayClaim (s : Dev) : Bool :=
  s.b F.HALL_CTL_EN && !s.b F.HALL_STATUS_IS_MASTER && s.hall.claim.isNone &&
    ((s.me == s.f F.HALL_CTL_MASTER_ID && s.fabricPorts.any (fun p => decide (4 ≤ s.nstate p)))
      || (s.me == s.f F.HALL_CTL_STANDBY_ID && s.hall.hasMaster && !s.hall.fresh))

/-- A claim (R193, R194): its epoch is one above the highest known; the old master counts as gone, and CLAIM_ACKs are collected. -/
def Dev.claimStart (s : Dev) : Dev :=
  let e := s.highEpoch + 1
  let old := s.f F.HALL_STATUS_MASTER_NOW
  let s1 := if s.hall.hasMaster ∧ old ≠ s.me then s.setMember old false else s
  let s2 := s1.acceptMaster s1.me e
  ({ s2 with hall := { s2.hall with
      claim := some [], asked := true, high := s.highEpoch, old := if s.hall.hasMaster ∧ old ≠ s.me then some old else none } }).sendBcast 0x11 e s2.hall.tag []

/-- MASTER_CLAIM_TIMEOUT (R193). -/
def execMasterClaimTimeout (s : State) : Host.Outcome State Fault Refusal :=
  s.doneTwin (if s.dev.mayClaim then s.dev.claimStart else s.dev)

/-- Lock domains that this member's ports hold, as bits. -/
def Dev.heldDomains (s : Dev) : Nat :=
  ((s.links.filterMap (fun e => if e.2.locked then some (s.lockDomain (s.hallPart (s.f F.PORT_CTL_PART e.1))) else none)).dedup.map
    (fun d => 2 ^ d)).foldl (· + ·) 0

/-- CLAIM_ACK (R211): the recorded epoch, whether it is recorded and applied, the lock domains held. Its EPOCH is the sender's own (R202; DEDUCED,
log 126). -/
def Dev.claimAnswer (s : Dev) (dst tag : Nat) : Dev :=
  let r := s.b F.HALL_COMMIT_REC_VALID
  let e := s.f F.HALL_COMMIT_REC_EPOCH
  s.sendTree dst 0x12 s.epoch tag (leBytes e 4 ++ leBytes (b2n r + 2 * b2n (r && s.epoch == e)) 1 ++ [0] ++ leBytes s.heldDomains 2)

/-- A member that is not CURRENT joins once it knows a master (R215). -/
def Dev.joinMaster (s : Dev) : Dev :=
  if s.b F.HALL_STATUS_CURRENT || s.hall.asked then s else s.askTables

/-- A claim received (R194): accepted without a master, at a higher epoch, or at the same epoch from a lower member ID. A master
or claimant that loses gives up its role and rejoins; a member that joins asks the new master for its tables (R215). -/
def Dev.claimSeen (s : Dev) (src epoch tag : Nat) : Dev :=
  if s.hall.hasMaster = false ∨ s.hall.lastHb < epoch ∨ (s.hall.lastHb = epoch ∧ src < s.f F.HALL_STATUS_MASTER_NOW) then
    let lost := s.b F.HALL_STATUS_IS_MASTER || s.hall.claim.isSome
    let s1 := s.acceptMaster src epoch
    let s2 : Dev := { s1 with hall := { s1.hall with
      claim := none, form := false, tableReqs := [], asked := s1.hall.asked && s.f F.HALL_STATUS_MASTER_NOW == src } }
    let s3 := s2.claimAnswer src tag
    if lost then
      let s4 := ((s3.raise F.HALL_STATUS_CLAIM_LOST s3.ic).setCurrent false)
      { s4 with hall := { s4.hall with inCommit := [], waits := [], edits := [], editQ := [], lockReqs := [] } }.askTables
    else s3.joinMaster
  else s

/-- MASTER_CLAIM (R194). -/
def execMasterClaim (m : MsgHdr) (s : State) : Host.Outcome State Fault Refusal :=
  s.doneTwin (s.dev.onBcast m 0x11 0 [] (fun d => d.claimSeen m.src m.epoch.toNat m.tag.toNat))

/-- CLAIM_ACK (R194): recorded while the claimant collects. -/
def execClaimAck (m : MsgHdr) (recEpoch : BitVec 32) (recorded applied : Bool) (held : BitVec 16) (s : State) :
    Host.Outcome State Fault Refusal :=
  s.done (s.dev.onMsg m (fun d =>
    match d.hall.claim with
    | some l =>
      let e : ClaimAck := { m := m.src.val, recd := if recorded then some recEpoch.toNat else none, applied := applied
                            held := held.toNat, epoch := m.epoch.toNat }
      { d with hall := { d.hall with claim := some (l.filter (fun x => x.m != m.src.val) ++ [e])
                                     high := max d.hall.high (max m.epoch.toNat (if recorded then recEpoch.toNat else 0)) } }
    | none => d))

/-- The lock table rebuilt from CLAIM_ACKs (R218). A member reports the domains it holds, not the ports, and a remote holder's port
is a free value (log 24). -/
def Dev.rebuildLocks (s : Dev) (l : List ClaimAck) : Dev :=
  let s0 := (List.range 16).foldl (fun s d => s.setReg .lockState 0 d) s
  let s1 := s0.links.foldl (fun s e =>
    if e.2.locked then
      let d := s.lockDomain (s.hallPart (s.f F.PORT_CTL_PART e.1))
      ((s.setB F.LOCK_STATE_HELD true d).setF F.LOCK_STATE_MEMBER s.me d).setF F.LOCK_STATE_PORT e.1 d
    else s) s0
  l.foldl (fun s x =>
    ((List.range 16).filter (fun d => x.held.testBit d && !s.b F.LOCK_STATE_HELD d)).foldl (fun s d =>
      (((s.setB F.LOCK_STATE_HELD true d).setF F.LOCK_STATE_MEMBER x.m d).setF F.LOCK_STATE_PORT (s.freeVal.toNat % 512) d).useFree) s) s1

/-- A member took part in the commit to epoch `x` and has not applied it: it recorded it, or stands one epoch before it. -/
def ClaimAck.behind (a : ClaimAck) (x : Nat) : Bool := !(a.recd == some x && a.applied) && (a.recd == some x || a.epoch + 1 == x)

/-- A member rejoins under R215 and has no part in the commit to epoch `x`: it answered with an earlier epoch, for it has been reset. -/
def rejoins (l : List ClaimAck) (x m : Nat) : Bool :=
  match l.find? (fun a => a.m == m) with
  | some a => a.recd != some x && decide (a.epoch + 1 < x)
  | none => false

/-- A commit that the last master left unfinished is settled (R216): completed if some member applied it or more than half of the members other
than that master recorded it, COMMIT to those without a record and then APPLY to all; else aborted. Records of a commit that no member is behind
are of one that was finished. CLAIM_ACK does not tell of a stage: ABORT goes to every member wherever a master came before (DEDUCED, log 126). -/
def Dev.settleCommit (s : Dev) (l : List ClaimAck) : Dev :=
  let rec1 := s.b F.HALL_COMMIT_REC_VALID
  let e := s.f F.HALL_COMMIT_REC_EPOCH
  let mine : ClaimAck := { m := s.me, recd := if rec1 then some e else none, applied := rec1 && s.epoch == e, held := 0, epoch := s.epoch }
  let all := mine :: l
  let x := (all.filterMap ClaimAck.recd).foldl max 0
  let recs := all.filter (fun a => a.recd == some x)
  let unsettled := !recs.isEmpty && all.any (fun a => a.behind x)
  let votes := recs.filter (fun a => some a.m != s.hall.old)
  let voters := s.members.filter (fun m => some m != s.hall.old)
  let others := s.members.erase s.me
  let before := decide (s.f F.HALL_STATUS_PHASE ≠ 0) || !s.hall.staged.isEmpty || s.hall.prepared || s.hall.old.isSome
    || l.any (fun a => decide (a.epoch ≠ 0))
  let s1 : Dev := ({ s with hall := { s.hall with target := x, inCommit := others, tag := s.hall.tag + 1, old := none } } : Dev).setF
    F.HALL_STATUS_PHASE 0
  if unsettled && (recs.any ClaimAck.applied || decide (voters.length < 2 * votes.length)) then
    let part := others.filter (fun m => !rejoins all x m)
    let need := part.filter (fun m => !all.any (fun a => a.m == m && (a.recd == some x || a.epoch == x)))
    let s2 := need.foldl (fun s m => s.phaseMsg m 0x25) s1
    let s3 := ((s2.setF F.HALL_COMMIT_REC_EPOCH x).setB F.HALL_COMMIT_REC_VALID true).setF F.HALL_STATUS_PHASE 3
    { s3 with hall := { s3.hall with inCommit := part, waits := need } }.commitNext 6
  else if before then s1.commitAbort
  else s1

/-- The claimant is master (R194, R205): members, locks and buckets' paths, the TABLE_REQs that came meanwhile (R215), the settlement, and a Hall
Commit after it. -/
def Dev.claimDone (s : Dev) (l : List ClaimAck) : Dev :=
  let s1 := (s.setB F.HALL_STATUS_IS_MASTER true).setCurrent true
  let s2 := l.foldl (fun s a => s.setMember a.m true) (s1.setMember s1.me true)
  let s3 := (List.range 4096).foldl (fun s b => s.wrPath b (b % 16)) (s2.rebuildLocks l)
  let s4 : Dev := { s3 with hall := { s3.hall with claim := none, form := true, high := s3.highEpoch } }
  (s4.answerTableReqs.settleCommit l).commitFollow

/-- CLAIM_COLLECTION_DONE (R194). -/
def execClaimCollectionDone (s : State) : Host.Outcome State Fault Refusal :=
  s.doneTwin (match s.dev.hall.claim with
    | some l => s.dev.claimDone l
    | none => s.dev)

/-- HEARTBEAT_SEND (R195). -/
def execHeartbeatSend (s : State) : Host.Outcome State Fault Refusal :=
  let d := s.dev
  s.done (if d.b F.HALL_CTL_EN && d.b F.HALL_STATUS_IS_MASTER && !d.safe (74 + d.ic) then
    { d with hall := { d.hall with lastHb := d.epoch } }.sendBcast 0x10 d.epoch d.hall.tag (leBytes (d.f F.HALL_STATUS_MEMBERS) 2)
  else d)

/-- A heartbeat (R195): the master's, or the first one that a member without a master hears. -/
def Dev.heartbeatSeen (s : Dev) (src epoch members : Nat) : Dev :=
  if s.b F.HALL_STATUS_IS_MASTER || s.hall.claim.isSome then s
  else if s.hall.hasMaster = false ∨ src = s.f F.HALL_STATUS_MASTER_NOW then
    let s1 := s.acceptMaster src epoch
    ((List.range 16).foldl (fun s m => s.setMember m (members.testBit m)) s1).joinMaster
  else s

/-- HEARTBEAT (R195). -/
def execHeartbeat (m : MsgHdr) (members : BitVec 16) (s : State) : Host.Outcome State Fault Refusal :=
  s.doneTwin (s.dev.onBcast m 0x10 0 (leBytes members.toNat 2) (fun d => d.heartbeatSeen m.src m.epoch.toNat members.toNat))

/-! ### Fabric links (R196-R199, R203, R206, R207) -/

/-- A fabric link reached L0 as R196 does not allow: counted, and retrained or disabled after the third attempt. -/
def Dev.trainFailed (s : Dev) (p : Nat) : Dev :=
  let n := s.f F.NERUP_STATUS_TRAIN_TRIES p + 1
  let s1 := (s.setB F.NERUP_STATUS_RATE_FAIL true p).setF F.NERUP_STATUS_TRAIN_TRIES n p
  if 3 ≤ n then (s1.setF F.PORT_STATUS_LTSSM 8 p).emit (.link p .disabled) else s1.emit (.link p .retrain)

/-- A fabric link in L0 at its final rate: the state HELLO, sequence numbers and counters from the start (R196, R197). Control messages
that wait stay, but for an old HELLO. -/
def Dev.fabricUp (s : Dev) (p rate width : Nat) : Dev :=
  let s0 := s.portUp p width rate true
  let s1 : Dev := { s0 with nerup := s0.nerup.map (fun e => (e.1, { e.2 with
    ctlWait := e.2.ctlWait.map (fun w => if w.2 = some p then (w.1, none) else w) })) }
  let x := s1.nerupOf p
  (((s1.setNerup p { failed := x.failed, hold := x.hold, ctlQ := x.ctlQ.filter (fun m => m.mtype != 1), ctlWait := x.ctlWait }).setF
    F.NERUP_STATUS_TRAIN_TRIES 0 p).toState p 2).sendHello p

/-- NERUP_LINK_TRAINED (R196): not with the LTSSM Disabled. A FAILED port, whose LTSSM has passed through Detect, is TRAINING first (R197). A
link that leaves Recovery sends each counter, for what changed there (R203). -/
def execNerupLinkTrained (p : Fin 512) (rate : Fin 7) (width : Fin 17) (flit proto : Bool) (s : State) :
    Host.Outcome State Fault Refusal :=
  let d := s.dev
  s.doneTwin (if d.isFabric p && d.lanesReady p && (d.nstate p == 1 || d.nstate p == 7) && d.f F.PORT_STATUS_LTSSM p != 8
      && d.widthOk p width && decide (rate.val ≤ d.maxRate p) then
    (let d1 := if d.nstate p == 7 then d.toState p 1 else d
     if !proto || decide (rate.val < 5) || !flit || decide (width.val < 4) then d1.trainFailed p else d1.fabricUp p rate width)
  else if d.isFabric p && decide (2 ≤ d.nstate p) && decide (d.nstate p ≤ 5) && d.f F.PORT_STATUS_LTSSM p == 4 && d.widthOk p width then
    ((d.backToL0 p width rate).sendIdle p (crdRotation 1)).ctlRun p
  else d)

/-- The HELLO is of the Hall, or the Twin, that the port belongs to (R198, R226). -/
def Dev.helloOk (s : Dev) (m : MsgHdr) : Bool :=
  if s.isTwinPort m.port then m.hallId.toNat == s.f F.TWIN_CTL_TWIN_HALL_ID && m.src.val == s.me
  else m.hallId.toNat == s.f F.HALL_CTL_HALL_ID && m.src.val != s.me

/-- A HELLO that matches (R197): the peer is known; on the first, credits are advertised in the full rotation, sent twice; RESET drops the peer
from a commit. -/
def Dev.helloIn (s : Dev) (p src peerPort : Nat) (reset current : Bool) : Dev :=
  let s1 := (s.setF F.NERUP_STATUS_PEER_MEMBER src p).setF F.NERUP_STATUS_PEER_PORT peerPort p
  let s2 := s1.setNerup p { s1.nerupOf p with gotCur := current }
  let s3 := if s2.nstate p = 2 then
      (((s2.setNerup p { s2.nerupOf p with unseen := List.range 65 }).advertiseAll p).toState p 3).sendIdle p (crdRotation 2)
    else s2
  let s4 := if reset && s3.isMaster && !s3.isTwinPort p then (s3.dropFromCommit src).commitFollow else s3
  s4.tryActive p

/-- What port `p` queues moves to its alternate links, as at a failure (R208). -/
def Dev.moveQueued (s : Dev) (p : Nat) : Dev :=
  let l := s.queuedOf p
  if l.isEmpty then s else l.foldl (fun s st => s.moveOne p st) (s.clearQueues p)

/-- A HELLO that does not match (R198): LTSSM Disabled, STATE DOWN; a wrong HALL_ID counts (R211). A link that had reached JOIN fails with it
(R207 item 2): its TLPs move first, and DOWN follows the move (DEDUCED, log 126); before that nothing has been sent on it, and what it queues
moves at once. -/
def Dev.helloWrong (s : Dev) (p : Nat) (idWrong : Bool) : Dev :=
  let s1 := if idWrong then s.inc .hallMsgDrop else s
  let used := decide (4 ≤ s1.nstate p)
  let s2 := if used then s1.linkFail p else s1.moveQueued p
  let s3 := (((s2.setB F.NERUP_STATUS_HALL_MISMATCH true p).setF F.PORT_STATUS_LTSSM 8 p).setB F.PORT_STATUS_DL_ACTIVE false p).emit (.link p .disabled)
  if used then s3 else s3.toState p 0

/-- HELLO (R198). -/
def execHello (m : MsgHdr) (peerPort : Fin 512) (reset current : Bool) (s : State) : Host.Outcome State Fault Refusal :=
  s.doneTwin (s.dev.ctlFlit m.port m.seq.toNat m.good (fun t =>
    if m.hops.val = 15 then t.dropMsg m.port
    else
      let d := t.ctlFreed m.port
      if d.helloOk m then d.helloIn m.port m.src peerPort reset current
      else d.helloWrong m.port (m.hallId.toNat != (if d.isTwinPort m.port then d.f F.TWIN_CTL_TWIN_HALL_ID else d.f F.HALL_CTL_HALL_ID))))

/-- NERUP_INIT_FLIT (R197): a counter of the peer; with the last one CREDIT_INIT is over. -/
def execNerupInitFlit (p : Fin 512) (vc : Fin 16) (kind : Fin 8) (crd : BitVec 16) (s : State) :
    Host.Outcome State Fault Refusal :=
  let d := s.dev
  s.doneTwin (if d.hearsFlits p && d.nstate p == 3 then
    let d1 := d.crdIn p vc kind crd.toNat
    if (d1.nerupOf p).unseen.isEmpty then (d1.toState p 4).tryActive p else d1
  else d)

/-- NERUP_FLIT_ACK (R206, R203): acknowledgement and credit counter of a received link header with NAK clear. -/
def execNerupFlitAck (p : Fin 512) (ack : BitVec 10) (vc : Fin 16) (kind : Fin 8) (crd : BitVec 16) (s : State) :
    Host.Outcome State Fault Refusal :=
  let d := s.dev
  s.done (if d.hearsFlits p && decide (3 ≤ d.nstate p) then
    let d1 := d.setNerup p { d.nerupOf p with nak := false }
    (d1.nerupAck p ack.toNat).crdIn p vc kind crd.toNat
  else d)

/-- NERUP_NAK (R199, R203, R206): a received link header with NAK set; the first after one without makes the transmitter replay. -/
def execNerupNak (p : Fin 512) (ack : BitVec 10) (vc : Fin 16) (kind : Fin 8) (crd : BitVec 16) (s : State) : Host.Outcome State Fault Refusal :=
  let d := s.dev
  s.doneTwin (if d.hearsFlits p && decide (3 ≤ d.nstate p) then
    let d1 := (d.nerupAck p ack.toNat).crdIn p vc kind crd.toNat
    if (d1.nerupOf p).nak then d1 else (d1.setNerup p { d1.nerupOf p with nak := true }).nerupReplay p
  else d)

/-- REPLAY_TIMEOUT (R206): no progress while something is unacknowledged. -/
def execReplayTimeout (p : Fin 512) (s : State) : Host.Outcome State Fault Refusal :=
  let d := s.dev
  s.doneTwin (if d.hearsFlits p && d.unacked p then d.nerupReplay p else d)

/-- RECOVERY_LIMIT_EXPIRED (R207 item 3). -/
def execRecoveryLimitExpired (p : Fin 512) (s : State) : Host.Outcome State Fault Refusal :=
  let d := s.dev
  s.doneTwin (if d.isFabric p && d.f F.PORT_STATUS_LTSSM p == 4 then d.linkFail p else d)

/-- FLIT_SILENCE_EXPIRED (R207 item 4). -/
def execFlitSilenceExpired (p : Fin 512) (s : State) : Host.Outcome State Fault Refusal :=
  let d := s.dev
  s.doneTwin (if d.isFabric p && d.f F.PORT_STATUS_LTSSM p == 3 then d.linkFail p else d)

/-! ### Failover (R207-R210, R227) -/

/-- A member has left when every link of it that the master knows of has failed (R214); a port that trains anew has failed before. -/
def Dev.leftCheck (s : Dev) (m : Nat) : Dev :=
  let l := s.hall.links.filter (fun e => decide (e.1 / 512 ≠ m) && e.2.2.1 == m)
  if s.isMaster ∧ s.b F.HALL_CTL_EN = true ∧ m ≠ s.me ∧ (s.f F.HALL_STATUS_MEMBERS).testBit m = true ∧ l.length ≠ 0
      ∧ (l.all (fun e => e.2.1 == 7 || decide (e.2.1 < 2))) = true then
    let s1 := s.memberLeft m
    { s1 with hall := { s1.hall with links := s1.hall.links.filter (fun e => decide (e.1 / 512 ≠ m)) } }.commitFollow
  else s

/-- FAILOVER_QUERY (R208): the link fails here too, and the frozen SEQ is the answer. -/
def execFailoverQuery (m : MsgHdr) (p : Fin 512) (_peerPort : Fin 512) (s : State) : Host.Outcome State Fault Refusal :=
  s.doneTwin (s.dev.onFailMsg m (fun d =>
    if d.isFabric p || d.nstate p == 6 then
      let d1 := d.linkFail p
      match (d1.nerupOf p).frozen with
      | some seq =>
        match d1.failPath p m.src with
        | some q => d1.sendCtl q (d1.msg 0x04 m.src false d1.epoch m.tag.toNat (leBytes p 2 ++ leBytes seq 2))
        | none => d1
      | none => d1
    else d))

/-- The port in FAILOVER whose query a reply of member `src` answers: the one whose peer is the sender's port `q` (R208, R211, R227). -/
def Dev.asked (s : Dev) (twin : Bool) (src q : Nat) : Option Nat :=
  (List.range 512).find? (fun p => s.nstate p == 6 && (s.nerupOf p).query && s.isTwinPort p == twin
    && s.f F.NERUP_STATUS_PEER_MEMBER p == src && s.f F.NERUP_STATUS_PEER_PORT p == q)

/-- FAILOVER_REPLY (R208, R209): it names the sender's port (R211). -/
def execFailoverReply (m : MsgHdr) (q : Fin 512) (seq : BitVec 10) (s : State) : Host.Outcome State Fault Refusal :=
  s.doneTwin (s.dev.onFailMsg m (fun d =>
    match d.asked (d.isTwinPort m.port) m.src q with
    | some p => (d.failMove p seq.toNat).leftCheck (d.f F.NERUP_STATUS_PEER_MEMBER p)
    | none => d.inc .hallMsgDrop))

/-- FAILOVER_WAIT_EXPIRED (R209). -/
def execFailoverWaitExpired (p : Fin 512) (s : State) : Host.Outcome State Fault Refusal :=
  let d := s.dev
  s.doneTwin (if d.nstate p == 6 && (d.nerupOf p).query then
    (d.failUnsure p).leftCheck (d.f F.NERUP_STATUS_PEER_MEMBER p) else d)

/-- Message types that are listed and may be relayed (R211): link-local ones are not. -/
def relayed (mtype : Nat) : Bool :=
  [0x03, 0x04, 0x10, 0x11, 0x12, 0x13, 0x14, 0x15, 0x20, 0x21, 0x22, 0x23, 0x24, 0x25, 0x26, 0x27, 0x28, 0x29, 0x2A, 0x2B,
    0x30, 0x31, 0x32, 0x33, 0x41, 0x42].contains mtype

/-- A message that arrives for a command of its own: link-local, a broadcast that this member handles, or addressed here; each relays what it
must itself (R211). -/
def Dev.ownCommand (s : Dev) (p : Nat) (m : CtlMsg) : Bool :=
  let t := m.mtype.toNat
  let here := m.dst.val == s.me
  t == 1 || t == 2 || t == 0x40 || (s.isTwinPort p && [0x03, 0x04, 0x41, 0x42].contains t)
    || (relayed t && (if m.bcast then here || [0x10, 0x11, 0x41].contains t else here))

/-- CONTROL_MESSAGE_RELAY (R27): a control message for another member. One of an unlisted type, of another Hall, on a twin port or at its 15th
link is discarded and counted (R202, R211). -/
def execControlMessageRelay (p : Fin 512) (seq : BitVec 10) (good : Bool) (m : CtlMsg) (s : State) : Host.Outcome State Fault Refusal :=
  s.done (if s.dev.ownCommand p m then s.dev
    else s.dev.ctlFlit p seq.toNat good (fun t =>
      if !t.b F.HALL_CTL_EN || t.isTwinPort p || m.hallId.toNat != t.f F.HALL_CTL_HALL_ID || m.hops.val == 15
          || !relayed m.mtype.toNat then t.dropMsg p
      else t.relay p m))

/-- LINK_STATE (R210): recorded at the master. -/
def execLinkState (m : MsgHdr) (port : Fin 512) (st : Fin 8) (peer : Fin 16) (peerPort : Fin 512) (s : State) :
    Host.Outcome State Fault Refusal :=
  s.done (s.dev.onMsg m (fun d => if d.isMaster then (d.noteLink m.src port st peer peerPort).leftCheck peer else d))

/-! ### The Hall Commit (R213-R216) -/

/-- EDIT (R213): taken into the next commit. -/
def execEdit (m : MsgHdr) (hallPart : Fin 1024) (f : BridgeFn) (off : BitVec 12) (be : BitVec 4) (v : BitVec 32) (s : State) :
    Host.Outcome State Fault Refusal :=
  s.doneTwin (s.dev.onMsg m (fun d =>
    if d.isMaster then
      ({ d with hall := { d.hall with editQ := (d.hall.editQ ++
        [{ src := m.src.val, tag := m.tag.toNat, hallPart := hallPart.val, f := f, off := off.toNat, be := be, v := v }] : List EditRec) } } : Dev).commitFollow
    else d))

/-- EDIT_DONE (R213): the host's write completes. -/
def execEditDone (m : MsgHdr) (s : State) : Host.Outcome State Fault Refusal :=
  s.done (s.dev.onMsg m (fun d => d.editDone m.tag.toNat))

/-- ROUTE_PUSH (R213): written into the shadow sets, unless the member has answered PREPARE. -/
def execRoutePush (m : MsgHdr) (table : BitVec 8) (off : BitVec 24) (data : List Byte) (s : State) :
    Host.Outcome State Fault Refusal :=
  s.done (s.dev.onMsg m (fun d =>
    if d.isMaster || d.hall.prepared then d
    else ({ d with hall := { d.hall with staged := d.hall.staged ++ data, segs := d.hall.segs + 1 } }).pushBytes table.toNat off.toNat data))

/-- STAGE (R213): answered with the CRC-32C of what is staged, and moved on, for it is a broadcast (R211). -/
def execStage (m : MsgHdr) (segments crc : BitVec 32) (s : State) : Host.Outcome State Fault Refusal :=
  s.done (s.dev.onBcast m 0x21 s.dev.me (leBytes segments.toNat 4 ++ leBytes crc.toNat 4) (fun d =>
    if d.isMaster then d
    else
      let d1 := ({ d with hall := { d.hall with want := segments.toNat, expect := crc.toNat } } : Dev).setF F.HALL_STATUS_PHASE 1
      d1.sendTree m.src 0x22 m.epoch.toNat m.tag.toNat (leBytes (crc32c d1.hall.staged).toNat 4)))

/-- STAGE_ACK (R213). -/
def execStageAck (m : MsgHdr) (_crc : BitVec 32) (s : State) : Host.Outcome State Fault Refusal :=
  s.doneTwin (s.dev.onMsg m (fun d => (d.phaseAnswer m.src 1).commitFollow))

/-- PREPARE_ACK's code (R213): 2 while a copy runs, a forwarding block cannot commit or ROUTE_PUSH messages that STAGE announced are not in
(log 20), 1 on a CRC mismatch. -/
def Dev.prepareCode (s : Dev) : Nat :=
  if s.commitBusy || s.outOf 66 || s.outOf 67 || decide (s.hall.segs < s.hall.want) then 2 else if (crc32c s.hall.staged).toNat = s.hall.expect then 0 else 1

/-- PREPARE (R213). -/
def execPrepare (m : MsgHdr) (s : State) : Host.Outcome State Fault Refusal :=
  s.done (s.dev.onMsg m (fun d =>
    if d.isMaster then d
    else
      let c := d.prepareCode
      let d1 := ({ d with hall := { d.hall with prepared := d.hall.prepared || c == 0 } } : Dev).setF F.HALL_STATUS_PHASE 2
      d1.sendTree m.src 0x24 m.epoch.toNat m.tag.toNat (leBytes c 4)))

/-- PREPARE_ACK (R213, R214). -/
def execPrepareAck (m : MsgHdr) (code : BitVec 8) (s : State) : Host.Outcome State Fault Refusal :=
  s.doneTwin (s.dev.onMsg m (fun d =>
    if code = 0 then (d.phaseAnswer m.src 2).commitFollow
    else if d.isMaster && d.f F.HALL_STATUS_PHASE == 2 && d.hall.inCommit.contains m.src.val then d.commitAbort
    else d))

/-- COMMIT (R213): recorded. -/
def execHallCommit (m : MsgHdr) (s : State) : Host.Outcome State Fault Refusal :=
  s.done (s.dev.onMsg m (fun d =>
    if d.isMaster then d
    else
      let d1 := ((d.setF F.HALL_COMMIT_REC_EPOCH m.epoch.toNat).setB F.HALL_COMMIT_REC_VALID true).setF F.HALL_STATUS_PHASE 3
      d1.sendTree m.src 0x26 m.epoch.toNat m.tag.toNat []))

/-- COMMIT_ACK (R213). -/
def execHallCommitAck (m : MsgHdr) (s : State) : Host.Outcome State Fault Refusal :=
  s.doneTwin (s.dev.onMsg m (fun d => (d.phaseAnswer m.src 3).commitFollow))

/-- APPLY (R213, R215). -/
def execHallApply (m : MsgHdr) (s : State) : Host.Outcome State Fault Refusal :=
  s.doneTwin (s.dev.onMsg m (fun d => if d.isMaster then d else d.applyStart m.epoch.toNat m.tag.toNat m.src))

/-- APPLY_ACK (R213). -/
def execHallApplyAck (m : MsgHdr) (s : State) : Host.Outcome State Fault Refusal :=
  s.doneTwin (s.dev.onMsg m (fun d => (d.phaseAnswer m.src 4).commitFollow))

/-- ABORT (R214). -/
def execHallAbort (m : MsgHdr) (s : State) : Host.Outcome State Fault Refusal :=
  s.done (s.dev.onMsg m (fun d =>
    if d.isMaster then d else d.abortHere.sendTree m.src 0x2A m.epoch.toNat m.tag.toNat []))

/-- ABORT_ACK (R214): with the last one the EDITs are taken up again. -/
def execHallAbortAck (m : MsgHdr) (s : State) : Host.Outcome State Fault Refusal :=
  s.doneTwin (s.dev.onMsg m (fun d =>
    if d.isMaster && d.f F.HALL_STATUS_PHASE == 0 && d.hall.waits.contains m.src.val then
      let w := d.hall.waits.erase m.src.val
      let d1 : Dev := { d with hall := { d.hall with waits := w } }
      if w.isEmpty then d1.commitFollow else d1
    else d))

/-- PHASE_TIMEOUT (R214): an abort before the last COMMIT_ACK, APPLY again after it. -/
def execPhaseTimeout (s : State) : Host.Outcome State Fault Refusal :=
  let d := s.dev
  s.doneTwin (if d.b F.HALL_CTL_EN && d.isMaster && !d.hall.waits.isEmpty then
    (match d.f F.HALL_STATUS_PHASE with
      | 0 => d.commitFollow
      | 4 => d.hall.waits.foldl (fun d m => d.phaseMsg m 0x27) d
      | _ => d.commitAbort)
  else d)

/-- TABLE_REQ (R215); one that comes while this member collects CLAIM_ACKs is answered once it is master. -/
def execTableReq (m : MsgHdr) (s : State) : Host.Outcome State Fault Refusal :=
  s.done (s.dev.onMsg m (fun d =>
    if d.isMaster then (d.setMember m.src true).pushAll m.src
    else if d.hall.claim.isSome then { d with hall := { d.hall with tableReqs := d.hall.tableReqs.erase m.src.val ++ [m.src.val] } }
    else d))

/-- The member replaces its tables with the master's, and has not got to the exchange that applies them (R215). -/
def Dev.joining (s : Dev) : Bool := s.b F.HALL_CTL_EN && s.hall.asked && !s.b F.HALL_STATUS_CURRENT && (s.hall.applyTag.isNone || s.fwd.held)

/-- The copy of a commit is done (R124): a member's APPLY is finished with EPOCH and APPLY_ACK, and a member that joins is CURRENT
(R213, R215). Where the APPLY came during the copy of an earlier commit, its exchange is held and still to come (R125, R223). -/
def Dev.copyFinish (s : Dev) : Dev :=
  if s.fwd.copying then
    let s1 := s.copyDone s.joining
    match (if s.fwd.held then none else s1.hall.applyTag) with
    | none => s1
    | some (e, tag, master) =>
      let joined := !s1.b F.HALL_STATUS_CURRENT
      let s2 := ({ s1 with hall := { s1.hall.unstaged with applyTag := none, high := max s1.hall.high e } } : Dev).setF F.HALL_STATUS_EPOCH e
      let s3 := s2.postHall 0 s2.me e
      if s3.isMaster then (s3.commitNext 6).commitFollow
      else
        let s4 := (s3.setF F.HALL_STATUS_PHASE 0).sendTree master 0x28 e tag []
        if joined then (s4.setCurrent true).streamRestart else s4
  else s

/-- COMMIT_COPY_DONE (R124). -/
def execCommitCopyDone (s : State) : Host.Outcome State Fault Refusal := s.doneTwin s.dev.copyFinish

/-! ### Locks (R217, R218) -/

/-- LOCK_REQ (R217). -/
def execLockReq (m : MsgHdr) (domain : Fin 16) (port : Fin 512) (s : State) : Host.Outcome State Fault Refusal :=
  s.done (s.dev.onMsg m (fun d =>
    if d.isMaster then { d with hall := { d.hall with lockReqs := d.hall.lockReqs ++ [(m.src.val, port.val, domain.val)] } } else d))

/-- LOCK_ARBITRATION (R217): every domain with requests, in ascending order. -/
def execLockArbitration (s : State) : Host.Outcome State Fault Refusal :=
  s.done (let d := (List.range 16).foldl Dev.lockArbitrate s.dev
    { d with hall := { d.hall with lockReqs := [] } })

/-- LOCK_GRANT (R218). -/
def execLockGrant (m : MsgHdr) (_domain : Fin 16) (port : Fin 512) (s : State) : Host.Outcome State Fault Refusal :=
  s.done (s.dev.onMsg m (fun d => d.lockGranted port))

/-- LOCK_BUSY (R218). -/
def execLockBusy (m : MsgHdr) (_domain : Fin 16) (port : Fin 512) (s : State) : Host.Outcome State Fault Refusal :=
  s.done (s.dev.onMsg m (fun d => d.lockDenied port))

/-- LOCK_RETRY (R218). -/
def execLockRetry (p : Fin 512) (s : State) : Host.Outcome State Fault Refusal := s.done (s.dev.lockAsk p)

/-- LOCK_RELEASE (R218). -/
def execLockRelease (m : MsgHdr) (domain : Fin 16) (port : Fin 512) (s : State) : Host.Outcome State Fault Refusal :=
  s.done (s.dev.onMsg m (fun d => if d.isMaster then d.lockFree domain m.src port else d))

/-! ### Twin Hall (R229, R238, R239) -/

/-- TWIN_CHECK_SEND (R229): every 1 ms. On entering ACTIVE and at a change of TWIN_PART it is sent with no command of its own (log 127). -/
def execTwinCheckSend (p : Fin 512) (s : State) : Host.Outcome State Fault Refusal :=
  let d := s.dev
  s.done (if d.isTwinPort p && d.nstate p == 5 then d.sendCheck p else d)

/-- TWIN_CHECK (R229): PART_MISMATCH follows the comparison. A port that is not a twin port discards it (R211). -/
def execTwinCheck (m : MsgHdr) (crc : BitVec 32) (s : State) : Host.Outcome State Fault Refusal :=
  s.doneTwin (s.dev.onFailMsg m (fun d =>
    if d.isTwinPort m.port then d.setNerup m.port { d.nerupOf m.port with crc := some crc.toNat } else d.inc .hallMsgDrop))

/-- GAP_WAIT_EXPIRED (R238). -/
def execGapWaitExpired (src : Fin 16) (b : Fin 4096) (s : State) : Host.Outcome State Fault Refusal :=
  s.done (s.dev.gapExpire (streamNo src b))

/-- STREAM_RESET_ACK sent (R239): along the tree, or to the twin port on which the message came (DEDUCED from R226, log 127). -/
def Dev.streamAck (s : Dev) (m : MsgHdr) (who : Nat) : Dev :=
  let b := leBytes who 1
  if s.isTwinPort m.port then s.sendCtl m.port (s.msg 0x42 m.src false m.epoch.toNat m.tag.toNat b)
  else s.sendTree m.src 0x42 m.epoch.toNat m.tag.toNat b

/-- STREAM_RESET (R239). A twin port accepts it too and relays it nowhere (R226). -/
def execStreamReset (m : MsgHdr) (who : Fin 16) (s : State) : Host.Outcome State Fault Refusal :=
  let act (d : Dev) : Dev := (d.clearStreamsOf who).streamAck m who
  s.done (if s.dev.isTwinPort m.port then s.dev.onFailMsg m act else s.dev.onBcast m 0x41 0 (leBytes who.val 1) act)

/-- STREAM_RESET_ACK (R239). -/
def execStreamResetAck (m : MsgHdr) (who : Fin 16) (s : State) : Host.Outcome State Fault Refusal :=
  s.done (s.dev.onFailMsg m (fun d =>
    if who.val = d.me then { d with twin := { d.twin with resetWait := d.twin.resetWait.erase m.src.val } } else d))

/-- STREAM_RESET_TIMEOUT (R239). -/
def execStreamResetTimeout (s : State) : Host.Outcome State Fault Refusal :=
  s.done { s.dev with twin := { s.dev.twin with resetWait := [] } }

end Sys2Proof.Machine
end

