-- ==== Sys2Proof/Machine/FloorCmds.lean ====
section
/-! DEFINITION. Commands of the Floor and of the forwarding tables: scrub and retirement (R147-R151), reservations (R153), the
wipe's end (R161), buckets, fences, held commits (R125, R133, R136). -/

namespace Sys2Proof.Machine

/-- SCRUB_ROW (R149): the pulse of a bank's scrub period. -/
def execScrubRow (b : Fin 512) (upset : Nat) (s : State) : Host.Outcome State Fault Refusal := s.done (s.dev.raisePulse b upset)

/-- Uncorrectable error of a link memory (`src` 2) or cell state table entry (3) of cell `c` counted and logged (R148). Neither has a chunk:
CHUNK is written 0 (DESIGN CHOICE, log 136). -/
def Dev.logEntry (s : Dev) (c src : Nat) : Dev :=
  let s1 := (s.inc .floorUncorrCnt).aerU .mgmtPf AER.uncorrectableInternal
  if s1.b F.FLOOR_ERR_LOG_VALID then s1
  else
    (((s1.setF F.FLOOR_ERR_LOG_CELL c).setF F.FLOOR_ERR_LOG_CHUNK 0).setF F.FLOOR_ERR_LOG_SOURCE src).setB F.FLOOR_ERR_LOG_VALID true

/-- A queue broken by a double-bit error in its link entry (R148): purged in its list order as far as the break, and from there in the order
of the first cells that the sweep finds. -/
def Dev.sweepQueue (s : Dev) (e q pos : Nat) : Dev :=
  let l := s.queue e q
  let found := (l.drop pos).mergeSort (fun a b => decide (a.cells.headD 0 ≤ b.cells.headD 0))
  let gone := l.take pos ++ found
  let c := ((l.take pos).getLast?.bind (fun st => st.cells.getLast?)).getD ((s.queueCells e q).headD 0)
  let s1 := ((((s.setQueue e q []).discardAll gone .ur).raise F.FLOOR_STATUS_LINK_UNCORR (cellHalf c)).logEntry c 2).uspInternals gone
  if e < 512 then s1.tidyQueue e q else s1

/-- Single-bit errors of link memory and cell state table, corrected and counted (R148). -/
def Dev.entriesCorrected (s : Dev) (n : Nat) : Dev :=
  if n = 0 then s else (s.inc .floorCorrCnt n).aerC .mgmtPf AER.correctedInternal

/-- LINK_MEMORY_SWEEP_DONE (R148). A queue that holds nothing has no link entry in use. -/
def execLinkMemorySweepDone (e : Fin 578) (q : Fin 9) (pos single : Nat) (badState : Option (Fin 393216)) (s : State) :
    Host.Outcome State Fault Refusal :=
  let d0 := s.dev.entriesCorrected single
  let d := match badState with
    | some c => d0.logEntry c 3
    | none => d0
  s.done (if (d.queue e q).isEmpty then d else d.sweepQueue e q pos)

/-- RETIRE_WINDOW (R150): the pulse that ends the window of a bank's group. -/
def execRetireWindow (b : Fin 512) (s : State) : Host.Outcome State Fault Refusal := s.done (s.dev.raisePulse (512 + b / 16) 0)

/-- A retiring bank whose 768 cells have all left the half's free count is retired (R151). -/
def Dev.bankRetired (s : Dev) (b : Nat) : Dev :=
  let g := b / 16
  if s.b F.GROUP_STATUS_RETIRING g && s.f F.GROUP_STATUS_RETIRED_BANK g == b % 16 then
    let s0 := s.withdrawCells g
    let x := s0.group g
    if x.out = 768 then
      let s1 := (s0.setB F.GROUP_STATUS_RETIRING false g).setB F.GROUP_STATUS_RETIRED true g
      (s1.setGroup g { x with returned := x.returned.filter (fun c => decide (c % 16 ≠ b % 16)), out := 0, cand := false }).raise
        F.FLOOR_STATUS_RETIRE_EVENT (g / 16)
    else s0
  else s

/-- BANK_RETIRED (R151). -/
def execBankRetired (b : Fin 512) (s : State) : Host.Outcome State Fault Refusal := s.done (s.dev.bankRetired b)

/-- Sixteenths of a cell, `left` of them, owed to the partner as new credits of kind `k` (R153); the split into header and data credits
is the device's own (log 11). -/
def Dev.owe (s : Dev) (i v k left : Nat) : Dev :=
  let x := s.pool i v
  let h := min (max (Config.hdrCredits (left / 16)) 1) (left / 31)
  if h = 0 then s
  else
    let o1 := x.owed.set (2 * k) (x.owed.getD (2 * k) 0 + h)
    s.setPool i v { x with owed := o1.set (2 * k + 1) (x.owed.getD (2 * k + 1) 0 + (left - 31 * h)) }

/-- Room of a reserved pool that no credit uses yet owed to the partner; `was` is the room before the pool was covered further. Outside Flit mode
posted credits may use the common share (R155 item 1), so that the room added counts. -/
def Dev.oweRoom (s : Dev) (i v k was : Nat) : Dev :=
  let x := s.pool i v
  let used := x.pledge k + 31 * x.owed.getD (2 * k) 0 + x.owed.getD (2 * k + 1) 0
  s.owe i v k (if k = 0 ∧ s.b F.PORT_STATUS_FLIT i = false then 16 * (s.roomOf x k - was) else 16 * s.roomOf x k - used)

/-- RESERVATION_COVERED (R153): reservations covered in the set order; a link that is up gets the new credits. -/
def Dev.coverMore (s : Dev) (i : Nat) : Dev :=
  let s1 := s.cover i
  if i < 512 ∧ s1.b F.PORT_STATUS_DL_ACTIVE i = true then
    (s1.vcsOf i).foldl (fun d v =>
      let was (k : Nat) : Nat := s.roomOf (s.pool i v) k
      (((d.oweRoom i v 0 (was 0)).oweRoom i v 1 (was 1)).oweRoom i v 2 (was 2)).retryOwed i v) s1
  else s1

/-- RESERVATION_COVERED (R153), of an ingress and, with what it leaves, of the hold pools of a Twin Hall (R237). -/
def execReservationCovered (i : Fin 576) (s : State) : Host.Outcome State Fault Refusal :=
  s.done (((if s.dev.ingressOn i then s.dev.coverMore i else s.dev).coverHold 0).coverHold 1)

/-- FLOOR_WIPED (R161). -/
def execFloorWiped (s : State) : Host.Outcome State Fault Refusal :=
  let d := s.dev
  s.done (if d.floor.wiping then d.wipeEnds else d)

/-- BUCKET_REPIN (R133). -/
def execBucketRepin (b : Fin 4096) (s : State) : Host.Outcome State Fault Refusal := s.done (s.dev.repin b)

/-- HELD_COMMIT_APPLY (R125). -/
def execHeldCommitApply (s : State) : Host.Outcome State Fault Refusal := s.doneTwin s.dev.commitHeld

/-- BRIDGE_WRITE_COMPLETE (R122): the bridge writes of partition `q` complete once their commit has taken effect. -/
def execBridgeWriteComplete (q : Fin 128) (s : State) : Host.Outcome State Fault Refusal :=
  let d := s.dev
  let mine := d.fwd.bridge.filter (fun w => w.q == q.val)
  s.done (if d.fwd.held then d
  else mine.foldl Dev.bridgeDone { d with fwd := { d.fwd with bridge := d.fwd.bridge.filter (fun w => w.q != q.val) } })

/-- FENCE_DONE (R136). -/
def execFenceDone (c : Fin 576) (s : State) : Host.Outcome State Fault Refusal :=
  s.done (if s.dev.fenceClear c then s.dev.setB F.PITCH_FENCE_FENCE_DONE true c else s.dev)

end Sys2Proof.Machine
end

