-- ==== Sys2Proof/Machine/StallCmds.lean ====
section
/-! DEFINITION. Commands of the translation units, the Stalls and the Ledger that are no register write (R286-R332), and the token
buckets (R182). -/

namespace Sys2Proof.Machine

/-- TOKEN_REFILL (R182). -/
def execTokenRefill (s : State) : Host.Outcome State Fault Refusal := s.done s.dev.refill

/-- WALK_READ_COMPLETE (R286). -/
def execWalkReadComplete (h : Fin 2) (w : Fin 64) (ok : Bool) (entry : BitVec 64) (s : State) : Host.Outcome State Fault Refusal :=
  s.done (s.dev.walkAnswer h w 5 (fun d _ y => if ok then d.walkEntry h w y entry else d.walkEnd h w (some (5, y.level))))

/-- ATS_COMPLETION (R294). -/
def execAtsCompletion (h : Fin 2) (w : Fin 64) (ok r wr u : Bool) (addr : BitVec 64) (sizeLog2 : Nat) (s : State) :
    Host.Outcome State Fault Refusal :=
  s.done (s.dev.walkAnswer h w 6 (fun d _ y => if ok then d.atsEntry h w y r wr u addr.toNat sizeLog2 else d.walkEnd h w (some (7, 0))))

/-- PRG_RESPONSE (R295). -/
def execPrgResponse (st : Fin 1024) (prg : BitVec 9) (c : PrgCode) (s : State) : Host.Outcome State Fault Refusal :=
  s.done (s.dev.prgAnswer st prg.toNat c)

/-- FAULT_RECORD_WRITE (R300). -/
def execFaultRecordWrite (h : Fin 2) (s : State) : Host.Outcome State Fault Refusal := s.done (s.dev.faultRecord h)

/-- FAULT_WAIT_EXPIRED (R302). -/
def execFaultWaitExpired (h : Fin 2) (st : Fin 1024) (r : Fin 8) (poll : Bool) (s : State) : Host.Outcome State Fault Refusal :=
  s.done (s.dev.faultTimeout h st r poll)

/-- INVALIDATION_DONE (R292). -/
def execInvalidationDone (s : State) : Host.Outcome State Fault Refusal := s.done s.dev.invDone

/-- ATS_INVALIDATION_REQUEST (R293). -/
def execAtsInvalidationRequest (st : Fin 1024) (itag : Fin 32) (pasid : Option (BitVec 20)) (addr : BitVec 64) (sizeLog2 : Nat) (s : State) :
    Host.Outcome State Fault Refusal :=
  let n := 2 ^ (max sizeLog2 12 - 12)
  s.done (s.dev.invStart { scope := 2, stall := st, page := addr.toNat / 4096 / n * n, pages := n, itag := some itag.val, pasid := pasid })

/-- STALL_TURN_END (R312). -/
def execStallTurnEnd (n : Fin 64) (s : State) : Host.Outcome State Fault Refusal := s.done ((s.dev.turnEnd n).run n)

/-- A Stall exists: VF Enable is set and it is among NumVFs (R79). -/
def Dev.vfExists (s : Dev) (st : Nat) : Bool := decide (st < s.vfCount)

/-- STALL_BUS_MASTER_CLEAR (R318). -/
def execStallBusMasterClear (st : Fin 1024) (s : State) : Host.Outcome State Fault Refusal :=
  s.done (if s.dev.bme (.stall st) then s.dev.masterOff st else s.dev)

/-- STALL_FLR (R318). -/
def execStallFlr (st : Fin 1024) (s : State) : Host.Outcome State Fault Refusal :=
  s.done (if s.dev.vfExists st then s.dev.stallFlr st else s.dev)

/-- VF_DISABLE (R318). -/
def execVfDisable (vfEnable : Bool) (numVfs : BitVec 16) (s : State) : Host.Outcome State Fault Refusal :=
  s.done (s.dev.vfWrite vfEnable numVfs.toNat)

/-- PORTER_PF_FLR (R318). -/
def execPorterPfFlr (s : State) : Host.Outcome State Fault Refusal := s.done s.dev.porterFlr

/-- FLR_COMPLETE (R321): its mailbox is cleared. -/
def execFlrComplete (st : Fin 1024) (s : State) : Host.Outcome State Fault Refusal :=
  let d := s.dev
  s.done (if d.b F.STALL_MGR_STATUS_FLR_BUSY st then (d.mbClear st).setB F.STALL_MGR_STATUS_FLR_BUSY false st else d)

/-- LEDGER_FOLD (R326). -/
def execLedgerFold (h : Fin 2) (s : State) : Host.Outcome State Fault Refusal := s.done (s.dev.foldStart h)

/-- LEDGER_FOLD_READ_COMPLETE (R326, R331). -/
def execLedgerFoldReadComplete (h : Fin 2) (ok : Bool) (data : BitVec 64) (writeOk : Bool) (s : State) :
    Host.Outcome State Fault Refusal :=
  s.done (s.dev.foldRead h ok data writeOk)

/-- LEDGER_PERIODIC_FLUSH (R328): one runs at a time. -/
def execLedgerPeriodicFlush (c : Fin 256) (s : State) : Host.Outcome State Fault Refusal :=
  let d := s.dev
  s.done (if d.ledState c == 1 && !d.ledger.flushes.any (fun f => f.ctx == c.val && f.kind == 0) then d.flushStart c 0 else d)

/-- LEDGER_FLUSH_DONE (R328-R330, R332). -/
def execLedgerFlushDone (c : Fin 256) (s : State) : Host.Outcome State Fault Refusal := s.done ((s.dev.flushesEnd c).syncsRun c)

end Sys2Proof.Machine
end

