-- ==== Sys2Proof/Machine/RegOps.lean ====
section
/-! DEFINITION. What a write of a register does once it is let through: storing by access type (R7), and for each register with an
acceptance rule or an effect of its own the operation of its chapter. -/

namespace Sys2Proof.Machine

/-- A write stored by access type (R7): RW and RWS bits take the value, a 1 clears a W1C bit and sets a W1S bit, the rest ignore it. A
cleared event bit forgets where it arose. -/
def Dev.storeReg (s : Dev) (r : RegId) (v : Word) : Dev :=
  let n := r.kind.info
  let old := s.reg r.kind r.i r.j
  let w := (((old &&& ~~~(n.rw ||| n.rws)) ||| (v &&& (n.rw ||| n.rws))) &&& ~~~(v &&& n.w1c)) ||| (v &&& n.w1s)
  let s1 := s.setReg r.kind w r.i r.j
  { s1 with raised := s1.raised.filter (fun e => !(e.1.kind == r.kind && getBits w e.1.lo e.1.w == 0)) }

/-! ### Floor -/

/-- The free cells of half `h` no longer back the unspent reservations (R145). -/
def Dev.uncovered (s : Dev) (h : Nat) : Bool := decide (s.freeRsv h < s.unspent h)

/-- A write of GROUP_CTL or FLOOR_RSV_GROUPS (R145): discarded where it would uncover a reservation. -/
def Dev.wrGroups (s : Dev) (r : RegId) (v : Word) : Dev :=
  let s1 := s.storeReg r v
  if (s1.uncovered 0 && !s.uncovered 0) || (s1.uncovered 1 && !s.uncovered 1) then s.setB F.FLOOR_STATUS_FLOOR_CFG_ERR true else s1

/-- `FLOOR_CTL.WIPE_ALL` (R162): every cell wiped, with every port and core port disabled. -/
def Dev.wipeAll (s : Dev) : Dev :=
  if s.enabledPorts.isEmpty && !s.b F.SVC_CTL_PORTER_EN then
    ({ s with floor := { s.floor with chunks := [], data := [] } } : Dev).wipeBegins none
  else s.setB F.FLOOR_STATUS_FLOOR_CFG_ERR true

/-- A write of FLOOR_CTL. -/
def Dev.wrFloorCtl (s : Dev) (v : Word) : Dev :=
  let s1 := s.storeReg ⟨.floorCtl, 0, 0⟩ v
  if getBits v 0 1 = 1 then s1.wipeAll else s1

/-- A write of FLOOR_BANK (R150). -/
def Dev.wrBank (s : Dev) (b : Nat) (v : Word) : Dev :=
  let s1 := s.storeReg ⟨.floorBank, b, 0⟩ v
  if getBits v 49 1 = 1 then s1.candidate b else s1

/-- A write of POOL_CFG (R163): discarded while the ingress is enabled. -/
def Dev.wrPoolCfg (s : Dev) (r : RegId) (v : Word) : Dev :=
  if s.ingressOn r.i then s.setB F.FLOOR_STATUS_FLOOR_CFG_ERR true else s.storeReg r v

/-- A write of POOL_WM takes effect only while the ingress is disabled. -/
def Dev.wrPoolWm (s : Dev) (r : RegId) (v : Word) : Dev := if s.ingressOn r.i then s else s.storeReg r v

/-! ### Schedulers and gates -/

/-- A write of a DRR or shaper register is pending (R188): the last one written counts. -/
def Dev.wrSched (s : Dev) (r : RegId) (v : Word) : Dev :=
  let x := s.sched r.i
  let w := v &&& r.kind.info.rw
  (s.setSched r.i { x with pend := x.pend.filter (fun e => e.1 ≠ r) ++ [(r, w)] }).setB F.PSCH_CTL_PEND true r.i

/-- A write to an entry or parameter of gate list `l` of port `p` (R186): discarded while that list is in force. -/
def Dev.wrGateList (s : Dev) (r : RegId) (l : Nat) (v : Word) : Dev :=
  if s.b F.GATE_CTL_EN r.i && s.gateList r.i == l then s.setB F.PSCH_CTL_PSCH_CFG_ERR true r.i else s.storeReg r v

/-- `GATE_CTL.SWITCH` written while gating is enabled (R186). -/
def Dev.gateSwitch (s : Dev) (p : Nat) : Dev :=
  if s.b F.GATE_CTL_SWITCH_PEND p then s.setB F.PSCH_CTL_PSCH_CFG_ERR true p
  else (s.setSched p { s.sched p with swAt := s.nowNs, swFrom := s.switchFrom p s.nowNs }).setB F.GATE_CTL_SWITCH_PEND true p

/-- A write of GATE_CTL (R186): EN starts the list that LIST names; SWITCH schedules the other list. -/
def Dev.wrGateCtl (s : Dev) (p : Nat) (v : Word) : Dev :=
  let was := s.b F.GATE_CTL_EN p
  let on := getBits v 0 1 == 1
  let s1 := s.storeReg ⟨.gateCtl, p, 0⟩ v
  let s2 :=
    if on == was then s1
    else
      let s3 := (s1.setSched p { s1.sched p with gateStarted := false, enAt := s1.nowNs }).setB F.GATE_CTL_SWITCH_PEND false p
      if on then s3.setF F.GATE_CTL_ACTIVE (s3.f F.GATE_CTL_LIST p) p else s3
  (if getBits v 3 1 = 1 ∧ on = true ∧ was = true then s2.gateSwitch p else s2).settleRound p

/-! ### Forwarding -/

/-- A write of FWD_CTL: CT_EN stored, the error cleared, `WIN_COMMIT` (R124, R125, R192, R213). -/
def Dev.wrFwdCtl (s : Dev) (v : Word) : Except Fault Dev :=
  let s1 := s.storeReg ⟨.fwdCtl, 0, 0⟩ v
  if getBits v 0 1 = 1 then
    if s1.b F.HALL_CTL_EN && (s1.hall.asked || s1.hall.hasMaster || s1.hall.claim.isSome || s1.isMaster) then .error .commitInHall
    else .ok s1.commitReq.twinUpdate
  else .ok s1

/-! ### Rings -/

/-- Bits of RING_CTL other than EN and RESUME. -/
def ringSetup : Word := 0xFFFFF0001FFFE

/-- A write of RING_CTL (R279, R280, R282): the ring's settings only while it is DISABLED, then EN, then RESUME. A ring that halted while it stopped
has EN clear already: EN written 0 makes it DISABLED (DEDUCED, log 145). -/
def Dev.wrRingCtl (s : Dev) (st r : Nat) (v : Word) : Dev :=
  let k := 8 * st + r
  let old := s.reg .ringCtl st r
  let s1 :=
    if old &&& ringSetup = v &&& ringSetup then s
    else if s.rstate k = 0 then s.setReg .ringCtl ((old &&& ~~~ringSetup) ||| (v &&& ringSetup)) st r
    else s.cfgErr st
  let on := getBits v 0 1 == 1
  let s2 := if on then (if s1.b F.RING_CTL_EN st r then s1 else s1.ringEnable k)
    else if s1.b F.RING_CTL_EN st r || s1.rstate k == 4 then s1.ringDisable k else s1
  if getBits v 17 1 = 1 then s2.ringResume k else s2

/-- A write of another of a ring's set-up registers (R282). -/
def Dev.wrRingReg (s : Dev) (r : RegId) (v : Word) : Dev :=
  if s.rstate (8 * r.i + r.j) = 0 then s.storeReg r v else s.cfgErr r.i

/-- A write of STALL_CTL or DB_ADDR (R282). -/
def Dev.wrStallReg (s : Dev) (r : RegId) (v : Word) : Dev := if s.ringsOff r.i then s.storeReg r v else s.cfgErr r.i

/-- A write of TALLY_PAGE (R420): setting EN starts the page's count of passes. -/
def Dev.wrTallyPage (s : Dev) (st : Nat) (v : Word) : Dev :=
  let s1 := s.storeReg ⟨.tallyPage, st, 0⟩ v
  if getBits v 0 1 = 1 ∧ s.b F.TALLY_PAGE_EN st = false then s1.setStall st { s1.stallSt st with pages := 0 } else s1

/-! ### Mailboxes -/

/-- A write of a dword of OUT (R315). -/
def Dev.wrMbOut (s : Dev) (r : RegId) (v : Word) : Dev := if s.b F.MB_CTL_OUT_BUSY r.i then s else s.storeReg r v

/-- A write of a dword of IN by the manager (R316); during the Stall's FLR, IN stays clear (R321, R333). -/
def Dev.wrMbIn (s : Dev) (r : RegId) (v : Word) : Dev :=
  if s.b F.STALL_MGR_STATUS_FLR_BUSY r.i then s
  else if s.b F.MB_MGR_CTL_IN_FULL r.i then s.setB F.MB_MGR_CTL_MB_ERR true r.i else s.storeReg r v

/-- A write of MB_CTL (R315, R316): ACK, then SEND. -/
def Dev.wrMbCtl (s : Dev) (st : Nat) (v : Word) : Dev :=
  let s1 := s.storeReg ⟨.mbCtl, st, 0⟩ v
  let s2 := if getBits v 10 1 = 1 then s1.mbAck st else s1
  if getBits v 0 1 = 1 then s2.mbSend st (getBits v 1 7) else s2

/-- A write of MB_MGR_CTL (R315-R317): ACK, SEND, then CLEAR. -/
def Dev.wrMbMgrCtl (s : Dev) (st : Nat) (v : Word) : Dev :=
  let s1 := s.storeReg ⟨.mbMgrCtl, st, 0⟩ v
  let s2 := if getBits v 10 1 = 1 then s1.mbMgrAck st else s1
  let s3 := if getBits v 0 1 = 1 then s2.mbMgrSend st (getBits v 1 7) else s2
  if getBits v 19 1 = 1 then s3.mbClear st else s3

/-! ### Ledger -/

/-- A write of the first word of LEDGER_CTX (R332): EN acts, the other fields only while the context is DISABLED. -/
def Dev.wrLedgerCtx (s : Dev) (c : Nat) (v : Word) : Dev :=
  let old := s.reg .ledgerCtx c
  let s1 :=
    if old &&& ~~~1 = v &&& ~~~1 then s
    else if s.ledState c = 0 then s.setReg .ledgerCtx ((old &&& 1) ||| (v &&& ~~~1)) c
    else s.setB F.LEDGER_CMD_LEDGER_CFG_ERR true c
  let on := getBits v 0 1 == 1
  if on == s1.b F.LEDGER_EN c then s1
  else
    let s2 := s1.setB F.LEDGER_EN on c
    if on then s2.ledgerUp c else s2.ledgerDown c

/-- A write of another register of LEDGER_CTX (R332). -/
def Dev.wrLedgerReg (s : Dev) (r : RegId) (v : Word) : Dev :=
  if s.ledState r.i = 0 then s.storeReg r v else s.setB F.LEDGER_CMD_LEDGER_CFG_ERR true r.i

/-- A write of BITMAP_A (`sel` false) or BITMAP_B (R332): also the unselected one while no swap is under way. -/
def Dev.wrBitmap (s : Dev) (r : RegId) (sel : Bool) (v : Word) : Dev :=
  if s.b F.LEDGER_CMD_SWAP_DONE r.i && s.b F.LEDGER_CMD_SEL r.i != sel then s.storeReg r v else s.wrLedgerReg r v

/-- A write of LEDGER_CMD (R328, R329, R331): flags cleared, FLUSH, SWAP. A FAULT that is cleared lets write-back go on. -/
def Dev.wrLedgerCmd (s : Dev) (c : Nat) (v : Word) : Dev :=
  let s1 := s.storeReg ⟨.ledgerCmd, c, 0⟩ v
  let s2 := if getBits v 0 1 = 1 then s1.ledgerFlush c else s1
  let s3 := if getBits v 1 1 = 1 then s2.ledgerSwap c else s2
  s3.syncsRun c

/-! ### Slot power, clocks -/

/-- A write of SPC_CFG: fields other than EN only while EN is 0 before and after it; EN is cleared only in OFF, LATCHED or FET_FAULT, which ends
FET_FAULT (R361) and a power-on that waits; setting it enters OFF (log 129). -/
def Dev.wrSpcCfg (s : Dev) (n : Nat) (v : Word) : Dev :=
  let old := s.reg .spcCfg n
  let was := getBits old 0 1 == 1
  let on := getBits v 0 1 == 1
  let m : Word := 0x3FFFFFFFFFFF1E
  let st := s.spcState n
  if (decide (old &&& m ≠ v &&& m) && (was || on)) || (was && !on && st != 0 && st != 4 && st != 5) then
    s.setB F.SPC_STATUS_SPC_CFG_ERR true n
  else if was && !on then
    let s1 := (s.setSpc n { s.spc n with want := false }).spcPowerEnds n
    (if st = 5 then s1.setF F.SPC_STATUS_STATE 0 n else s1).storeReg ⟨.spcCfg, n, 0⟩ v
  else if !was && on then (s.setF F.SPC_STATUS_STATE 0 n).storeReg ⟨.spcCfg, n, 0⟩ v
  else s.storeReg ⟨.spcCfg, n, 0⟩ v

/-- A write of DROOP_CTL (R371, R372). -/
def Dev.wrDroop (s : Dev) (h : Nat) (v : Word) : Dev :=
  if getBits v 0 8 < getBits v 8 8 then s.setB F.CLK_STATUS_CLK_CFG_ERR true h else (s.storeReg ⟨.droopCtl, h, 0⟩ v).slowClock h

/-! ### Tally, resets, lifecycle -/

/-- A write of TALLY_CTL (R417, R418). -/
def Dev.wrTallyCtl (s : Dev) (v : Word) : Dev :=
  let s1 := s.storeReg ⟨.tallyCtl, 0, 0⟩ v
  let s2 := if getBits v 2 1 = 1 then s1.tallySnapshot else s1
  let s3 := if getBits v 3 1 = 1 then s2.tallyRelease else s2
  if getBits v 1 1 = 1 then s3.tallyStart else s3

/-- A write of TALLY_CTL while block 86 is in its safe state (R339): SNAPSHOT and RELEASE only. -/
def Dev.wrTallySafe (s : Dev) (v : Word) : Dev :=
  let s1 := if (s.reg .tallyCtl ^^^ v) &&& 0xFFFF21 = 0 ∧ getBits v 1 1 = 0 then s else s.intErr 86
  let s2 := if getBits v 2 1 = 1 then s1.tallySnapshot else s1
  if getBits v 3 1 = 1 then s2.tallyRelease else s2

/-- A write of TALLY_SET (R418, R419): setting EN starts the set's count of passes. -/
def Dev.wrTallySet (s : Dev) (k : Nat) (v : Word) : Dev :=
  let s1 := s.storeReg ⟨.tallySet, k, 0⟩ v
  if getBits v 0 1 = 1 ∧ s.b F.TALLY_SET_EN k = false then { s1 with tally := { s1.tally with passes := s1.tally.passes.put 0 k 0 } } else s1

/-- A write of RESET_CTL (R388, R389): SOFT, then BLOCK_GO. -/
def Dev.wrResetCtl (s : Dev) (v : Word) : Dev :=
  let s1 := s.storeReg ⟨.resetCtl, 0, 0⟩ v
  let s2 := if getBits v 0 1 = 1 then s1.softWrite else s1
  if getBits v 8 1 = 1 then s2.blockReset (getBits v 1 7) else s2

/-- A write of LC_CTL through a door (R400, R401): ARM, then GO. From a door whose requests are not accepted ARM is ignored, and GO is
refused. -/
def Dev.wrLcCtl (s : Dev) (d : Door) (v : Word) : Dev :=
  let s1 := s.storeReg ⟨.lcCtl, 0, 0⟩ v
  let t := getBits v 0 2
  if s1.lcDoor d then
    let s2 := if getBits v 2 1 = 1 then s1.lcArm t else s1
    if getBits v 3 1 = 1 then s2.lcGo t else s2
  else if getBits v 3 1 = 1 then s1.setB F.LC_CTL_LC_ERR true else s1

/-! ### Every register -/

/-- What a write that is let through does. `v` is the register's new value as the write makes it. -/
def Dev.regAct (s : Dev) (d : Door) (r : RegId) (v : Word) : Except Fault Dev :=
  let i := r.i
  match r.kind with
  | .svcCtl => .ok (s.wrSvcCtl v)
  | .evqCmd => .ok (s.wrEvqCmd v)
  | .evqWm => .ok (s.wrEvqWm v)
  | .errInject => .ok (s.wrInject i v)
  | .partCtl => .ok (s.wrPartCtl i v)
  | .sbCtl => .ok (s.wrSbCtl i v)
  | .lanePrbsCtl => .ok (s.wrPrbs i r.j v)
  | .portCtl => .ok (s.wrPortCtl i v)
  | .slotCfg => .ok (s.wrSlotCfg i v)
  | .rowSplit => .ok (s.wrRowSplit i v)
  | .rowSpareCtl => .ok (s.wrSpareCtl i v)
  | .floorCtl => .ok (s.wrFloorCtl v)
  | .floorRsvGroups | .groupCtl => .ok (s.wrGroups r v)
  | .floorBank => .ok (s.wrBank i v)
  | .poolCfg => .ok (s.wrPoolCfg r v)
  | .poolWm => .ok (s.wrPoolWm r v)
  | .pschPortShape | .pschQDrr | .pschQShape | .pschGDrr => .ok (s.wrSched r v)
  | .gateCtl => .ok (s.wrGateCtl i v)
  | .gateBase | .gateCycle | .gateLen => .ok (s.wrGateList r r.j v)
  | .gateList => .ok (s.wrGateList r (r.j / 64) v)
  | .bucket => .ok (s.wrPath i (getBits v 0 4))
  | .fwdCtl => s.wrFwdCtl v
  | .hashSeed => .ok (s.wrSeed v)
  | .pitchFence => .ok (if getBits v 0 1 = 1 then s.fence i else s)
  | .stallXlat => .ok (s.wrStallXlat i v)
  | .xlatCtl => .ok (s.wrXlatCtl i v)
  | .fqBase => .ok (s.wrFqBase i v)
  | .fqCi => .ok (s.wrFqCi i v)
  | .xlatResp => .ok (s.wrXlatResp i v)
  | .xlatInvCtl => .ok ((s.storeReg r v).wrInvCtl v)
  | .stallBind => .ok (s.wrBind i v)
  | .stallShare => .ok (s.wrShare i v)
  | .mbMgrIn => .ok (s.wrMbIn r v)
  | .mbMgrCtl => .ok (s.wrMbMgrCtl i v)
  | .ledgerCtx => .ok (s.wrLedgerCtx i v)
  | .ledgerPageBase | .ledgerPages | .ledgerFlushIv => .ok (s.wrLedgerReg r v)
  | .ledgerBitmapA => .ok (s.wrBitmap r false v)
  | .ledgerBitmapB => .ok (s.wrBitmap r true v)
  | .ledgerCmd => .ok (s.wrLedgerCmd i v)
  | .spcCfg => .ok (s.wrSpcCfg i v)
  | .droopCtl => .ok (s.wrDroop i v)
  | .domainCtl => .ok (s.wrDomain i v)
  | .hallCtl => .ok (s.wrHallCtl v)
  | .twinCtl | .twinRoute => .ok (s.wrTwin (fun s => s.storeReg r v)).twinUpdate
  | .twinHold => .ok (if s.b F.TWIN_CTL_EN then s else s.storeReg r v)
  | .tallyCtl => .ok (s.wrTallyCtl v)
  | .tallySet => .ok (s.wrTallySet i v)
  | .timeCtl => .ok (s.wrTimeCtl v)
  | .timeSetReg => .ok (s.stepTo v.toNat)
  | .resetCtl => .ok (s.wrResetCtl v)
  | .lcCtl => .ok (s.wrLcCtl d v)
  | .stallCtl | .dbAddr => .ok (s.wrStallReg r v)
  | .ringBase | .cqBase | .ringStart => .ok (s.wrRingReg r v)
  | .ringCtl => .ok (s.wrRingCtl i r.j v)
  | .mbOut => .ok (s.wrMbOut r v)
  | .mbCtl => .ok (s.wrMbCtl i v)
  | .tallyPage => .ok (s.wrTallyPage i v)
  | _ => .ok (s.storeReg r v)

/-- The value that a 32-bit write leaves in the half it does not cover: what is stored, or written and not in effect yet. -/
def Dev.writeBase (s : Dev) (r : RegId) : Word :=
  match r.kind with
  | .pschPortShape | .pschQShape =>
    match (s.sched r.i).pend.find? (fun e => e.1 == r) with
    | some e => e.2
    | none => s.reg r.kind r.i r.j
  | .stallShare => ((s.stallSt r.i).share).getD (s.reg r.kind r.i r.j)
  | _ => s.reg r.kind r.i r.j

end Sys2Proof.Machine
end

