-- ==== Sys2Proof/Machine/View.lean ====
section
/-! DEFINITION. What reads return (R7, R38, R417, R427, R428): each register with the fields that the device computes, the tables, and
the legacy discovery table (R84-R86). -/

namespace Sys2Proof.Machine

/-! ### The legacy discovery table (R84-R86) -/

/-- An entry's TYPE, INSTANCE, BASE, SIZE and FLAGS as four dwords. -/
def legacyEntry (type inst base size flags : Nat) : List Nat := [type + 65536 * inst, base, size, flags]

/-- The entries in the order of R85. -/
def legacyEntries : List Nat :=
  legacyEntry 1 0 0 0x100000 3
    ++ (List.range 32).flatMap (fun n => legacyEntry 2 n (0x1000000 + n * 0x20000) 0x20000 (if n < 16 then 5 else 6))
    ++ legacyEntry 3 0 0x1800000 0x400000 7 ++ legacyEntry 4 0 0x1C00000 0x100000 7 ++ legacyEntry 5 0 0x1D00000 0x300000 3
    ++ legacyEntry 6 0 0x2000000 0x800000 7 ++ legacyEntry 7 0 0x2800000 0x100000 3 ++ legacyEntry 8 0 0x3000000 0x80000 3
    ++ legacyEntry 9 0 0x3080000 0x80000 3 ++ legacyEntry 10 0 0x3100000 0x80000 3 ++ legacyEntry 11 0 0x3180000 0x80000 3
    ++ legacyEntry 12 0 0x3200000 0x80000 3

/-- The header's dwords before CHECK (R84). -/
def legacyHead : List Nat := [0x5444474D, 0x002B0102, 0x10105120, 0x0000001A]

/-- CHECK (R84): the sum of all dwords is 0 modulo 2^32. -/
def legacyCheck : Nat := (2 ^ 32 - ((legacyHead ++ legacyEntries).foldl (· + ·) 0) % 2 ^ 32) % 2 ^ 32

/-- The table's dwords; past its end reads return 0 (R86). -/
def legacyTable : List Nat := legacyHead ++ [legacyCheck, 0, 0, 0] ++ legacyEntries

/-! ### Fields that the device computes -/

/-- A number as a field of `w` bits in two's complement. -/
def signedField (v : Int) (w : Nat) : Nat := (v % (2 ^ w : Int)).toNat

/-- Millibytes as whole bytes, rounded toward 0 (R182). -/
def wholeBytes (v : Int) : Int := v.tdiv 1000

/-- `FLT_STATUS` (R349). -/
def Dev.fltStatus (s : Dev) : Word :=
  (s.reg .fltStatus &&& 0xFF00) ||| BitVec.ofNat 64 (b2n s.fltAsserted + 2 * b2n s.anySafe + 4 * b2n (s.b F.ROLE_STATUS_STANDOFF)
    + 8 * b2n s.rst.tripped + 16 * b2n s.rst.deviceSafe + 32 * b2n s.ctrlBoth)

/-- `GROUP_STATUS` (R145, R151). -/
def Dev.groupStatus (s : Dev) (g : Nat) : Word :=
  let mine (st : Stored) : Nat := (st.cells.filter (fun c => cellGroup c == g)).length
  let l := s.inDevice
  let used := (l.map mine).foldl (· + ·) 0
  let rsv := ((l.filter (fun st => st.pool == 0 || st.pool == 2 || st.pool == 3)).map mine).foldl (· + ·) 0
  let empty := decide (used = 0) && !s.b F.GROUP_CTL_ALLOC_EN g
  (s.reg .groupStatus g &&& ~~~(0x7FFF3FFF : Word)) ||| BitVec.ofNat 64 (used + 65536 * rsv + 2 ^ 30 * b2n empty)

/-- Some ingress has a reservation that half `h` does not cover (R153). -/
def Dev.rsvShort (s : Dev) (h : Nat) : Bool := (List.range 576).any (fun i => (s.vcsOf i).any (fun v => s.shortIn i v h))

/-- `POOL_STATUS` (R153-R156). -/
def Dev.poolStatus (s : Dev) (i v : Nat) : Word :=
  let x := s.pool i v
  let short := (s.vcsOf i).contains v && (s.shortIn i v 0 || s.shortIn i v 1)
  BitVec.ofNat 64 (x.heldCommon + 2 ^ 14 * (ceilDiv (s.pledgeCommon x) 16) + 2 ^ 28 * b2n x.withhold + 2 ^ 29 * b2n short)

/-- `PSCH_Q_STATUS` (R176-R182). -/
def Dev.qStatus (s : Dev) (p q : Nat) : Word :=
  let x := s.sched p
  BitVec.ofNat 64 (x.qdef.look 0 q + 2 ^ 18 * signedField (wholeBytes (s.tokensNow p q)) 22
    + 2 ^ 40 * b2n (x.tcqs.any (fun e => e.2.contains q)) + 2 ^ 41 * b2n (s.eligible p q))

/-- `PORTER_STATUS` (R271-R274). -/
def Dev.porterStatus (s : Dev) (n : Nat) : Word :=
  let (data, ctrl, quar) := s.tagCounts n
  (s.reg .porterStatus n &&& 0x2000000) ||| BitVec.ofNat 64 (data + 512 * ctrl + 2 ^ 15 * quar)

/-- Faults of the Porters of half `h` that await a response (R300). -/
def Dev.faultsPending (s : Dev) (h : Nat) : Nat :=
  (s.rings.filter (fun e => e.2.fault.isSome && s.stallHalf (e.1 / 8) == h)).length
    + (s.stalls.filter (fun e => e.2.pollFault.isSome && s.stallHalf e.1 == h)).length

/-- `RING_SAVE` (R297). -/
def Dev.ringSave (s : Dev) (k : Nat) : Word :=
  let x := s.ring k
  let (slot, off, v) := match x.saved with
    | some (a, b, _) => (a, b, true)
    | none => (0, 0, false)
  BitVec.ofNat 64 (slot % 65536 + 65536 * (off % 2 ^ 33) + 2 ^ 49 * b2n v + 2 ^ 50 * b2n x.fault.isSome)

/-- `STALL_SCHED` (R310-R314). With RATE 0 the token count reads BURST (R182). -/
def Dev.stallSched (s : Dev) (st : Nat) : Word :=
  let x := s.stallSt st
  let tok : Int := if s.stallRate st = 0 then (1000 * min (s.f F.STALL_SHARE_BURST st) 1048576 : Nat) else x.tokens
  BitVec.ofNat 64 (signedField x.deficit 22 + 2 ^ 22 * signedField (wholeBytes tok) 22 + 2 ^ 44 * b2n x.listed
    + 2 ^ 45 * b2n x.share.isSome)

/-- Data and list reads of a Stall that are outstanding (`STALL_STATUS.DATA_OUT`). -/
def Dev.dataOut (s : Dev) (st : Nat) : Nat :=
  ((s.porter (s.stallPorter st)).tags.filter (fun e => match e.2 with
    | some t => !t.pf && t.stall == st && decide (t.kind ≤ 1) && !t.quar
    | none => false)).length

/-- `STALL_STATUS`: ACTIVE reads 0 while the Stall is not polled (R262). -/
def Dev.stallStatus (s : Dev) (st : Nat) : Word :=
  let v := putBits (s.reg .stallStatus st) 2 8 (s.dataOut st)
  if s.polled (s.stallPorter st) st then v else putBits v F.STALL_STATUS_ACTIVE.lo 1 0

/-- `HALL_STATUS`: a Hall of one names itself (R192). -/
def Dev.hallStatus (s : Dev) : Word :=
  if s.b F.HALL_CTL_EN then s.reg .hallStatus
  else
    (s.reg .hallStatus &&& ~~~(0x3FFFC3F00000000 : Word))
      ||| BitVec.ofNat 64 (2 ^ 32 * s.me + 2 ^ 36 + 2 ^ 37 + 2 ^ (42 + s.me))

/-- `TWIN_STATUS` (R229, R237, R239, R242). -/
def Dev.twinStatus (s : Dev) : Word :=
  let held := (s.twin.streams.map (fun e => e.2.held.length)).foldl (· + ·) 0
  (s.reg .twinStatus &&& 4) ||| BitVec.ofNat 64 (b2n s.twinDegraded + 2 * b2n s.twinMismatch + 8 * b2n (!s.twin.resetWait.isEmpty)
    + 16 * (held % 2 ^ 18))

/-- `LC_STATE` (R399). -/
def Dev.lcState (s : Dev) : Word :=
  BitVec.ofNat 64 (s.lifecycle + 4 * s.dieState 0 + 16 * s.dieState 1 + 64 * b2n s.burnPartial + 128 * b2n s.lcSplit)

/-- `SLOT_STATE`: while the slot is COOLING, how much of HP_RETRY_TIME is left is a free value. -/
def Dev.slotStateReg (s : Dev) (p : Nat) : Word :=
  if s.slotState p = 5 then
    putBits (s.reg .slotState p) 3 13 (s.freeVal.toNat % (s.f F.SLOT_STATE_COOL_LEFT p + 1))
  else s.reg .slotState p

/-- A register as it reads, access rules of its domain and block apart. -/
def Dev.viewReg (s : Dev) (r : RegId) : Word :=
  if r.kind.info.form = .portSlot ∧ s.isPort r.i = false then 0
  else if r.isCounter = true ∧ s.captured r = true then putBits (s.reg r.kind r.i r.j) 0 48 (s.counterNow r)
  else
    match r.kind with
    | .evqStatus => s.evqStatus
    | .fltStatus => s.fltStatus
    | .errStatus => putBits (s.reg .errStatus r.i) 0 1 (b2n (s.event r.i))
    | .slotState => s.slotStateReg r.i
    | .floorStatus => (s.reg .floorStatus &&& ~~~(6 : Word)) ||| BitVec.ofNat 64 (2 * b2n (s.rsvShort 0) + 4 * b2n (s.rsvShort 1))
    | .floorFree => BitVec.ofNat 64 (s.floorFree r.i)
    | .groupStatus => s.groupStatus r.i
    | .poolStatus => s.poolStatus r.i r.j
    | .pschCtl => putBits (s.reg .pschCtl r.i) 0 1 (b2n (!(s.sched r.i).pend.isEmpty))
    | .pschPortTokens => BitVec.ofNat 64 (signedField (wholeBytes (s.tokensNow r.i 8)) 22)
    | .pschQStatus => s.qStatus r.i r.j
    | .pschGStatus =>
      BitVec.ofNat 64 ((s.sched r.i).gdef.look 0 r.j + 256 * b2n ((s.sched r.i).groups.contains r.j))
    | .gateStatus => putBits (s.reg .gateStatus r.i) 8 8 (s.openMask r.i)
    | .fwdCtl =>
      putBits (putBits (s.reg .fwdCtl) 2 1 (b2n s.commitBusy)) 3 1 (b2n s.listDrain)
    | .porterStatus => s.porterStatus r.i
    | .xlatStatus =>
      (s.reg .xlatStatus r.i &&& 3) ||| BitVec.ofNat 64 (4 * b2n (!(s.xl r.i).fq.isEmpty && s.fqFull r.i) + 8 * s.faultsPending r.i)
    | .ringSave => s.ringSave (8 * r.i + r.j)
    | .stallSched => s.stallSched r.i
    | .stallStatus => s.stallStatus r.i
    | .mbMgrOut => s.reg .mbOut r.i r.j
    | .mbIn => s.reg .mbMgrIn r.i r.j
    | .hallStatus => s.hallStatus
    | .twinStatus => s.twinStatus
    | .pwrStatus => putBits (s.reg .pwrStatus) 1 8 s.wakingCount
    | .lcState => s.lcState
    | .bootStatus => putBits (s.reg .bootStatus) 6 1 (b2n s.rst.testMode)
    | .timeNow => BitVec.ofNat 64 s.nowNs
    | .tallyPage => putBits (s.reg .tallyPage r.i) 1 1 (b2n (s.b ⟨.tallyUserEn, r.i % 64, 1⟩ (r.i / 64)))
    | _ => s.reg r.kind r.i r.j

/-- A dword of a double-buffered table; bus map dwords hold two entries. -/
def Dev.viewTbl (s : Dev) (active : Bool) (t : TblId) (byte : Nat) : BitVec 32 :=
  let get (t : TblId) : Word := Store.get (fun _ => 0) (if active then s.active else s.shadow) t
  if t.kind = .bus then
    BitVec.ofNat 32 ((get t).toNat % 65536 + 65536 * ((get { t with j := t.j + 1 }).toNat % 65536))
  else BitVec.ofNat 32 ((get t).toNat >>> (8 * byte))

end Sys2Proof.Machine
end

