-- ==== Sys2Proof/Machine/Access.lean ====
section
/-! DEFINITION. Register accesses: what lets one through (R21, R38, R339, R390, R391, R393), 32-bit and 64-bit accesses (R9, R429),
reads, writes, and the 4 management request slots (R405). -/

namespace Sys2Proof.Machine

/-- How an access ends: it acts; it is not made at all; it completes as to a domain in reset (R21); it waits for a clock (R21); it meets
a block in its safe state (R339). -/
inductive Gate where
  | act | gone | inReset | wait | safe
  deriving DecidableEq, Repr

/-- The half of an error block (R335); `ic` is the half in charge. -/
def blockHalf (ic b : Nat) : Nat :=
  if b < 32 then b / 16 else if b < 34 then b - 32 else if b < 66 then (b - 34) / 16 else if b < 86 then b % 2 else ic

/-- Blocks whose memories the wipe of a reset covers (R391). -/
def wipedBlock (b : Nat) : Bool := decide (b < 32) || decide (66 ≤ b ∧ b < 70) || decide (74 ≤ b ∧ b < 84)

/-- A register whose writes its block's safe state discards. In the Porter services blocks the unit's own registers are meant: a Porter
in its safe state leaves its Stalls' rings to be disabled and rebound (R338, R339). -/
def Dev.regSafe (s : Dev) (r : RegId) : Bool :=
  let b := s.blockOf r
  if b = 78 ∨ b = 79 then
    match r.kind with
    | .porterCtl | .porterStatus => s.porterSafe r.i
    | .ledgerCtx | .ledgerPageBase | .ledgerPages | .ledgerFlushIv | .ledgerBitmapA | .ledgerBitmapB | .ledgerCmd => s.ledgerSafe s.ic
    | _ => false
  else s.safe b

/-- What the register path lets through (R338, R386, R393): nothing while the half in charge is held in cold reset, and in STANDOFF only what the
I3C target asks for. In the device-wide safe state accesses end as to a domain in reset (R407). A controller in its safe state and the Aisle's
safe state end accesses as R21 says. `b` is the block. -/
def Dev.pathGate (s : Dev) (d : Door) (b : Option Nat) : Gate :=
  if s.coldHeld s.ic then .gone
  else if s.rst.deviceSafe then .inReset
  else if s.b F.ROLE_STATUS_STANDOFF && d != .i3c then .gone
  else if s.safe (82 + s.ic) then .inReset
  else
    match b with
    | some b => if (s.safe 72 || s.safe 73) && blockHalf s.ic b != s.ic then .inReset else .act
    | none => .act

/-- What a block lets through: a block reset, a wipe, its power domain (R21, R390, R391). The controller, `ctl`, writes the records that it
replays. -/
def Dev.blockGate (s : Dev) (b : Nat) (dom : Option Nat) (ctl : Bool := false) : Gate :=
  if s.rst.blockBusy = some b ∧ (ctl && s.rst.replay.isSome) = false then .inReset
  else if s.rst.wipe && wipedBlock b then .inReset
  else
    match dom with
    | none => .act
    | some d =>
      if s.power d ≠ 2 ∨ s.b F.DOMAIN_STATE_IN_RESET d = true then .inReset
      else if s.b F.DOMAIN_STATE_CLK_STOPPED d then .wait else .act

/-- The gate of a register. -/
def Dev.regGate (s : Dev) (r : RegId) (ctl : Bool := false) : Gate :=
  match s.blockGate (s.blockOf r) r.domain ctl with
  | .act => if s.regSafe r && !r.kind.isErrReg then .safe else .act
  | g => g

/-- The trim words of the fuse shadow, whose contents are not described. -/
def isTrim (bar : Bar) (off : Nat) : Bool := bar == .mgmt && decide (0x3201020 ≤ off ∧ off < 0x3201100)

/-- What lies at a dword of a register space. -/
def targetOf (bar : Bar) (off : Nat) : Target :=
  match bar with
  | .mgmt => targetMgmt off
  | .mgmtMsix =>
    if off < 0x100 then .msix (off / 4) else if 0x8000 ≤ off ∧ off < 0x8008 then .pba (decide (0x8004 ≤ off)) else .nothing
  | .stall st => targetStall st off

/-- The function whose MSI-X table and PBA a register space holds. -/
def barFn : Bar → Fn
  | .stall st => .stall st
  | .mgmt | .mgmtMsix => .mgmtPf

/-- The block of what lies at a dword of a register space and is no register of `RegKind` (R448): a table of the forwarding or Hall blocks, a
Stall's MSI-X table and PBA, the trim words. An offset that no chapter assigns belongs to none (R428). -/
def Dev.memBlock (s : Dev) (bar : Bar) (off : Nat) : Option Nat :=
  match targetOf bar off, bar with
  | .tbl _ t _, _ => some (t.block s.ic)
  | .msix _, .stall st | .pba _, .stall st => some (78 + s.stallHalf st)
  | _, _ => if isTrim bar off then some 87 else none

/-- The gate of what lies at a dword of a register space, and its block. -/
def Dev.targetGate (s : Dev) (bar : Bar) (off : Nat) (ctl : Bool := false) : Gate × Option Nat :=
  match targetOf bar off with
  | .reg r _ => (s.regGate r ctl, some (s.blockOf r))
  | _ =>
    match s.memBlock bar off with
    | none => (.act, none)
    | some b =>
      (match s.blockGate b none ctl with
      | .act => if b ≠ 78 ∧ b ≠ 79 ∧ s.safe b = true then .safe else .act
      | g => g, some b)

/-- The gate of an access at a dword of a register space. Stalls' BAR0 lies behind the Porter PF, not on the register path, and the management
PF's BAR2 is of no block. -/
def Dev.gateAt (s : Dev) (d : Door) (bar : Bar) (off : Nat) : Gate × Option Nat :=
  match bar with
  | .mgmt =>
    let (g, b) := s.targetGate .mgmt off (d == .controller)
    match s.pathGate d b with
    | .act => (g, b)
    | p => (p, b)
  | .mgmtMsix => (s.pathGate d none, none)
  | .stall st =>
    if s.coldHeld s.ic || !s.vfExists st || s.b F.STALL_MGR_STATUS_FLR_BUSY st then (.gone, none) else s.targetGate (.stall st) off

/-- An internal error of the block that an access names, where it names one. -/
def Dev.intErrOf (s : Dev) (b : Option Nat) : Dev :=
  match b with
  | some b => s.intErr b
  | none => s

/-! ### Writes -/

/-- The slot of a lane that starts no port: it reads 0 and ignores writes (R38). -/
def Dev.noPort (s : Dev) (r : RegId) : Bool := r.kind.info.form == .portSlot && !s.isPort r.i

/-- A write of a register whose bits `m` the access covers (R7, R8, R339, R429). A GO discarded in block 87's safe state sets LC_ERR
too (R401, DEDUCED). -/
def Dev.regWrite (s : Dev) (d : Door) (r : RegId) (v m : Word) : Except Fault Dev :=
  let n := r.kind.info
  if s.noPort r then .ok s
  else if v &&& m &&& n.rsv ≠ 0 then .error .rsvWrite
  else
    let full := (v &&& m) ||| (s.writeBase r &&& (n.rw ||| n.rws) &&& ~~~m)
    if s.regSafe r && !r.kind.isErrReg && r.kind != .resetCtl then
      .ok (if r.kind = .tallyCtl then s.wrTallySafe full
        else if r.kind = .lcCtl ∧ full.getLsbD 3 = true then (s.intErr (s.blockOf r)).setB F.LC_CTL_LC_ERR true
        else s.intErr (s.blockOf r))
    else
      let offs := (if m &&& r.kind.covered &&& 0xFFFFFFFF = 0 then [] else [r.addr])
        ++ (if m &&& r.kind.covered &&& 0xFFFFFFFF00000000 = 0 then [] else [r.addr + 4])
      match s.armedAt (s.blockOf r) offs with
      | none => s.regAct d r full
      | some off => (s.regAct d r full).map (fun t => t.parityHit (s.blockOf r) offs off (some r))

/-- The dword at `off` of a shadow set has been written: an injection armed for it acts (R341, R350). -/
def Dev.shadowHit (s : Dev) (t : TblId) (off : Nat) : Dev :=
  match s.armedAt (t.block s.ic) [off] with
  | none => s
  | some _ => s.parityHit (t.block s.ic) [off] off none

/-- A 32-bit write of a double-buffered table at offset `off`: of its shadow set, while no commit is under way (R125). -/
def Dev.tblWrite (s : Dev) (off : Nat) (active : Bool) (t : TblId) (byte : Nat) (v : BitVec 32) : Except Fault Dev :=
  if active then .ok s
  else if s.commitBusy then .error .shadowWhileBusy
  else if s.hall.prepared then .ok s
  else if t.kind = .bus then
    let lo : Word := BitVec.ofNat 64 (v.toNat % 65536)
    let hi : Word := BitVec.ofNat 64 (v.toNat / 65536)
    if (lo ||| hi) &&& t.rsv ≠ 0 then .error .rsvWrite
    else .ok (((s.setSh .bus lo t.i t.j).setSh .bus hi t.i (t.j + 1)).shadowHit t off)
  else
    let w : Word := BitVec.ofNat 64 (v.toNat * 2 ^ (8 * byte))
    if w &&& t.rsv ≠ 0 then .error .rsvWrite
    else .ok ((s.setSh t.kind ((s.sh t.kind t.i t.j &&& ~~~(BitVec.ofNat 64 (0xFFFFFFFF * 2 ^ (8 * byte)))) ||| w) t.i t.j).shadowHit t off)

/-- A 32-bit write that is let through. -/
def Dev.writeTarget (s : Dev) (d : Door) (bar : Bar) (off : Nat) (t : Target) (v : BitVec 32) : Except Fault Dev :=
  match t with
  | .reg r hi =>
    let x : Word := v.zeroExtend 64
    if hi then s.regWrite d r (x <<< 32) 0xFFFFFFFF00000000 else s.regWrite d r x 0xFFFFFFFF
  | .tbl active t byte => s.tblWrite off active t byte v
  | .msix dw =>
    let m : BitVec 32 := if dw % 4 = 0 then 0xFFFFFFFC else if dw % 4 = 3 then 1 else 0xFFFFFFFF
    .ok ((s.setMsixDw (barFn bar) (dw / 4) (dw % 4) (v &&& m)).sendPending (barFn bar))
  | _ => .ok s

/-- RESET_CTL written in the device-wide safe state: SOFT and BLOCK_GO are refused with BLOCK_ERR (R388, R389). -/
def Dev.resetRefused (s : Dev) (r : RegId) (v : Word) : Dev :=
  if s.rst.deviceSafe && r.kind == .resetCtl && (v.getLsbD 0 || v.getLsbD 8) then s.setB F.RESET_STATUS_BLOCK_ERR true else s

/-- A 32-bit write with its gate (R21, R339). -/
def Dev.writeDword (s : Dev) (d : Door) (bar : Bar) (off : Nat) (v : BitVec 32) : Except Fault Dev :=
  match s.gateAt d bar off with
  | (.act, _) => s.writeTarget d bar off (targetOf bar off) v
  | (.safe, b) =>
    match targetOf bar off with
    | .reg _ _ => s.writeTarget d bar off (targetOf bar off) v
    | _ => .ok (s.intErrOf b)
  | (.inReset, b) => .ok (match targetOf bar off with
    | .reg r false => (s.intErrOf b).resetRefused r (v.zeroExtend 64)
    | _ => s.intErrOf b)
  | (_, _) => .ok s

/-- A write access (R429): a 64-bit access writes a 64-bit register at once, else two dwords, the lower first. -/
def Dev.writeAccess (s : Dev) (d : Door) (bar : Bar) (off : Nat) (wide : Bool) (v : BitVec 64) : Except Fault Dev :=
  if wide then
    match targetOf bar off, (s.gateAt d bar off).1 with
    | .reg r false, .act | .reg r false, .safe =>
      if r.kind.info.wide then s.regWrite d r v 0xFFFFFFFFFFFFFFFF
      else (s.writeDword d bar off (v.truncate 32)).bind (fun t => t.writeDword d bar (off + 4) ((v >>> 32).truncate 32))
    | _, _ => (s.writeDword d bar off (v.truncate 32)).bind (fun t => t.writeDword d bar (off + 4) ((v >>> 32).truncate 32))
  else s.writeDword d bar off (v.truncate 32)

/-! ### Reads -/

/-- A dword as it reads, gates apart. -/
def Dev.readTarget (s : Dev) (bar : Bar) (off : Nat) : BitVec 32 :=
  match targetOf bar off with
  | .reg r hi => if s.noPort r then 0 else ((s.viewReg r) >>> (if hi then 32 else 0)).truncate 32
  | .tbl active t byte => s.viewTbl active t byte
  | .legacy o => BitVec.ofNat 32 (legacyTable.getD (o / 4) 0)
  | .msix dw => s.msixDw (barFn bar) (dw / 4) (dw % 4)
  | .pba hi =>
    if hi then 0 else BitVec.ofNat 32 (((List.range 16).map (fun e => if s.pendingBit (barFn bar) e then 2 ^ e else 0)).foldl (· + ·) 0)
  | .nothing => if isTrim bar off then s.freeVal.truncate 32 else 0

/-- A dword as it reads (R21), and the device after the read. -/
def Dev.readDword (s : Dev) (d : Door) (bar : Bar) (off : Nat) : Dev × BitVec 32 :=
  match s.gateAt d bar off with
  | (.act, _) | (.safe, _) | (.wait, _) => (s, s.readTarget bar off)
  | (.inReset, b) => (s.intErrOf b, 0xFFFFFFFF)
  | (.gone, _) => (s, 0)

/-- A read may take a free value. -/
def Dev.readTakesFree (bar : Bar) (off : Nat) : Bool :=
  isTrim bar off || (match targetOf bar off with
    | .reg r _ => r.kind == .slotState
    | _ => false)

/-- A read access. -/
def Dev.readAccess (s : Dev) (d : Door) (bar : Bar) (off : Nat) (wide : Bool) : Dev × BitVec 64 :=
  let (s1, lo) := s.readDword d bar off
  let (s2, hi) := if wide then s1.readDword d bar (off + 4) else (s1, 0)
  (if Dev.readTakesFree bar off then s2.useFree else s2, hi ++ lo)

/-! ### Management request slots (R405) -/

/-- Bytes of a value, least significant first. -/
def valBytes (wide : Bool) (v : BitVec 64) : List Byte := leBytes v.toNat (if wide then 8 else 4)

/-- An access is 32-bit or 64-bit and naturally aligned (R9). -/
def alignedAccess (off bytes : Nat) : Bool := (bytes == 4 || bytes == 8) && off % bytes == 0

/-- An access of one width is of the other kind than R9 asks for. -/
def Access.isOdd (a : Access) : Bool := !alignedAccess a.off a.bytes

/-- The dwords that an access covers, in part or whole. -/
def Access.dwords (a : Access) : List Nat :=
  (List.range (max 1 ((a.off % 4 + a.bytes + 3) / 4))).map (fun k => a.off / 4 * 4 + 4 * k)

/-- The gate of an access: that of its first dword, but it waits while any dword's clock is stopped (R21). -/
def Dev.accessGate (s : Dev) (a : Access) : Gate :=
  let g := (s.gateAt a.door a.bar (a.off / 4 * 4)).1
  if g ≠ .gone ∧ a.dwords.any (fun o => (s.gateAt a.door a.bar o).1 == .wait) = true then .wait else g

/-- A completed access answers its door: read data, the I3C window's flags (R409), or the value that a POLL32 has read (R397). `rst` says that it
ended as to a domain in reset. -/
def Dev.answer (s : Dev) (a : Access) (v : BitVec 64) (rst : Bool) : Dev :=
  match a.door with
  | .mgmtPf => if a.write then s else s.emit (.readData v)
  | .i3c =>
    let m := { s.mgmt with winBusy := false, winErr := s.mgmt.winErr || rst }
    { s with mgmt := if a.write then m else { m with winLo := v.truncate 32, winHi := if a.wide then (v >>> 32).truncate 32 else 0 } }
  | .debug => if a.write then s else s.emit (.debugData (valBytes a.wide v))
  | .controller => if a.write then s else { s with rst := { s.rst with polled := some (a.off, v.truncate 32) } }

/-- A read of the wrong width or alignment returns all ones in every byte it covers (R9); a write is discarded. -/
def Dev.answerOdd (s : Dev) (a : Access) : Dev :=
  match a.door with
  | .mgmtPf => if a.write then s else s.emit (.readBytes (List.replicate a.bytes 0xFF))
  | .debug => if a.write then s else s.emit (.debugData (List.replicate a.bytes 0xFF))
  | .i3c | .controller => s.answer a (BitVec.ofNat 64 (2 ^ (8 * min a.bytes 8) - 1)) false

/-- The internal error bits that an access of the wrong width or alignment sets: of every block that owns a register it touches (R9, R336).
A dword that the register path does not reach at all sets none. -/
def Dev.oddErrs (s : Dev) (a : Access) : Dev :=
  a.dwords.foldl (fun t o =>
    match t.gateAt a.door a.bar o with
    | (.gone, _) => t
    | (_, b) => t.intErrOf b) s

/-- An access that has its slot is made and answered. One that is not made at all gets no answer. -/
def Dev.perform (s : Dev) (a : Access) : Except Fault Dev :=
  match (s.gateAt a.door a.bar (a.off / 4 * 4)).1 with
  | .gone => .ok s
  | g =>
    if a.isOdd then .ok ((s.oddErrs a).answerOdd a)
    else if a.write then (s.writeAccess a.door a.bar a.off a.wide a.v).bind (fun t => .ok (t.answer a 0 (g == .inReset)))
    else
      let (t, v) := s.readAccess a.door a.bar a.off a.wide
      .ok (t.answer a v (g == .inReset))

/-- A management request slot that is free. -/
def Dev.freeSlot (s : Dev) : Option Nat := (List.range 4).find? (fun k => (s.mgmt.slots.look none k).isNone)

/-- A register access (R9, R21, R405): with no slot free it waits; on a stopped clock it holds its slot; else it is made. Accesses of the
wrong width or alignment wait and hold a slot as others do (DEDUCED: R21 and R405 speak of every register access; log 40). -/
def Dev.request (s : Dev) (a : Access) : Except Fault Dev :=
  match a.bar with
  | .stall _ | .mgmtMsix => s.perform a
  | .mgmt =>
    let g := s.accessGate a
    if g = .gone then .ok s
    else
      match s.freeSlot with
      | none => .ok { s with mgmt := { s.mgmt with waiting := s.mgmt.waiting ++ [a] } }
      | some k => if g = .wait then .ok { s with mgmt := { s.mgmt with slots := s.mgmt.slots.put none k (some a) } } else s.perform a

/-- Accesses that wait for a slot take the free ones, in arrival order. -/
def Dev.admitAccesses (s : Dev) : Nat → Except Fault Dev
  | 0 => .ok s
  | n + 1 =>
    match s.freeSlot, s.mgmt.waiting with
    | some _, a :: rest => (({ s with mgmt := { s.mgmt with waiting := rest } } : Dev).request a).bind (fun t => t.admitAccesses n)
    | _, _ => .ok s

/-- The access in a slot completes once its clock runs (R21). -/
def Dev.slotComplete (s : Dev) (k : Nat) : Except Fault Dev :=
  match s.mgmt.slots.look none k with
  | none => .ok s
  | some a =>
    if s.accessGate a = .wait then .ok s
    else
      (({ s with mgmt := { s.mgmt with slots := s.mgmt.slots.put none k none } } : Dev).perform a).bind (fun t =>
        t.admitAccesses t.mgmt.waiting.length)

/-- The gate of a register on the register path. -/
def Dev.gateOf (s : Dev) (d : Door) (r : RegId) : Gate :=
  match s.pathGate d (some (s.blockOf r)) with
  | .act => s.regGate r (d == .controller)
  | g => g

/-- The gate of a register in a Stall's BAR0, which lies behind the Porter PF. -/
def Dev.stallGate (s : Dev) (st : Nat) (r : RegId) : Gate :=
  if s.coldHeld s.ic || !s.vfExists st || s.b F.STALL_MGR_STATUS_FLR_BUSY st then .gone else s.regGate r

/-- The bits that a write of a whole register covers. -/
def RegId.width (r : RegId) : Word := if r.kind.info.wide then 0xFFFFFFFFFFFFFFFF else 0xFFFFFFFF

/-- A write of a whole register that is let through, or dropped with an internal error in a domain in reset (R21). -/
def Dev.regMake (s : Dev) (d : Door) (g : Gate) (r : RegId) (v : Word) : Except Fault Dev :=
  match g with
  | .act | .safe => s.regWrite d r v r.width
  | .inReset => .ok ((s.intErr (s.blockOf r)).resetRefused r v)
  | _ => .ok s

/-- A write of a register by the management PF, as the commands make it that name the register: `request` at its address. -/
def Dev.regWriteCmd (s : Dev) (r : RegId) (v : Word) : Except Fault Dev :=
  let a : Access := { door := .mgmtPf, bar := .mgmt, off := r.addr, write := true, wide := r.kind.info.wide, v := v }
  let g := s.gateOf .mgmtPf r
  if g = .gone then .ok s
  else
    match s.freeSlot with
    | none => .ok { s with mgmt := { s.mgmt with waiting := s.mgmt.waiting ++ [a] } }
    | some k =>
      if g = .wait then .ok { s with mgmt := { s.mgmt with slots := s.mgmt.slots.put none k (some a) } }
      else s.regMake .mgmtPf g r v

/-- A write of a register in a Stall's BAR0 by its driver. -/
def Dev.stallWriteCmd (s : Dev) (st : Fin 1024) (r : RegId) (v : Word) : Except Fault Dev :=
  s.regMake .mgmtPf (s.stallGate st r) r v

/-- What a command answers that is a register access: the twin ports' state follows, and a host error that the manual leaves without an
outcome is a fault. -/
def State.doneReg (s : State) (r : Except Fault Dev) : Host.Outcome State Fault Refusal :=
  match r with
  | .ok d => s.done d.twinUpdate
  | .error f => .fault f

end Sys2Proof.Machine
end

