-- ==== Sys2Proof/Machine/BootOps.lean ====
section
/-! DEFINITION. The Ardel image (R395-R398): its check, its sections and records, the replay at boot and after a block reset. -/

namespace Sys2Proof.Machine

/-! ### The image (R396) -/

/-- A section of an image: TYPE, OFFSET, SIZE. -/
structure Section where
  type : Nat
  off : Nat
  size : Nat
  deriving DecidableEq, Repr

/-- The section table. -/
def imgSections (l : List Byte) : List Section :=
  (List.range (leAt l 6 2)).map (fun k => ⟨leAt l (0x40 + 16 * k) 2, leAt l (0x44 + 16 * k) 4, leAt l (0x48 + 16 * k) 4⟩)

/-- A section's bytes. -/
def Section.bytes (x : Section) (l : List Byte) : List Byte := (l.drop x.off).take x.size

/-- The Revision ID of the device (R81). -/
def revisionId : Nat := 0x10

/-- A copy is valid (R396). -/
def imgValid (l : List Byte) : Bool :=
  leAt l 0 4 == 0x4C445241 && leAt l 0x10 2 == 0x5120 && leAt l 0x3C 4 == (crc32c (l.take 0x3C)).toNat
    && decide (leAt l 0x12 1 ≤ revisionId) && decide (leAt l 8 4 ≤ min l.length 0x1000000)
    && leAt l 0x38 4 == (crc32c ((l.take (leAt l 8 4)).drop 0x40)).toNat
    && ((imgSections l).filter (fun x => x.type == 1)).length == 1

/-- The valid copy that boots, and whether it is copy B: the higher SEQ, copy A at equal SEQ. -/
def imgChoose (a b : Option (List Byte)) : Option (List Byte × Bool) :=
  match a.filter imgValid, b.filter imgValid with
  | some x, some y => if leAt x 0xC 4 < leAt y 0xC 4 then some (y, true) else some (x, false)
  | some x, none => some (x, false)
  | none, some y => some (y, true)
  | none, none => none

/-! ### Records (R397) -/

/-- Whole records of 16 bytes. -/
def records (l : List Byte) : List (List Byte) := (List.range (l.length / 16)).map (fun k => (l.drop (16 * k)).take 16)

/-- The RECORDS sections in section order. -/
def imgRecords (l : List Byte) : List (List (List Byte)) :=
  ((imgSections l).filter (fun x => x.type == 2)).map (fun x => records (x.bytes l))

/-- A record's OP. -/
def recOp (r : List Byte) : Nat := leAt r 0 1

/-- A record's OFFSET. -/
def recOff (r : List Byte) : Nat := leAt r 4 4 % 2 ^ 26

/-- A record's VALUE. -/
def recVal (r : List Byte) : BitVec 64 := BitVec.ofNat 64 (leAt r 8 8)

/-- The subsystem IDs of the IDENT section; 0 with none. -/
def imgIdent (l : List Byte) : BitVec 64 :=
  match (imgSections l).find? (fun x => x.type == 3) with
  | some x => BitVec.ofNat 64 (leAt (x.bytes l) 0 8)
  | none => 0

/-! ### The course of a boot (R395, R398) -/

/-- Boot ends: subsystem IDs, DONE, the standby's copy, a BOOT record. -/
def Dev.bootDone (s : Dev) : Dev :=
  let s1 : Dev := { s with rst := { s.rst with sections := [], recIdx := 0, subsys := imgIdent (s.rst.image.getD []) } }
  ((s1.setF F.BOOT_STATUS_STAGE 4).setB F.ROLE_STATUS_STANDBY_OK (!s.safe (83 - s.ic))).post 0x04 3
    [4, BitVec.ofNat 32 (s.f F.BOOT_STATUS_SEQ)]

/-- Boot stops with cause `err` at record `idx` (R398): a soft reset without replay, STAGE FAILED, a BOOT record. -/
def Dev.bootFail (s : Dev) (err idx : Nat) : Dev :=
  (((s.softReset 4 5).setF F.BOOT_STATUS_ERR err).setF F.BOOT_STATUS_ERR_INDEX idx).post 0x04 1 [BitVec.ofNat 32 (5 + 8 * err), 0]

/-- The sections left to replay, from record `idx` of the first; with none left boot ends. A section with no record left is over. -/
def Dev.replayFrom (s : Dev) (l : List (List (List Byte))) (idx : Nat) : Dev :=
  match l with
  | (r :: rest) :: more => { s with rst := { s.rst with sections := (r :: rest) :: more, recIdx := idx } }
  | [] :: more => s.replayFrom more 0
  | [] => s.bootDone

/-- The record whose turn it is, while no DELAY runs: of a replay after a block reset, or of boot. -/
def Dev.record (s : Dev) : Option (List Byte) :=
  if s.served && !s.rst.delaying then
    match s.rst.replay with
    | some (r :: _) => some r
    | _ =>
      if s.f F.BOOT_STATUS_STAGE = 3 then
        match s.rst.sections with
        | (r :: _) :: _ => some r
        | _ => none
      else none
  else none

/-- The record whose turn it is, if it is an `op`. -/
def Dev.recordOf (s : Dev) (op : Nat) : Option (List Byte) := s.record.filter (fun r => recOp r == op)

/-- A record of boot is done. -/
def Dev.bootNext (s : Dev) : Dev :=
  match s.rst.sections with
  | (_ :: rest) :: more => s.replayFrom (rest :: more) (s.rst.recIdx + 1)
  | _ => s

/-- The section is done (END). -/
def Dev.sectionDone (s : Dev) : Dev := s.replayFrom s.rst.sections.tail 0

/-- A record's write, as the controller makes it. -/
def Dev.recordWrite (s : Dev) (r : List Byte) (wide : Bool) : Except Fault Dev :=
  s.request { door := .controller, bar := .mgmt, off := recOff r, write := true, wide := wide, v := recVal r }

/-! ### Replay after a block reset (R390) -/

/-- A record's OFFSET lies in block `b`'s register ranges, outside the device-wide tables that a forwarding or checker block holds. -/
def Dev.inBlock (s : Dev) (b off : Nat) : Bool :=
  match targetMgmt (off / 4 * 4) with
  | .reg r _ => s.blockOf r == b && !((b == 76 || b == 77) && (r.kind == .pitch || r.kind == .partDefmap))
  | .tbl _ t _ => t.block s.ic == b && !(b == 66 || b == 67)
  | _ => false

/-- The records of the booted copy, each section up to its END. -/
def Dev.bootedRecords (s : Dev) : List (List Byte) :=
  match s.rst.image with
  | some img => ((imgRecords img).map (fun l => l.takeWhile (fun r => recOp r != 0))).flatten
  | none => []

/-- The replay of block `b` ends, and its reset with it (R390): the record; a standby's controller holds a copy of the running state again, and
takes charge where the half in charge has reported its safe state meanwhile (R394). -/
def Dev.replayEnds (s : Dev) (b : Nat) : Dev :=
  let s1 : Dev := { s with rst := { s.rst with blockBusy := none, replay := none } }
  let s2 := (s1.setB F.RESET_STATUS_BLOCK_BUSY false).post 0x02 2 [BitVec.ofNat 32 b]
  if b = 83 - s.ic then
    let s3 := if s.f F.BOOT_STATUS_STAGE = 4 then s2.setB F.ROLE_STATUS_STANDBY_OK true else s2
    if s3.safe (82 + s.ic) then s3.controllerSafe s.ic else s3
  else s2

/-- The records of a replay that lie in block `b`, in order: writes are made, and a POLL32 or a DELAY waits. -/
def Dev.replayRun (s : Dev) (b : Nat) : List (List Byte) → Except Fault Dev
  | [] => .ok (s.replayEnds b)
  | r :: l =>
    if !s.inBlock b (recOff r) then s.replayRun b l
    else if recOp r = 1 ∨ recOp r = 2 then (s.recordWrite r (recOp r == 2)).bind (fun t => t.replayRun b l)
    else if recOp r = 3 ∨ recOp r = 4 then .ok { s with rst := { s.rst with replay := some (r :: l) } }
    else s.replayRun b l

/-- A block reset ends (R390), with the wipe of a Floor half that it made (R161), and its replay begins. -/
def Dev.blockResetDone (s : Dev) : Except Fault Dev :=
  match s.rst.blockBusy, s.rst.replay with
  | some b, none =>
    let t := if (b == 68 || b == 69) && s.floor.wiping then s.wipeEnds else s
    ({ t with rst := { t.rst with replay := some [] } } : Dev).replayRun b s.bootedRecords
  | _, _ => .ok s

/-! ### Records that wait -/

/-- The record whose turn it is is done. -/
def Dev.recordDone (s0 : Dev) : Except Fault Dev :=
  let s : Dev := { s0 with rst := { s0.rst with polled := none } }
  match s.rst.blockBusy, s.rst.replay with
  | some b, some (_ :: l) => ({ s with rst := { s.rst with replay := some [] } } : Dev).replayRun b l
  | _, _ => .ok s.bootNext

/-- The read of a POLL32 is under way: it holds or awaits its slot (R21, R405). -/
def Dev.polling (s : Dev) : Bool :=
  (s.mgmt.slots.filterMap (fun e => e.2) ++ s.mgmt.waiting).any (fun a => a.door == .controller && !a.write)

/-- The POLL32 record `r` takes the value that its read has given (R397): done if it matches. One that names a block in its safe state goes on to
its timeout (R402). -/
def Dev.pollTake (s : Dev) (r : List Byte) : Except Fault Dev :=
  match s.rst.polled with
  | none => .ok s
  | some (o, x) =>
    let v := recVal r
    let safe := match (s.gateAt .controller .mgmt (recOff r / 4 * 4)).2 with
      | some b => s.safe b
      | none => false
    if o = recOff r ∧ safe = false ∧ x &&& ((v >>> 32).truncate 32) = v.truncate 32 then s.recordDone
    else .ok { s with rst := { s.rst with polled := none } }

/-- A POLL32 reads once (R397). -/
def Dev.poll (s : Dev) (r : List Byte) : Except Fault Dev :=
  if s.polling then .ok s
  else (s.request { door := .controller, bar := .mgmt, off := recOff r, write := false, wide := false }).bind (fun t => t.pollTake r)

/-- A POLL32 fails after 10 ms (R397): boot stops (R398); the replay of a block reset goes on with the next record (DESIGN CHOICE, log 47). -/
def Dev.pollFailed (s : Dev) : Except Fault Dev :=
  if s.rst.replay.isSome then s.recordDone else .ok (s.bootFail 2 s.rst.recIdx)

/-- The access in a slot completes once its clock runs (R21): a POLL32 whose read it is takes its value. -/
def Dev.slotDone (s : Dev) (k : Nat) : Except Fault Dev :=
  (s.slotComplete k).bind (fun t => match t.recordOf 3 with
    | some r => t.pollTake r
    | none => .ok t)

/-! ### The image window's bytes (R410) -/

/-- The first chunk of the Floor cells that hold an image: those of the lowest six bank groups of the half in charge. -/
def Dev.imgBase (s : Dev) : Nat := 4 * groupBase (16 * s.ic)

/-- The bytes of a chunk that no TLP holds. -/
def Dev.plainChunk (s : Dev) (x : Nat) : List Byte :=
  match s.floor.data.look none x with
  | some v => leBytes v.toNat 64
  | none => List.replicate 64 0

/-- Bytes of an image stored in order, from byte `n` on. -/
def Dev.imgPut (s : Dev) (n : Nat) (l : List Byte) : Dev :=
  (List.range (ceilDiv (n % 64 + l.length) 64)).foldl (fun s j =>
    let x := s.imgBase + n / 64 + j
    let old := s.plainChunk x
    let lo := if j = 0 then n % 64 else 0
    let piece := (l.drop (64 * j + lo - n % 64)).take (64 - lo)
    let new := old.take lo ++ piece ++ old.drop (lo + piece.length)
    { s with floor := { s.floor with
      data := s.floor.data.put none x (some (BitVec.ofNat 512 (ofLe new))), chunks := s.floor.chunks.put 0 x 0 } }) s

/-- The image that the window has received. -/
def Dev.imgRead (s : Dev) : List Byte :=
  ((List.range (ceilDiv s.mgmt.imgCount 64)).flatMap (fun k => s.plainChunk (s.imgBase + k))).take s.mgmt.imgCount

/-! ### The image -/

/-- The image is checked (R395, R396): `a` and `b` are the copies in flash, or `a` the one delivered through the debug port; BOOT_SRC 2 and
a boot from FAILED take what the I3C image window has received. -/
def Dev.imageChecked (s : Dev) (a b : Option (List Byte)) : Dev :=
  let failed := s.f F.BOOT_STATUS_STAGE == 5
  if s.served && (s.f F.BOOT_STATUS_STAGE == 2 || failed) then
    let src0 := s.rst.bootSrc
    let src := if src0 = 3 ∧ (s.lifecycle = 1 ∨ s.lifecycle = 2) then 0 else src0
    let i3c := failed || src == 2
    if i3c && !s.mgmt.imgDone then s
    else
      let s1 := s.setF F.BOOT_STATUS_SRC src
      let a1 := if i3c then some s.imgRead else a
      let b1 := if i3c || src == 3 then none else b
      match imgChoose a1 b1 with
      | some (img, isB) =>
        let s2 := (((s1.setB F.BOOT_STATUS_COPY isB).setF F.BOOT_STATUS_SEQ (leAt img 0xC 4)).setF F.BOOT_STATUS_STAGE 3).setF
          F.BOOT_STATUS_ERR 0
        ({ s2 with rst := { s2.rst with image := some img, delaying := false }, mgmt := { s2.mgmt with imgDone := false } } : Dev).replayFrom
          (imgRecords img) 0
      | none => s1.bootFail (if a1.isNone && b1.isNone then 4 else 1) 0
  else s

end Sys2Proof.Machine
end

