-- ==== Sys2Proof/Machine/Boot.lean ====
section
/-! DEFINITION. Commands of the boot from the Ardel image (R390, R396-R398). -/

namespace Sys2Proof.Machine

/-- BOOT_IMAGE_CHECKED (R396, R398). -/
def execBootImageChecked (a b : Option (List Byte)) (s : State) : Host.Outcome State Fault Refusal :=
  s.doneTwin (s.dev.imageChecked a b)

/-- WRITE32 (R397): the record whose turn it is. -/
def execWrite32 (s : State) : Host.Outcome State Fault Refusal :=
  match s.dev.recordOf 1 with
  | some r => s.doneReg ((s.dev.recordWrite r false).bind Dev.recordDone)
  | none => s.done s.dev

/-- WRITE64 (R397). -/
def execWrite64 (s : State) : Host.Outcome State Fault Refusal :=
  match s.dev.recordOf 2 with
  | some r => s.doneReg ((s.dev.recordWrite r true).bind Dev.recordDone)
  | none => s.done s.dev

/-- POLL32 (R397): one read. -/
def execPoll32 (s : State) : Host.Outcome State Fault Refusal :=
  s.doneReg (match s.dev.recordOf 3 with
    | some r => s.dev.poll r
    | none => .ok s.dev)

/-- POLL32_TIMEOUT (R398). -/
def execPoll32Timeout (s : State) : Host.Outcome State Fault Refusal :=
  s.doneReg (match s.dev.recordOf 3 with
    | some _ => s.dev.pollFailed
    | none => .ok s.dev)

/-- DELAY (R397): its time begins. -/
def execDelay (s : State) : Host.Outcome State Fault Refusal :=
  let d := s.dev
  s.done (match d.recordOf 4 with
    | some _ => { d with rst := { d.rst with delaying := true } }
    | none => d)

/-- DELAY_EXPIRED (R397). -/
def execDelayExpired (s : State) : Host.Outcome State Fault Refusal :=
  let d := s.dev
  s.doneReg (if d.rst.delaying && d.served then ({ d with rst := { d.rst with delaying := false } } : Dev).recordDone else .ok d)

/-- END (R397). -/
def execEndRecord (s : State) : Host.Outcome State Fault Refusal :=
  s.done (match s.dev.recordOf 0 with
    | some _ => s.dev.sectionDone
    | none => s.dev)

/-- BAD_RECORD (R397, R398): an OP above 4. -/
def execBadRecord (s : State) : Host.Outcome State Fault Refusal :=
  s.doneTwin (match s.dev.record with
    | some r => if 4 < recOp r then s.dev.bootFail 3 s.dev.rst.recIdx else s.dev
    | none => s.dev)

/-- BLOCK_RESET_DONE (R390). -/
def execBlockResetDone (s : State) : Host.Outcome State Fault Refusal := s.doneReg s.dev.blockResetDone

end Sys2Proof.Machine
end

