-- ==== Sys2Proof/Machine/Domains.lean ====
section
/-! DEFINITION. Commands that are events of power domains and clocks (R366, R378), of the thermal sensors (R383), of parity (R341) and
injection (R350, R387), and of pending messages (R404). -/

namespace Sys2Proof.Machine

/-! ### Power domains -/

/-- DOMAIN_RAMP_START (R378). -/
def execDomainRampStart (d : Fin 208) (s : State) : Host.Outcome State Fault Refusal := s.done (s.dev.rampStart d)

/-- DOMAIN_WAKE_DONE (R378). -/
def execDomainWakeDone (d : Fin 208) (s : State) : Host.Outcome State Fault Refusal := s.doneTwin (s.dev.wakeDone d)

/-- DOMAIN_OFF_DONE (R378). -/
def execDomainOffDone (d : Fin 208) (s : State) : Host.Outcome State Fault Refusal := s.done (s.dev.offDone d)

/-! ### Clocks and sensors -/

/-- The root PLL of half `h` reports lock (R366, R368): the half leaves cold reset, or HOLDOVER ends with the relock. -/
def Dev.pllLocked (s : Dev) (h : Nat) : Dev :=
  if s.rst.perstLow || !s.rst.supplies then s
  else if !s.b F.CLK_STATUS_PLL_LOCK h then s.setB F.CLK_STATUS_PLL_LOCK true h
  else if s.b F.CLK_STATUS_HOLDOVER h && (s.clock h).relock then
    (s.setB F.CLK_STATUS_HOLDOVER false h).setClock h { s.clock h with relock := false }
  else s

/-- PLL_LOCK (R366, R368). -/
def execPllLock (h : Fin 2) (s : State) : Host.Outcome State Fault Refusal := s.done (s.dev.pllLocked h)

/-- The warning threshold of both halves in quarter degrees. -/
def Dev.warnAt (s : Dev) : Int := 4 * (min (s.f F.THERM_CTL_WARN) 119 : Nat)

/-- A reading of half `h` in quarter degrees (R340, R383): reported, THERM_WARN, the trip at 120 °C. -/
def Dev.thermal (s : Dev) (h : Nat) (temp : BitVec 12) : Dev :=
  if s.coldHeld h then s
  else
    let t := temp.toInt
    let s1 := (s.setF F.THERM_STATUS_TEMP temp.toNat h).setB F.THERM_STATUS_VALID true h
    let x := s1.clock h
    let s2 :=
      if s1.warnAt ≤ t then
        if x.warned then s1
        else
          ((s1.setClock h { x with warned := true }).setB F.CLK_STATUS_THERM_WARN true h).post 0x09 1
            [BitVec.ofNat 32 (temp.toNat + 4096 * h)]
      else if t < s1.warnAt - 20 then s1.setClock h { x with warned := false }
      else s1
    if 480 ≤ t then s2.trip else s2

/-- THERMAL_CONVERSION (R383). -/
def execThermalConversion (h : Fin 2) (temp : BitVec 12) (s : State) : Host.Outcome State Fault Refusal :=
  s.doneTwin (s.dev.thermal h temp)

/-! ### Parity and injection -/

/-- PARITY_SWEEP (R341): what a particle changed is found; what an injection stored has been found at its use (log 144). -/
def execParitySweep (b : Fin 88) (upset : Option (BitVec 26)) (double : Bool) (s : State) : Host.Outcome State Fault Refusal :=
  s.doneTwin (match upset with
    | some off => s.dev.upsetAt b off.toNat double
    | none => s.dev)

/-- TEST_MODE deasserted (R387). -/
def Dev.testModeOff (s : Dev) : Dev :=
  (({ s with rst := { s.rst with testMode := false } } : Dev).setB F.BOOT_STATUS_TEST_MODE false).disarmAll

/-- TEST_MODE_DEASSERT (R387). -/
def execTestModeDeassert (s : State) : Host.Outcome State Fault Refusal := s.done s.dev.testModeOff

/-! ### Pending messages -/

/-- Entry `e` of the management PF unmasked, or its Bus Master Enable set; what is pending and may be sent is sent (R404). -/
def Dev.msixFreed (s : Dev) (e : Nat) (bme : Bool) : Dev :=
  let s1 := if bme then s.setCfBits .mgmtPf 0x04 4 true
    else s.setMsixDw .mgmtPf e 3 (s.msixDw .mgmtPf e 3 &&& ~~~(1 : BitVec 32))
  s1.sendPending .mgmtPf

/-- PENDING_MSIX_SEND (R404). -/
def execPendingMsixSend (e : Fin 16) (bme : Bool) (s : State) : Host.Outcome State Fault Refusal :=
  s.done (s.dev.msixFreed e bme)

end Sys2Proof.Machine
end

