-- ==== Sys2Proof/Machine/Egress.lean ====
section
/-! DEFINITION. Commands of the egress side: scheduling and arbitration (R167, R175-R181), the escape rule (R158), gates
(R183-R187), pending parameters (R188). -/

namespace Sys2Proof.Machine

/-- ARBITRATION_DECISION (R167). -/
def execArbitrationDecision (h : Fin 2) (o : Fin 21) (chunksReady : Bool) (s : State) : Host.Outcome State Fault Refusal :=
  s.done (s.dev.xbRound h o chunksReady)

/-- EGRESS_SCHEDULE (R175, R179). -/
def execEgressSchedule (e : Fin 578) (s : State) : Host.Outcome State Fault Refusal := s.done (s.dev.schedule e)

/-- ESCAPE_MOVE (R158). -/
def execEscapeMove (p : Fin 512) (q : Fin 8) (s : State) : Host.Outcome State Fault Refusal := s.done (s.dev.escape p q)

/-- GATE_CHANGE (R183, R184): the first cycle begins, or another entry is in force, where device time has reached its boundary. -/
def Dev.gateNext (s : Dev) (p : Nat) : Dev := if s.b F.GATE_CTL_EN p then ((s.gateStart1 p).gateEntry p).settleRound p else s

/-- GATE_CHANGE (R184). -/
def execGateChange (p : Fin 512) (s : State) : Host.Outcome State Fault Refusal := s.done (s.dev.gateNext p)

/-- The other list takes over at its instant (R186). -/
def Dev.gateTakeover (s : Dev) (p : Nat) : Dev := if s.b F.GATE_CTL_EN p then ((s.gateTake p).gateEntry p).settleRound p else s

/-- GATE_SWITCH_TAKEOVER (R186). -/
def execGateSwitchTakeover (p : Fin 512) (s : State) : Host.Outcome State Fault Refusal := s.done (s.dev.gateTakeover p)

/-- The head of TCQ `q` fits none of its windows (R185, R189). -/
def Dev.gateNever (s : Dev) (p q : Nat) : Bool :=
  match s.queue p q with
  | [] => false
  | st :: _ =>
    let l := s.gateList p
    let n := s.gateUsed p l
    let need := ceilDiv (s.cost p q st.tlp) (max (s.f F.GATE_CTL_GUARD_BPT p) 1)
    s.gated p && s.b F.GATE_CTL_GUARD p && (List.range n).all (fun e => decide (s.openRun p l q e n - 1 < need))

/-- GATE_STUCK (R189). -/
def execGateStuck (p : Fin 512) (q : Fin 8) (s : State) : Host.Outcome State Fault Refusal :=
  s.done (if s.dev.gateNever p q then s.dev.setB F.GATE_STATUS_GATE_STUCK true p else s.dev)

/-- PENDING_PARAMETERS_APPLY (R188): with no round under way. -/
def execPendingParametersApply (p : Fin 512) (s : State) : Host.Outcome State Fault Refusal :=
  s.done (if (s.dev.sched p).round then s.dev else s.dev.applyPending p)

end Sys2Proof.Machine
end

