-- ==== Sys2Proof/Machine/Ingress.lean ====
section
/-! DEFINITION. TLPs that arrive on links (R110-R116, R154, R200, R201, R217, R233-R236, R343), and host configuration writes to virtual
bridges (R122). -/

namespace Sys2Proof.Machine

/-! ### USP and DSP ports -/

/-- A TLP beyond the credit its sender holds (R343): dropped without a completion, counted. -/
def Dev.overflow (s : Dev) (p : Nat) (t : Tlp) : Dev :=
  let s1 := if s.role p < 2 then s.aerHdr (portFn p) AER.receiverOverflow t else s
  if clsOf t.kind = 1 then s1.inc .fwdUrNp else s1.inc .fwdDropP

/-- Copies of a broadcast message for every enabled DSP of the partition (ACTION 5, R113), each checked against its egress port's Max Payload
Size (R114 item 2). The first carries the credit of the message; the others used none (log 26). Where one of these finds no cells, or the Aisle
has no credit for a copy, the message waits where it came from (R14, R145). -/
def Dev.broadcast (s0 : Dev) (q : Nat) (st : Stored) : Option Dev :=
  let (s1, n, ok) := (List.range 256).foldl (fun (x : Dev × Nat × Bool) v =>
    let (s, n, ok) := x
    let r := s.toVdsp q v st.tlp
    let b := s.bucketOf st.ingress q r.member st.tlp
    if r.act ≠ 0 ∨ 514 ≤ r.dest then (s, n, ok)
    else if s.mpsOf q r < st.tlp.payload.length then (s.countRefused st.ingress (noRoute st.tlp) st.tlp, n, ok)
    else match s.egressOf st.ingress b (s.hallPart q) r st.tlp with
      | .error _ => (s, n, ok)
      | .ok e =>
        let d := s.bindTo st.ingress q e b 0 r st.tlp
        let y : Stored := { st with d := d, locked := (s.link st.ingress).lockTo.contains (d.dstMember, d.dest) }
        if n = 0 then
          let z := s.withPool y
          (s.intoFloor z, 1, ok && !s.copyWaits z)
        else
          let z := s.copyPool { y with creditKind := 2 }
          (s.intoFloor z, n + 1, ok && s.copyFits z && !s.copyWaits z)) (s0, 0, true)
  if ok then some (if n = 0 then s1.returnCredit st else s1) else none

/-- A completion or message that a bridge function consumes (R113): a completion is an Unexpected Completion there, and a DSP takes an LTR
message (R87). -/
def Dev.consume (s : Dev) (p q : Nat) (st : Stored) (r : Res) : Dev :=
  let f := match r.v with
    | some v => (s.bridgeOf q v).getD (portFn p)
    | none => portFn p
  if st.tlp.kind = .cpl then s.aerHdr f AER.unexpectedCompletion st.tlp
  else if st.tlp.msgCode = 0x10 ∧ s.role p = 0 then (s.emit (.toFn f st.tlp)).ltrIn p (st.tlp.addr.truncate 32)
  else s.emit (.toFn f st.tlp)

/-- A TLP of USP or DSP `p` bound with ACTION 0 goes its way: an MRdLk is held for its lock, and behind one a TLP waits where R130 does not let
it pass (R217). None where it finds no cells: it waits where it came from. -/
def Dev.forward (s : Dev) (p : Nat) (st : Stored) : Option Dev :=
  let st1 := s.withPool { st with locked := clsOf st.tlp.kind != 2 && (s.link p).lockTo.contains (st.d.dstMember, st.d.dest) }
  if st.tlp.kind = .mrdlk then some (s.holdLocked p { st1 with locked := false })
  else if (s.link p).waitsBehind st1 then some (s.holdBehind p st1)
  else if s.copyWaits st1 then none
  else some (s.intoFloor st1)

/-- The way of an INTx message upstream from the DSP that has consumed it, unchecked (R221, R244, log 25). -/
def Dev.intxBound (s : Dev) (p q : Nat) (st : Stored) : Option Stored :=
  let r := s.toUsp q
  let b := s.bucketOf p q r.member st.tlp
  match s.egressOf p b (s.hallPart q) r st.tlp with
  | .ok e => some { st with d := s.bindTo p q e b 0 r st.tlp }
  | .error _ => none

/-- A bound TLP at a USP or DSP: what its ACTION says (R113, R115, R121). None where a copy of it finds no cells: it waits where it came from. -/
def Dev.actOn (s : Dev) (p q : Nat) (st : Stored) (r : Res) : Option Dev :=
  let t := st.tlp
  match st.d.action with
  | 0 => s.forward p st
  | 4 =>
    let s1 := s.returnCredit st
    if t.kind = .cfgrd0 ∨ t.kind = .cfgwr0 ∨ t.kind = .cfgrd1 ∨ t.kind = .cfgwr1 then some (s1.cfgRequest q st)
    else match (if isIntx t && s.role p == 0 then s.intxBound p q st else none) with
      | some st1 => s.forward p st1
      | none => some (s1.consume p q st r)
  | 5 => (s.broadcast q st).map (fun s1 => if t.msgCode = 0 then s1.lockRelease p else s1)
  | a => some (s.refuse st a)

/-- A Malformed TLP (R343): what PCI Express Base 7.0 lets a receiver find in its header and length, a payload beyond the Max Payload Size of its
own function and an I/O or configuration write of other than a dword (PRESUMED, log 143). -/
def Dev.malformed (s : Dev) (p : Nat) (t : Tlp) : Bool :=
  decide (s.role p < 2) && (decide (s.mps (portFn p) < t.payload.length)
    || (t.kind == .iowr || t.kind == .cfgwr0 || t.kind == .cfgwr1) && t.payload.length != 4)

/-- TLPs come in at USP or DSP `p`. -/
def Dev.hears (s : Dev) (p : Nat) : Bool :=
  let lt := s.f F.PORT_STATUS_LTSSM p
  s.b F.PORT_CTL_EN p && decide (s.role p < 2) && s.b F.PORT_STATUS_DL_ACTIVE p && (lt == 3 || lt == 5)

/-- The TLP that some egress holds open for ingress `p` (R128). -/
def Dev.openedFrom (s : Dev) (p : Nat) : Option Stored :=
  s.links.findSome? (fun e => e.2.opened.filter (fun st => st.ingress == p))

/-- A TLP as it goes out where nothing comes after its first `k` payload bytes (R163): zeros for the rest, and EP. -/
def cutAt (t : Tlp) (k : Nat) : Tlp :=
  { t with ep := true, payload := t.payload.take k ++ List.replicate (t.payload.length - k) 0 }

/-- A TLP on its way to a port's egress that it cuts through to has come in only as far as its first `k` payload bytes (R128): the egress holds
it open. -/
def Dev.holdOpen (s : Dev) (st : Stored) (k : Nat) : Dev :=
  let s1 := if s.onFabric st then s.inflight st.d.bucket true else s
  s1.setLink st.d.egress { s1.link st.d.egress with opened := some { st with tlp := cutAt st.tlp k } }

/-- A TLP would be cut through now to a link that can be held open for it, or nullified. -/
def Dev.opens (s : Dev) (st : Stored) : Bool :=
  let (h, o) := s.outputOf st.d.egress
  st.d.action == 0 && decide (st.d.egress < 512) && st.tlp.kind != .mrdlk && (s.arb h o).reqs.isEmpty && s.cutsThrough st
    && (s.openedFrom st.ingress).isNone && !s.malformed st.ingress st.tlp

/-- A TLP whose check fails after `k` bytes of its payload (R128, R343). Outside Flit mode the port counts a Bad TLP and takes nothing in; where
it was being cut through, the egress ends it as a nullified TLP. In Flit mode the partner replays the Flit: the egress holds a TLP that it cuts
through open until then, and any other comes in then. What the lookup recorded stays wherever the lookup was made, before the check failed (R110,
R323). -/
def Dev.badTlp (s : Dev) (p : Nat) (t : Tlp) (k : Nat) : Dev :=
  if s.hears p then
    let s1 := if s.flitOf p then s.flitLog p else s.aerC (portFn p) 6
    match s1.lookup p (s1.partOf p) t false false with
    | .ok (s2, d, _) =>
      let st : Stored := { id := s1.bindCount, d := d, tlp := t, ingress := p, inGen := s.f F.PORT_STATUS_GEN p }
      let s3 : Dev := { s2 with bindCount := s1.bindCount + 1 }
      if s1.opens st then (if s.flitOf p then s3.holdOpen st k else s3.emit (.link d.egress .nullified))
      else if d.ledger.isSome then s3
      else s1
    | .error _ => s1
  else s

/-- A TLP arrives at USP or DSP `p` (R110-R115, R128, R154, R343, R345). A Malformed TLP is dropped and uses no credit (DESIGN CHOICE, log 148).
An MRdLk waits on the link while the lock slot is in use, and a TLP that the Aisle has no credit for, or a copy of it no cells (R12, R14, R376).
One whose beginning an egress holds open keeps the decision that was bound then. -/
def Dev.tlpIn (s : Dev) (p : Nat) (t : Tlp) (shared : Bool) : Except Fault Dev := do
  let busy := decide (t.kind = .mrdlk) && (s.link p).lockSlot.isSome
  if !s.hears p || busy then
    return s
  else
    let q := s.partOf p
    let ck := b2n (shared && s.b F.PORT_STATUS_FLIT p)
    let k := creditOf (clsOf t.kind) ck
    let x := s.pool p 0
    if s.malformed p t then return s.aerHdr (portFn p) AER.malformed t
    else if !x.covers k (dataCredits t) then return s.overflow p t
    else
      let s1 := s.setPool p 0 (x.spend k (dataCredits t))
      let s2 := if t.ep then s1.aerHdr (portFn p) AER.poisoned t else s1
      match s.openedFrom p with
      | some st => return s2.resume (s2.withPool { st with tlp := t, creditKind := ck })
      | none =>
        let (s3, d, r) ← s2.lookup p q t false false
        let st : Stored := { id := s.bindCount, d := d, tlp := t, ingress := p, inGen := s.f F.PORT_STATUS_GEN p, creditKind := ck }
        return ((({ s3 with bindCount := s.bindCount + 1 } : Dev).actOn p q st r).map s.ifAisle).getD s

/-- TLP_INGRESS (R44-R46, R54, R113, R128). -/
def execTlpIngress (p : Fin 512) (t : Tlp) (shared : Bool) (rx : RxErr) (s : State) : Host.Outcome State Fault Refusal :=
  let d := s.dev.rxErrors p rx
  s.doneOr (match rx.badEnd with
    | some k => .ok (d.badTlp p t k)
    | none => d.tlpIn p t shared)

/-! ### Fabric ports -/

/-- The enabled local partition with a Hall-wide number; 0 where there is none. -/
def Dev.localPart (s : Dev) (hp : Nat) : Nat := (s.enabledParts.find? (fun q => s.hallPart q == hp)).getD 0

/-- A copy with TWIN set that is discarded on its way (R234, R235). -/
def Dev.transitDrop (s : Dev) (st : Stored) : Dev := (s.returnCredit st).inc .transitDrop

/-- A relayed TLP that cannot go on: counted and answered with CPL_ID (R115, R222), or dropped as a TWIN copy. -/
def Dev.relayRefused (s : Dev) (st : Stored) (act : Nat) : Dev :=
  if st.twin.isSome then s.transitDrop st
  else (s.countRefused st.ingress { act := act, silent := true } st.tlp).refuse st act

/-- HOPS of 15 (R201): counted, with its class's outcome (R159), which has no egress port and counts at the port on which the TLP came
(DESIGN CHOICE, log 125). -/
def Dev.loopDrop (s : Dev) (st : Stored) : Dev :=
  let s1 := s.inc .loopDrop
  if st.twin.isSome then s1.transitDrop st
  else match clsOf st.tlp.kind with
    | 0 => (s1.refuse st 3).inc .pDrop 1 st.ingress
    | 2 => (s1.refuse st 3).inc .cplDrop 1 st.ingress
    | _ => (s1.refuse st 1).inc .npUr 1 st.ingress

/-- Where a TLP of a Nerup segment goes: it is a copy with TWIN set that is dropped on its way, it is refused, it goes on to a fabric port, or it
is for this member. -/
inductive FabRoute where
  | dropped | refused | onward (st : Stored) | here (st : Stored)
  deriving DecidableEq, Repr

/-- A TLP on its way to another fabric port: the one its bucket takes, the tree's on VC7 for a moved TLP (R116, R158), a twin port on
VC7 for a transit copy at its last member (R233). None leaves by the port on which it came (R114 item 5). -/
def Dev.onward (s : Dev) (st : Stored) (e : Option Nat) (escape : Bool) : FabRoute :=
  match e with
  | none => if st.twin.isSome then .dropped else .refused
  | some e =>
    if !s.b F.PORT_CTL_EN e || e == st.ingress || s.unreachable st.ingress e then .refused
    else
      let tcq := if escape then 8 else s.bindTcq e st.d.hallPart st.tlp
      .onward (s.withPool { st with d := { st.d with egress := e, half := egHalf s.ic e, tcq := tcq, vc := s.bindVc e tcq
                                                     gen := s.f F.PORT_STATUS_GEN e } })

/-- A TLP for delivery on this member, bound (R114 items 2 and 4, R116, R220). A configuration request to a service function is consumed here
(R79). -/
def Dev.boundHere (s : Dev) (st : Stored) : Stored :=
  let r : Res := { member := s.me, dest := st.d.dest }
  let without (act : Nat) : Stored := { st with d := { st.d with egress := 1023, half := s.ingressHalf st.ingress, action := act } }
  if (st.d.dest = 512 ∨ st.d.dest = 513) ∧ (st.tlp.kind = .cfgrd1 ∨ st.tlp.kind = .cfgwr1) then without 4
  else match s.egressOf st.ingress st.d.bucket st.d.hallPart r st.tlp with
    | .error r => without r.act
    | .ok e =>
      if s.mpsOf st.d.part r < st.tlp.payload.length then without (refuseAct st.tlp)
      else
        let tcq := s.bindTcq e st.d.hallPart st.tlp
        { st with d := { st.d with egress := e, half := egHalf s.ic e, tcq := tcq, vc := s.bindVc e tcq, gen := s.f F.PORT_STATUS_GEN e } }

/-- The word of the Hall routes, of HALL_TREE or of TWIN_PART with an uncorrectable error that a TLP of a fabric port reads on its way (R342). -/
def Dev.badRoute (s : Dev) (st : Stored) : Option BadWord :=
  s.badWord (66 + s.ingressHalf st.ingress) (fun w => match w with
    | .fwd r => match r.kind with
      | .route => st.d.dstMember != s.me && !st.moved && r.i == st.d.dstMember
      | .tree => st.d.dstMember != s.me && st.moved && r.i == st.d.dstMember
      | .twinPart => s.twinOn && st.twin.isSome && r.i == st.d.hallPart / 8
      | _ => false
    | _ => false)

/-- A TLP of a Nerup segment bound (R116, R158, R233, R234, R338). A copy of the other Hall's partition is in transit on every member here. -/
def Dev.fabRoute (s : Dev) (st : Stored) : FabRoute :=
  let i := st.ingress
  let away := s.twinOn && st.twin.isSome && (s.twinPart st.d.hallPart).2 != s.f F.TWIN_CTL_SIDE
  if s.isTwinPort i && st.twin.isSome && s.twinDiffers i then .dropped
  else if s.outOf (66 + s.ingressHalf i) || (s.badRoute st).isSome then .refused
  else if st.d.dstMember ≠ s.me then
    (if st.moved then s.onward st (s.treePort st.d.dstMember) true
    else s.onward st (s.pickFabric st.d.dstMember st.d.bucket) st.moved)
  else if away then s.onward st (s.lastTwinLink st.d.bucket) true
  else .here (s.boundHere st)

/-- A TLP of a Nerup segment goes its way. A word with an uncorrectable error that it read is counted and rewritten (R342). -/
def Dev.nerupRoute (s : Dev) (st : Stored) : Dev :=
  let s1 := match s.badRoute st with
    | some w => (s.badFound (66 + s.ingressHalf st.ingress) w).uspInternal st.d.part
    | none => s
  match s.fabRoute st with
  | .dropped => s1.transitDrop st
  | .refused => s1.relayRefused st (refuseAct st.tlp)
  | .onward st1 => s1.intoFloor st1
  | .here st1 => match st.twin with
    | some n => s1.dedup st1 n
    | none => s1.actHere st1

/-- What a Nerup header makes of a TLP at its ingress (R200, R116). -/
def Dev.fromFabric (s : Dev) (p : Nat) (n : Nth) (t : Tlp) : Stored :=
  let hp := n.hallPart.val
  let d : Decision := { dstMember := n.dstMember, dest := n.dest.toNat, bucket := n.bucket, verdict := 3, part := s.localPart hp, hallPart := hp }
  { id := s.bindCount, d := d, tlp := t, ingress := p, inVc := n.vc.val, moved := n.moved
    inGen := s.f F.PORT_STATUS_GEN p, creditKind := b2n n.shared, src := n.srcMember, twin := n.twin.map BitVec.toNat
    locked := n.locked, cplId := n.cplId, hops := n.hops, carried := n.verdict.toNat }

/-- A segment accepted in order (R200, R201, R203). One whose beginning an egress holds open keeps the decision that was bound then (R128). -/
def Dev.segment (s : Dev) (p : Nat) (n : Nth) (t : Tlp) : Dev :=
  let k := creditOf (clsOf t.kind) (b2n n.shared)
  let vc := n.vc.val
  let x := s.pool p vc
  if !x.covers k (dataCredits t) then (if n.twin.isSome then s.inc .transitDrop else s).overflow p t
  else
    let s1 : Dev := { s.setPool p vc (x.spend k (dataCredits t)) with bindCount := s.bindCount + 1 }
    match s.openedFrom p with
    | some st =>
      let s2 := s1.resume (s1.withPool { st with tlp := t, creditKind := b2n n.shared })
      match n.twin with
      | some k => if n.dstMember.val = s.me ∧ st.twin.isNone then s2.streamPast (streamNo st.src st.d.bucket) k.toNat else s2
      | none => s2
    | none =>
      let st := s.fromFabric p n t
      if n.hops.val = 15 then s1.loopDrop st else s1.nerupRoute st

/-- The segment that begins at byte `pos` of the flit with SEQ `seq` is the next of the stream (R200): it starts the next expected flit, goes on
in the last one accepted where the segment before it ended, or is the one of which a flit failed its check. -/
def NerupSt.nextSegment (x : NerupSt) (seq pos : Nat) : Bool :=
  match x.part with
  | some (a, b, _) => a == seq && b == pos
  | none => (pos == 0 && seq == x.rx) || (decide (0 < x.rxFill) && pos == x.rxFill && seq == x.rxData)

/-- Where a segment's own flits begin: the next expected SEQ when its first byte came. -/
def NerupSt.segmentBase (x : NerupSt) : Nat := (x.part.map (fun y => y.2.2)).getD x.rx

/-- A segment shares its first flit with the one before it, which has been accepted. -/
def NerupSt.sharesFlit (x : NerupSt) (seq pos : Nat) : Bool := !(pos == 0 && seq == x.segmentBase)

/-- A segment taken (R200, R206): the flits that it needs are accepted, control flits among them, and the next one goes on where it ends; after
END in the next flit. -/
def Dev.segmentTaken (s : Dev) (p seq pos : Nat) (r : SegRx) (n : Nth) (t : Tlp) : Dev :=
  let x := s.nerupOf p
  let stop := pos + 16 + (if n.ntype = 1 then tlpLen t else 0)
  let count := ceilDiv stop 236 - b2n (x.sharesFlit seq pos) + r.ctl.length
  let last := if count = 0 then seq else (x.segmentBase + count - 1) % 1024
  let fresh := if count = 0 then 0 else (last + 1025 - x.rx) % 1024
  let late := (r.ctl.map BitVec.toNat).filter (fun c => !x.among.contains c && decide ((c + 1024 - x.rx) % 1024 < fresh))
  let s1 := s.setNerup p { x with
    rxData := last, rxFill := if n.ntype = 0 then 0 else stop % 236, part := none, among := x.among ++ late }
  if fresh = 0 then s1 else s1.flitsTaken p fresh

/-- A segment arrives of which the flit after the first `k` fails its check (R128, R206): those are accepted, and the rest is asked for again. An
egress that cuts its TLP through holds it open meanwhile, a copy with TWIN set that is not the next of its stream apart. -/
def Dev.segmentCut (s : Dev) (p seq pos k : Nat) (r : SegRx) (n : Nth) (t : Tlp) : Dev :=
  let x := s.nerupOf p
  let base := x.segmentBase
  let done := (x.rx + 1024 - base) % 1024
  let more := k - done
  let inside (c : Nat) : Bool := decide ((c + 1024 - x.rx) % 1024 < more)
  let ctl := r.ctl.map BitVec.toNat
  let data := k - (ctl.filter (fun c => decide ((c + 1024 - base) % 1024 < k))).length + b2n (x.sharesFlit seq pos)
  let came := 236 * data - pos
  let s1 := (s.setNerup p { x with rx := (x.rx + more) % 1024, part := some (seq, pos, base), among := x.among ++ ctl.filter inside }).flitMissed p
    ((x.rx + more) % 1024) false
  if n.ntype = 1 ∧ n.hops.val ≠ 15 ∧ 16 + t.hdr ≤ came then
    let st := s1.fromFabric p n t
    let s2 : Dev := { s1 with bindCount := s1.bindCount + 1 }
    match s1.fabRoute st with
    | .onward st1 => if s1.opens st1 then s2.holdOpen st1 (came - 16 - t.hdr) else s1
    | .here st1 =>
      let next := match st.twin with
        | some m => (s1.stream (streamNo st.src st.d.bucket)).nextIs m
        | none => true
      if next && s1.opens st1 then s2.holdOpen { st1 with twin := none } (came - 16 - t.hdr) else s1
    | _ => s1
  else s1

/-- A segment arrives on a fabric port (R200, R206), on a CURRENT member (R215): one out of order or with a bad CRC asks for a replay, one that
was accepted before is ignored, a reserved NTYPE fails the link; one whose TLP the Aisle has no credit for waits (R14). -/
def Dev.fabricIn (s : Dev) (p seq pos : Nat) (r : SegRx) (n : Nth) (t : Tlp) : Dev :=
  if s.hearsFlits p && s.nstate p == 5 && s.current && s.b F.PORT_STATUS_DL_ACTIVE p then
    if (s.nerupOf p).nextSegment seq pos then
      match r.bad with
      | some k => s.segmentCut p seq pos k r n t
      | none =>
        let s1 := s.segmentTaken p seq pos r n t
        if n.ntype = 0 then s1 else if n.ntype = 1 then s.ifAisle (s1.segment p n t) else s.linkFail p
    else s.flitMissed p seq r.bad.isNone
  else s

/-- FABRIC_TLP_ARRIVAL (R116). -/
def execFabricTlpArrival (p : Fin 512) (seq : BitVec 10) (pos : Fin 236) (rx : SegRx) (nth : Nth) (t : Tlp) (s : State) :
    Host.Outcome State Fault Refusal :=
  s.doneTwin (s.dev.fabricIn p seq.toNat pos rx nth t)

/-! ### Host configuration writes -/

/-- HOST_BRIDGE_WRITE (R122). A routing ID that no function occupies is answered with Unsupported Request. -/
def execHostBridgeWrite (q : Fin 128) (f : BridgeFn) (off : BitVec 12) (be : BitVec 4) (v : BitVec 32) (s : State) :
    Host.Outcome State Fault Refusal :=
  s.done (match s.dev.bridgeWrite q f (off.toNat / 4 * 4) be v { q := q } with
    | some d => d
    | none => s.dev.emit (.cfgDone q .ur))

end Sys2Proof.Machine
end

