-- ==== Sys2Proof/Machine/JtagOps.lean ====
section
/-! DEFINITION. The TAPs of the two dies (R443): the controllers, the instruction registers, BYPASS and the boundary-scan register. -/

namespace Sys2Proof.Machine

/-- The next state of a TAP controller at a rising edge of TCK (IEEE 1149.1). -/
def TapState.next (x : TapState) (tms : Bool) : TapState :=
  match x, tms with
  | .testLogicReset, false => .runTestIdle
  | .testLogicReset, true => .testLogicReset
  | .runTestIdle, false | .updateDr, false | .updateIr, false => .runTestIdle
  | .runTestIdle, true | .updateDr, true | .updateIr, true => .selectDr
  | .selectDr, false => .captureDr
  | .selectDr, true => .selectIr
  | .captureDr, false | .shiftDr, false | .exit2Dr, false => .shiftDr
  | .captureDr, true | .shiftDr, true => .exit1Dr
  | .exit1Dr, false | .pauseDr, false => .pauseDr
  | .exit1Dr, true | .exit2Dr, true => .updateDr
  | .pauseDr, true => .exit2Dr
  | .selectIr, false => .captureIr
  | .selectIr, true => .testLogicReset
  | .captureIr, false | .shiftIr, false | .exit2Ir, false => .shiftIr
  | .captureIr, true | .shiftIr, true => .exit1Ir
  | .exit1Ir, false | .pauseIr, false => .pauseIr
  | .exit1Ir, true | .exit2Ir, true => .updateIr
  | .pauseIr, true => .exit2Ir

/-- The instruction selects the boundary-scan register: SAMPLE/PRELOAD or EXTEST. Any other code acts as BYPASS (IEEE 1149.1; PRESUMED, log
105). -/
def TapSt.boundary (x : TapSt) : Bool := x.ir == 0x02 || x.ir == 0x03

/-- What leaves a shift register first. -/
def TapSt.tdo (x : TapSt) : Bool := x.sr.headD false

/-- A TAP's action at a rising edge of TCK in the state that it is in; `pins` are the levels that a boundary-scan register of it captures and
`irHigh` the bits above the 01 that an instruction register captures (log 105). -/
def TapSt.clock (x : TapSt) (tms tdi : Bool) (pins : List Bool) (irHigh : BitVec 6) : TapSt :=
  let x1 : TapSt := match x.st with
    | .testLogicReset => { x with ir := 0xFF }
    | .captureIr => { x with sr := [true, false] ++ (List.range 6).map irHigh.getLsbD }
    | .captureDr => { x with sr := if x.boundary then pins else [false] }
    | .shiftIr | .shiftDr => { x with sr := x.sr.drop 1 ++ [tdi] }
    | .updateIr => { x with ir := BitVec.ofNat 8 ((x.sr.zipIdx.map (fun b => b2n b.1 * 2 ^ b.2)).foldl (· + ·) 0) }
    | .updateDr => if x.boundary then { x with latch := x.sr } else x
    | _ => x
  { x1 with st := x.st.next tms }

/-- The levels that the boundary-scan register of a die samples from its sideband and slot pins: free values, for the model keeps no pin as a
level (log 105). -/
def Dev.pinLevels (s : Dev) : List Bool :=
  (List.range Config.boundaryCells).map (fun i => (Config.freeBits (s.free + i / 64)).getLsbD (i % 64))

/-- Free values that a sample takes. -/
def pinWords : Nat := ceilDiv Config.boundaryCells 64

/-- The pins that a die drives under EXTEST. -/
def Dev.driveBoundary (s : Dev) (die : Nat) (old new : TapSt) : Dev :=
  if new.ir = 0x03 ∧ (old.ir ≠ 0x03 ∨ old.latch ≠ new.latch) then s.emit (.boundary die new.latch) else s

/-- A TCK cycle with TMS and TDI as they stand: TDI enters the West die, whose TDO enters the East die. -/
def Dev.tck (s : Dev) (tms tdi : Bool) : Dev :=
  let w := s.jtag.w
  let e := s.jtag.e
  let s1 := s.useFree pinWords
  let w1 := w.clock tms tdi s.pinLevels (s1.freeVal.truncate 6)
  let s2 := s1.useFree
  let e1 := e.clock tms w.tdo s2.pinLevels ((s2.useFree pinWords).freeVal.truncate 6)
  let s3 := (s2.useFree pinWords).useFree
  let s4 := (({ s3 with jtag := { w := w1, e := e1 } } : Dev).driveBoundary 0 w w1).driveBoundary 1 e e1
  if w.st = .shiftIr ∨ w.st = .shiftDr then s4.emit (.tdo e.tdo) else s4

/-- The JTAG pins: a TCK cycle, or TRST_N low, which resets both TAPs at once (R443). -/
def Dev.jtagPins (s : Dev) : JtagPins → Dev
  | .tck tms tdi => s.tck tms tdi
  | .trst => { s with jtag := {} }

end Sys2Proof.Machine
end

