-- ==== Sys2Proof/Machine/MgmtOps.lean ====
section
/-! DEFINITION. The I3C target (R406-R410): its map, the window, the image window; and what the debug port may reach (R171-R173, R253,
R254). -/

namespace Sys2Proof.Machine

/-! ### The window (R409) -/

/-- The I3C target answers: the half that drives its pins is out of cold reset (R406, R407). -/
def Dev.i3cAlive (s : Dev) : Bool := !s.coldHeld (if s.served then s.ic else 0)

/-- The target's static address (R406). -/
def i3cStatic : BitVec 7 := 0x5C

/-- The target answers a private transfer to address `adr`: its dynamic address, or as an SMBus target its static one (R406). -/
def Dev.i3cHeeds (s : Dev) (adr : BitVec 7) : Bool := s.i3cAlive && (adr == i3cStatic || s.mgmt.dynAddr == some adr)

/-- The reset and lifecycle region, which a window access may name in STANDOFF (R393). -/
def inResetRegion (off : Nat) : Bool := decide (0x3200000 ≤ off ∧ off < 0x3280000)

/-- A window access is not made in STANDOFF. -/
def Dev.windowRefused (s : Dev) (a : Access) : Bool := s.b F.ROLE_STATUS_STANDOFF && !s.rst.deviceSafe && !inResetRegion a.off

/-- A window access that is not made: REFUSED, a read value of 0. -/
def Dev.windowRefuse (s : Dev) (a : Access) : Dev :=
  let m := { s.mgmt with winAcc := none, winBusy := false, winRefused := true }
  { s with mgmt := if a.write then m else { m with winLo := 0, winHi := 0 } }

/-- GO written to WIN_CMD. -/
def Dev.windowGo (s : Dev) (write wide : Bool) : Dev :=
  if s.mgmt.winBusy then { s with mgmt := { s.mgmt with winErr := true } }
  else
    let a : Access := { door := .i3c, bar := .mgmt, off := s.mgmt.winAddr.toNat % 2 ^ 26, write := write, wide := wide,
                        v := s.mgmt.winHi ++ s.mgmt.winLo }
    let s1 : Dev := { s with mgmt := { s.mgmt with
      winWrite := write, winWide := wide, winErr := false, winRefused := false, winBusy := true, winAcc := some a } }
    if s1.windowRefused a then s1.windowRefuse a else s1

/-- The access that GO started is made. -/
def Dev.windowDone (s : Dev) : Except Fault Dev :=
  match s.mgmt.winAcc with
  | none => .ok s
  | some a =>
    if s.windowRefused a then .ok (s.windowRefuse a)
    else ({ s with mgmt := { s.mgmt with winAcc := none } } : Dev).request a

/-! ### The image window (R410) -/

/-- The stages in which an image is accepted. -/
def Dev.imgStage (s : Dev) : Bool :=
  (s.f F.BOOT_STATUS_STAGE == 2 && s.rst.bootSrc == 2) || s.f F.BOOT_STATUS_STAGE == 5

/-- The bank groups that hold an image. -/
def Dev.imgGroups (s : Dev) : List Nat := (List.range 6).map (fun k => 16 * s.ic + k)

/-- IMG_ERR set. -/
def Dev.imgError (s : Dev) : Dev := { s with mgmt := { s.mgmt with imgErr := true } }

/-- START. -/
def Dev.imgStart (s : Dev) : Dev :=
  if s.imgStage then
    s.imgGroups.foldl (fun s g => if s.power (160 + g) = 2 then s else s.wrDomain (160 + g) 3)
      { s with mgmt := { s.mgmt with imgArmed := true, imgOpen := false, imgDone := false, imgCount := 0 } }
  else s.imgError

/-- OPEN, once each group is READY. -/
def Dev.imgReady (s : Dev) : Dev :=
  if s.mgmt.imgArmed && s.imgGroups.all (fun g => s.b F.DOMAIN_STATE_READY (160 + g)) then
    { s with mgmt := { s.mgmt with imgArmed := false, imgOpen := true } }
  else s

/-- Bytes written to IMG_DATA: they lie in order in the Floor cells of six bank groups. -/
def Dev.imgData (s : Dev) (l : List Byte) : Dev :=
  if l.isEmpty then s
  else if s.imgStage && s.mgmt.imgOpen then
    let n := s.mgmt.imgCount
    let room := 0x1000000 - n
    let s1 : Dev := { s.imgPut n (l.take room) with mgmt := { s.mgmt with imgCount := n + min room l.length } }
    if room < l.length then s1.imgError else s1
  else s.imgError

/-- END. -/
def Dev.imgEnd (s : Dev) : Dev :=
  if s.mgmt.imgOpen then { s with mgmt := { s.mgmt with imgOpen := false, imgDone := true } } else s

/-! ### The I3C map (R408) -/

/-- A register of the I3C map. EVQ_DATA reads the word that a read presents (R412). -/
def Dev.i3cReg (s : Dev) (p : Nat) : BitVec 32 :=
  match p with
  | 0x00 => 0x00105120
  | 0x04 =>
    BitVec.ofNat 32 (s.ic + 2 * b2n (s.b F.ROLE_STATUS_STANDOFF) + 4 * s.f F.BOOT_STATUS_STAGE + 32 * s.lifecycle
      + 128 * b2n s.fltAsserted)
  | 0x08 => s.evqPeek
  | 0x0C => s.evqStatus.truncate 32
  | 0x14 => (s.reg .evqWm).truncate 32
  | 0x20 => s.mgmt.winAddr
  | 0x24 => s.mgmt.winLo
  | 0x28 => s.mgmt.winHi
  | 0x2C =>
    BitVec.ofNat 32 (2 * b2n s.mgmt.winWrite + 4 * b2n s.mgmt.winWide + 256 * b2n s.mgmt.winBusy + 512 * b2n s.mgmt.winErr
      + 1024 * b2n s.mgmt.winRefused)
  | 0x30 => BitVec.ofNat 32 (4 * b2n s.mgmt.imgOpen + 8 * b2n s.mgmt.imgErr + 256 * (s.mgmt.imgCount / 256))
  | _ => 0

/-- A register of the I3C map written. -/
def Dev.i3cWriteReg (s : Dev) (p : Nat) (v : BitVec 32) : Dev :=
  match p with
  | 0x10 => s.wrEvqCmd (v.zeroExtend 64)
  | 0x14 => s.wrEvqWm (v.zeroExtend 64)
  | 0x20 => { s with mgmt := { s.mgmt with winAddr := v &&& 0x3FFFFFF } }
  | 0x24 => { s with mgmt := { s.mgmt with winLo := v } }
  | 0x28 => { s with mgmt := { s.mgmt with winHi := v } }
  | 0x2C =>
    if v.getLsbD 0 then s.windowGo (v.getLsbD 1) (v.getLsbD 2)
    else if s.mgmt.winBusy then s
    else { s with mgmt := { s.mgmt with winWrite := v.getLsbD 1, winWide := v.getLsbD 2 } }
  | 0x30 =>
    let s1 := if v.getLsbD 0 then s.imgStart else s
    if v.getLsbD 1 then s1.imgEnd else s1
  | 0x34 => s.imgData (leBytes v.toNat 4)
  | _ => s

/-- The pointer after one byte: EVQ_DATA and IMG_DATA wrap within the register. -/
def nextPtr (p : Nat) : Nat :=
  if p / 4 * 4 = 0x08 ∨ p / 4 * 4 = 0x34 then p / 4 * 4 + (p + 1) % 4 else (p + 1) % 256

/-- The bytes of the register at the pointer with one byte written: those written to it before, and its own value for the rest. -/
def Dev.i3cBytes (s : Dev) (b : Byte) : List Byte :=
  let r := s.mgmt.ptr / 4 * 4
  let old : List Byte := match s.mgmt.part with
    | some (q, l) => if q = r then l else leBytes (s.i3cReg r).toNat 4
    | none => leBytes (s.i3cReg r).toNat 4
  old.set (s.mgmt.ptr % 4) b

/-- One byte written at the pointer: byte 3 makes the register's write take effect, with the bytes written to it before. -/
def Dev.i3cWriteByte (s : Dev) (b : Byte) : Dev :=
  let p := s.mgmt.ptr
  let r := p / 4 * 4
  let l := s.i3cBytes b
  let s1 : Dev := { s with mgmt := { s.mgmt with ptr := nextPtr p, part := if p % 4 = 3 then none else some (r, l) } }
  if p % 4 = 3 then s1.i3cWriteReg r (BitVec.ofNat 32 (ofLe l)) else s1

/-- A byte that completes a write of GO to WIN_CMD while no access is under way. -/
def Dev.i3cGoes (s : Dev) (b : Byte) : Bool := s.mgmt.ptr == 0x2F && !s.mgmt.winBusy && ((s.i3cBytes b).getD 0 0).getLsbD 0

/-- GO ends the transfer at once, also where STANDOFF refuses the access (R409). -/
def Dev.i3cWriteAll (s : Dev) : List Byte → Dev
  | [] => s
  | b :: l => if s.i3cGoes b then s.i3cWriteByte b else (s.i3cWriteByte b).i3cWriteAll l

/-- A private write to address `adr`: the pointer, then the data (R408). -/
def Dev.i3cWrite (s : Dev) (adr : BitVec 7) (ptr : Byte) (data : List Byte) : Dev :=
  if s.i3cHeeds adr then ({ s with mgmt := { s.mgmt with ptr := ptr.toNat, part := none } } : Dev).i3cWriteAll data else s

/-- One byte read at the pointer; a read of EVQ_DATA chooses its record, and byte 3 removes the word (R408, R412). -/
def Dev.i3cReadByte (s : Dev) : Dev × Byte :=
  let p := s.mgmt.ptr
  let r := p / 4 * 4
  let s1 := if r = 0x08 ∧ s.served = true then s.evqSelect else s
  let b := (leBytes (s1.i3cReg r).toNat 4).getD (p % 4) 0
  let s2 := if p = 0x0B then s1.evqPop else s1
  ({ s2 with mgmt := { s2.mgmt with ptr := nextPtr p } }, b)

/-- `n` bytes read. -/
def Dev.i3cReadAll (s : Dev) : Nat → Dev × List Byte
  | 0 => (s, [])
  | n + 1 =>
    let (s1, b) := s.i3cReadByte
    let (s2, l) := s1.i3cReadAll n
    (s2, b :: l)

/-- A private read at address `adr` (R408). -/
def Dev.i3cRead (s : Dev) (adr : BitVec 7) (n : Nat) : Dev :=
  if s.i3cHeeds adr then
    let (s1, l) := s.i3cReadAll n
    s1.emit (.i3cData l)
  else s

/-! ### The debug port (R171-R173, R253, R254) -/

/-- The seals apply: PROVISIONED or DEPLOYED. -/
def Dev.sealing (s : Dev) : Bool := s.lifecycle == 1 || s.lifecycle == 2

/-- A dword that the seals close (R253). -/
def Dev.dwordSealed (s : Dev) (off : Nat) : Bool :=
  s.sealing &&
    (decide (0x3201000 ≤ off ∧ off < 0x3201100) || decide (0x3200100 ≤ off ∧ off < 0x3200104)
      || decide (0x3200108 ≤ off ∧ off < 0x320010C)
      || (match targetMgmt (off / 4 * 4) with
        | .reg r _ => r.kind == .pitch && (s.reg .pitchSeal).getLsbD r.i
        | .tbl _ t _ => t.kind == .win && (s.reg .winSeal (t.i / 64)).getLsbD (t.i % 64)
        | _ => false))

/-- What a debug port access names is sealed. -/
def Dev.dbgSealed (s : Dev) (t : DbgTarget) : Bool :=
  match t with
  | .reg off wide => s.dwordSealed off.toNat || (wide && s.dwordSealed (off.toNat + 4))
  | .chunk _ _ => s.lifecycle == 2
  | .pins _ => false

/-- The address and the space of a target in `DBG_DENIED`. -/
def dbgPlace (t : DbgTarget) : Nat × Nat :=
  match t with
  | .reg off _ => (off.toNat, 0)
  | .chunk c k => (4 * c.val + k.val, 1)
  | .pins _ => (0, 0)

/-- A refused access counted, and the first one recorded (R254). -/
def Dev.dbgCount (s : Dev) (t : DbgTarget) (write : Bool) : Dev :=
  let s1 := s.bump F.DBG_DENIED_COUNT
  if s1.b F.DBG_DENIED_VALID then s1
  else
    (((s1.setF F.DBG_DENIED_ADDR (dbgPlace t).1).setF F.DBG_DENIED_SPACE (dbgPlace t).2).setB F.DBG_DENIED_WRITE write).setB
      F.DBG_DENIED_VALID true

/-- Zero bytes. -/
def zeros (n : Nat) : List Byte := List.replicate n 0

/-- A refused access (R254): a read of zeros, a write discarded. -/
def Dev.dbgRefuse (s : Dev) (t : DbgTarget) (write : Bool) : Dev :=
  let s1 := s.dbgCount t write
  if write then s1
  else s1.emit (.debugData (zeros (match t with
    | .reg _ wide => if wide then 8 else 4
    | .chunk _ _ => 64
    | .pins _ => 0)))

/-- The bytes of a chunk: what was written there last, or those of the TLP that holds it, or 0 (R141, R161). -/
def Dev.chunkRead (s : Dev) (c k : Nat) : List Byte :=
  match s.floor.data.look none (4 * c + k) with
  | some v => leBytes v.toNat 64
  | none =>
    match s.inDevice.findSome? (fun st => (st.chunksOf.find? (fun x => x.1 == c && x.2.1 == k)).map (fun x => st.chunkBytes x.2.2)) with
    | some l => l
    | none => List.replicate 64 0

/-- A permitted debug access to a chunk (R171, R172): its bytes, or new ones. A chunk of a group that is not ready completes as to a domain
in reset (R21). -/
def Dev.chunkAccess (s : Dev) (c k : Nat) (write : Bool) (v : BitVec 512) : Dev :=
  if !(s.group (cellGroup c)).live || !s.b F.DOMAIN_STATE_READY (160 + cellGroup c) then
    let s1 := s.intErr (68 + cellHalf c)
    if write then s1 else s1.emit (.debugData (List.replicate 64 0xFF))
  else if write then
    { s with floor := { s.floor with data := s.floor.data.put none (4 * c + k) (some v), chunks := s.floor.chunks.put 0 (4 * c + k) 0 } }
  else
    let n := s.chunkErrs c k
    let s1 := if n = 0 then s else if n ≤ 2 then s.countCorr (cellBank c)
      else ((s.logUncorr c k 0).uncorrCandidate c).aerU .mgmtPf AER.uncorrectableInternal
    s1.emit (.debugData (s1.chunkRead c k))

/-- A debug port access (R171-R173, R253, R254), or what happens at its TAPs' pins: refused by a seal, or made, with the beat and the bank
operations that it takes counted. -/
def Dev.dbgAccess (s : Dev) (t : DbgTarget) (write : Bool) (v : BitVec 512) (busy : Bool) (inFlight : Nat) : Except Fault Dev :=
  match t with
  | .pins p => .ok (s.jtagPins p)
  | t =>
  if s.coldHeld s.ic then .ok s
  else if s.dbgSealed t then .ok (s.dbgRefuse t write)
  else
    match t with
    | .pins _ => .ok s
    | .reg off wide =>
      (s.inc .xbDebugPreempt (b2n busy)).request
        { door := .debug, bar := .mgmt, off := off.toNat, write := write, wide := wide, v := v.truncate 64 }
    | .chunk c k => .ok ((s.inc .xbDebugPreempt (b2n busy + inFlight)).chunkAccess c k write v)

/-! ### Lifecycle requests (R400, R401) -/

/-- A write of LC_CTL through a door: sealed to the debug port (R402), else made in its slot (R405). -/
def Dev.lcWrite (s : Dev) (d : Door) (v : BitVec 32) : Except Fault Dev :=
  if d = .debug ∧ s.sealing = true then .ok (s.dbgRefuse (.reg 0x3200108 false) true)
  else s.request { door := d, bar := .mgmt, off := 0x3200108, write := true, wide := false, v := v.zeroExtend 64 }

end Sys2Proof.Machine
end

