-- ==== Sys2Proof/Machine/Mgmt.lean ====
section
/-! DEFINITION. Commands of the management doors: the debug port, the I3C target, lifecycle requests, the Tally unit's passes. -/

namespace Sys2Proof.Machine

/-- DEBUG_PORT_ACCESS (R171, R172, R254). -/
def execDebugPortAccess (t : DbgTarget) (write : Bool) (v : BitVec 512) (busy : Bool) (inFlight : Fin 5) (s : State) :
    Host.Outcome State Fault Refusal :=
  s.doneReg (s.dev.dbgAccess t write v busy inFlight)

/-- LC_ARM (R401). -/
def execLcArm (d : Door) (target : BitVec 2) (s : State) : Host.Outcome State Fault Refusal :=
  s.doneReg (s.dev.lcWrite d (target.zeroExtend 32 ||| 4))

/-- LC_GO (R401). -/
def execLcGo (d : Door) (target : BitVec 2) (s : State) : Host.Outcome State Fault Refusal :=
  s.doneReg (s.dev.lcWrite d (target.zeroExtend 32 ||| 8))

/-- The Provisional ID of the I3C target (R406); while no half is in charge, with the West die's serial number (log 83). -/
def Dev.provisionalId (s : Dev) : BitVec 48 :=
  (0x1F6A : BitVec 48) <<< 33 ||| ((s.reg .dieSerial (if s.served then s.ic else 0)).truncate 32).zeroExtend 48

/-- I3C_DYNAMIC_ADDRESS: under ENTDAA the target sends its Provisional ID; SETDASA names its static address `adr` (R406). -/
def execI3cDynamicAddress (entdaa : Bool) (adr a : BitVec 7) (s : State) : Host.Outcome State Fault Refusal :=
  let d := s.dev
  s.done (if d.i3cAlive && (entdaa || adr == i3cStatic) then
    let d1 : Dev := { d with mgmt := { d.mgmt with dynAddr := some a } }
    if entdaa then d1.emit (.i3cId d.provisionalId) else d1
  else d)

/-- I3C_PRIVATE_WRITE (R408). -/
def execI3cPrivateWrite (adr : BitVec 7) (ptr : Byte) (data : List Byte) (s : State) : Host.Outcome State Fault Refusal :=
  s.done (s.dev.i3cWrite adr ptr data)

/-- I3C_PRIVATE_READ (R408). -/
def execI3cPrivateRead (adr : BitVec 7) (n : Nat) (s : State) : Host.Outcome State Fault Refusal := s.done (s.dev.i3cRead adr n)

/-- A whole read of EVQ_DATA: the word presented is returned and removed (R412). -/
def Dev.evqDataRead (s : Dev) : Dev :=
  let s1 := if s.served then s.evqSelect else s
  s1.evqPop.emit (.i3cData (leBytes s1.evqPeek.toNat 4))

/-- EVQ_DATA_READ (R412). -/
def execEvqDataRead (s : State) : Host.Outcome State Fault Refusal := s.done (if s.dev.i3cAlive then s.dev.evqDataRead else s.dev)

/-- WINDOW_GO (R409). -/
def execWindowGo (write wide : Bool) (s : State) : Host.Outcome State Fault Refusal :=
  s.done (if s.dev.i3cAlive then s.dev.windowGo write wide else s.dev)

/-- WINDOW_ACCESS_DONE (R409). -/
def execWindowAccessDone (s : State) : Host.Outcome State Fault Refusal := s.doneReg s.dev.windowDone

/-- IMAGE_START (R410). -/
def execImageStart (s : State) : Host.Outcome State Fault Refusal := s.done (if s.dev.i3cAlive then s.dev.imgStart else s.dev)

/-- IMAGE_WINDOW_OPEN (R410). -/
def execImageWindowOpen (s : State) : Host.Outcome State Fault Refusal := s.done s.dev.imgReady

/-- IMAGE_DATA (R410). -/
def execImageData (data : List Byte) (s : State) : Host.Outcome State Fault Refusal :=
  s.done (if s.dev.i3cAlive then s.dev.imgData data else s.dev)

/-- IMAGE_END (R410). -/
def execImageEnd (s : State) : Host.Outcome State Fault Refusal := s.done (if s.dev.i3cAlive then s.dev.imgEnd else s.dev)

/-- TALLY_PASS (R418): the interval of periodic passes is over. -/
def execTallyPass (s : State) : Host.Outcome State Fault Refusal :=
  s.doneTwin (if s.dev.b F.TALLY_CTL_EN then s.dev.tallyStart else s.dev)

/-- TALLY_LIST_READ_COMPLETE (R418). -/
def execTallyListReadComplete (ok : Bool) (list : List (BitVec 32)) (pageOk : Bool) (s : State) : Host.Outcome State Fault Refusal :=
  s.doneTwin (s.dev.tallyList ok (list.map BitVec.toNat) pageOk)

/-- A read of the management PF times out (R331, R418): Completion Timeout at the PF, and what waited for the read fails. -/
def Dev.mgmtTimeout (s : Dev) (w : MgmtRead) : Dev :=
  match w with
  | .fold h =>
    match s.ledger.folds.look [] h with
    | [] => s
    | e :: rest =>
      (({ s with ledger := { s.ledger with folds := s.ledger.folds.put [] h rest } } : Dev).foldFail h e).aerU .mgmtPf
        AER.completionTimeout
  | .tallyList =>
    match s.tally.cur with
    | none => s
    | some _ => (s.tallyList false [] false).aerU .mgmtPf AER.completionTimeout

/-- MGMT_PF_COMPLETION_TIMEOUT (R331). -/
def execMgmtPfCompletionTimeout (w : MgmtRead) (s : State) : Host.Outcome State Fault Refusal := s.doneTwin (s.dev.mgmtTimeout w)

end Sys2Proof.Machine
end

