-- ==== Sys2Proof/Machine/Ports.lean ====
section
/-! DEFINITION. Events at the ports (02_rows_and_lanes.md, 03_ports_partitions_hotplug.md, 13_errors_containment.md). An event
whose condition does not hold changes nothing (log 7). -/

namespace Sys2Proof.Machine

/-- Port `p` is an enabled USP or DSP. -/
def Dev.isPcie (s : Dev) (p : Nat) : Bool := s.b F.PORT_CTL_EN p && decide (s.role p < 2)

/-- DL_DOWN (R24, R80, R101, R207). -/
def execDlDown (p : Fin 512) (s : State) : Host.Outcome State Fault Refusal :=
  s.doneTwin (if s.dev.b F.PORT_CTL_EN p then s.dev.linkDown p else s.dev)

/-- PURGE_DONE (R159): the LTSSM is released. -/
def execPurgeDone (p : Fin 512) (s : State) : Host.Outcome State Fault Refusal :=
  let l := s.dev.link p
  s.done (if l.purge then (s.dev.setLink p { l with purge := false }).trainNow p else s.dev)

/-- USP_HOT_RESET (R80), on a link that is up. -/
def execUspHotReset (p : Fin 512) (s : State) : Host.Outcome State Fault Refusal :=
  let d := s.dev
  s.done (if d.isPcie p && d.role p == 1 && d.b F.PORT_STATUS_DL_ACTIVE p then
    ((d.linkGone p 10).partReset (d.f F.PORT_CTL_PART p) true).setF F.PORT_STATUS_LTSSM 0 p
    else d)

/-- ASPM Control of Link Control: bit 0 L0s, bit 1 L1. -/
def Dev.aspm (s : Dev) (p k : Nat) : Bool := s.cfBit (portFn p) 0x60 k

/-- Nothing to send on the link of port `p`. -/
def Dev.linkIdle (s : Dev) (p : Nat) : Bool := s.egressIdle p && (s.link p).replay.isEmpty

/-- L0S_ENTRY (R87, R88): not in Flit mode, with nothing to send; a TLP that waits for its acknowledgement is none. -/
def execL0sEntry (p : Fin 512) (s : State) : Host.Outcome State Fault Refusal :=
  let d := s.dev
  s.done (if d.isPcie p && d.f F.PORT_STATUS_LTSSM p == 3 && !d.b F.PORT_STATUS_FLIT p && d.aspm p 0 && d.egressIdle p then
    (d.setF F.PORT_STATUS_LTSSM 5 p).emit (.link p .l0sEntry) else d)

/-- A DSP of the partition rests: in L1 or deeper, or its link is down (R88). -/
def Dev.dspRests (s : Dev) (p : Nat) : Bool :=
  !s.b F.PORT_STATUS_DL_ACTIVE p || s.f F.PORT_STATUS_LTSSM p == 6 || s.f F.PORT_STATUS_LTSSM p == 7

/-- PowerState of a function: D3hot. -/
def Dev.inD3 (s : Dev) (f : Fn) : Bool := s.cfNum f 0x44 0 2 == 3

/-- Every DSP of partition `q` on this device, the service DSPs included, rests (R88). How a USP learns of DSPs on other members the manual does
not say (DESIGN CHOICE, log 119). -/
def Dev.partRests (s : Dev) (q : Nat) : Bool :=
  (s.dspsOf q).all s.dspRests
    && (!s.b F.SVC_CTL_MGMT_EN || s.f F.SVC_CTL_MGMT_PART != q || s.inD3 .mgmtPf)
    && (!s.b F.SVC_CTL_PORTER_EN || s.f F.SVC_CTL_PORTER_PART != q || s.inD3 .porterPf)

/-- ASPM_L1_REQUEST (R88). -/
def execAspmL1Request (p : Fin 512) (s : State) : Host.Outcome State Fault Refusal :=
  let d := s.dev
  let lt := d.f F.PORT_STATUS_LTSSM p
  s.done (if d.isPcie p && d.role p == 1 && (lt == 3 || lt == 5) && d.b F.PORT_STATUS_DL_ACTIVE p && d.aspm p 1 && d.linkIdle p
      && d.partRests (d.f F.PORT_CTL_PART p) then
    let d1 := (d.emit (.link p .l1Request)).useFree
    if d.partnerAccepts then (d1.marginEnd p).enterL1 p false else d1
  else d)

/-- L1_REQUEST_RECEIVED (R87, R88). -/
def execL1RequestReceived (p : Fin 512) (pm : Bool) (s : State) : Host.Outcome State Fault Refusal :=
  let d := s.dev
  let lt := d.f F.PORT_STATUS_LTSSM p
  s.done (if d.isPcie p && d.role p == 0 && (lt == 3 || lt == 5) && d.b F.PORT_STATUS_DL_ACTIVE p then
    (if pm || (d.aspm p 1 && d.egressIdle p) then ((d.marginEnd p).enterL1 p pm).emit (.link p .l1Accept)
      else d.emit (.link p .l1Deny))
  else d)

/-- L0p may be used on a link: Flit mode, in L0, enabled by the host in Device Control 3 (log 13). -/
def Dev.l0pOn (s : Dev) (p : Nat) : Bool :=
  s.isPcie p && s.b F.PORT_STATUS_FLIT p && s.f F.PORT_STATUS_LTSSM p == 3 && s.b F.PORT_STATUS_DL_ACTIVE p
    && s.cfBit (portFn p) 0x2D8 3

/-- A width change requested; whether the partner agrees is a free value (log 28). -/
def Dev.askWidth (s : Dev) (p w : Nat) : Dev :=
  let s1 := (s.emit (.link p (.l0pRequest w))).useFree
  if s.partnerAccepts then s1.setLink p { s1.link p with l0p := w } else s1

/-- L0P_NARROW (R89). -/
def execL0pNarrow (p : Fin 512) (s : State) : Host.Outcome State Fault Refusal :=
  let d := s.dev
  s.done (if d.l0pOn p && d.b F.PORT_CTL_L0P_INIT p && d.egressIdle p && decide (1 < (d.link p).l0p) then d.askWidth p 1 else d)

/-- L0P_WIDEN (R89). -/
def execL0pWiden (p : Fin 512) (s : State) : Host.Outcome State Fault Refusal :=
  let d := s.dev
  let l := d.link p
  s.done (if d.l0pOn p && d.b F.PORT_CTL_L0P_INIT p && !d.egressIdle p && decide (l.l0p < l.fullWidth) then d.askWidth p l.fullWidth
    else d)

/-- L0P_PARTNER_REQUEST (R89). -/
def execL0pPartnerRequest (p : Fin 512) (width : Fin 17) (s : State) : Host.Outcome State Fault Refusal :=
  let d := s.dev
  let l := d.link p
  s.done (if d.l0pOn p && [1, 2, 4, 8, 16].contains width.val && decide (width.val ≤ l.fullWidth) then
    (d.setLink p { l with l0p := width }).emit (.link p (.l0pAnswer width)) else d)

/-- DPC_TRIGGER (R347), of a DSP that is enabled or that the safe state of its Row has stopped (R352). -/
def execDpcTrigger (p : Fin 512) (c : DpcCause) (s : State) : Host.Outcome State Fault Refusal :=
  let d := s.dev
  s.done (if (d.b F.PORT_CTL_EN p || d.safe (p.val / 16)) && d.role p == 0 && !(d.link p).dpc && d.dpcArmed p c then d.contain p c else d)

/-- DPC_RELEASE (R347). -/
def execDpcRelease (p : Fin 512) (s : State) : Host.Outcome State Fault Refusal :=
  s.done (if (s.dev.link p).dpc then s.dev.uncontain p else s.dev)

/-- SECONDARY_BUS_RESET (R80, R450). -/
def execSecondaryBusReset (q : Fin 128) (f : BridgeFn) (set : Bool) (s : State) : Host.Outcome State Fault Refusal :=
  s.done (s.dev.sbr q f set)

/-- DL_UP (R40, R155): at a width and a rate that the port may reach. -/
def execDlUp (p : Fin 512) (width : Fin 17) (rate : Fin 7) (flit : Bool) (credits : List Nat) (s : State) :
    Host.Outcome State Fault Refusal :=
  let d := s.dev
  let fits := d.isPcie p && d.widthOk p width && decide (rate.val ≤ d.maxRate p) && flitOk rate flit
  let lt := d.f F.PORT_STATUS_LTSSM p
  s.done (
    if !fits then d
    else if d.b F.PORT_STATUS_DL_ACTIVE p then
      (if (lt == 4 || lt == 6) && flit == d.b F.PORT_STATUS_FLIT p then d.backToL0 p width rate else d)
    else if d.mayTrain p then d.pcieUp p width rate flit credits else d)

/-- A link that has never been in use trains on at a higher rate (R49): its port may train, and is in no state above it. -/
def Dev.trainsOn (s : Dev) (p : Nat) (rate : Option (Fin 7)) : Bool :=
  s.mayTrain p && !s.b F.PORT_STATUS_DL_ACTIVE p && decide (s.f F.PORT_STATUS_LTSSM p ≤ 4)
    && (s.role p != 2 || s.nstate p == 1 || s.nstate p == 7) && rate.any (fun n => decide (n.val ≤ s.maxRate p))

/-- RECOVERY_ENTRY (R49, R52, R68): from L0, L0s or L1; or in the course of training, to the rate at which equalization follows. -/
def execRecoveryEntry (p : Fin 512) (rate : Option (Fin 7)) (s : State) : Host.Outcome State Fault Refusal :=
  let d := s.dev
  let lt := d.f F.PORT_STATUS_LTSSM p
  s.done (if (d.b F.PORT_CTL_EN p && d.b F.PORT_STATUS_DL_ACTIVE p && (lt == 3 || lt == 5 || lt == 6)) || d.trainsOn p rate then
    d.recover p (rate.map Fin.val) else d)

/-- The most unused credits that a partner may let stand on link credit `kind`: the largest of any scale of PCI Express Base 7.0 (PRESUMED, log
143). -/
def creditMost (kind : Nat) : Nat := if kind % 2 = 0 then 127 * 16 else 2047 * 16

/-- UPDATEFC (R155, R158). More credits than a partner may let stand, or any where it has advertised infinite credit, are a Flow Control Protocol
Error: the link goes down (R343). -/
def execUpdateFc (p : Fin 512) (kind : Fin 8) (n : Nat) (s : State) : Host.Outcome State Fault Refusal :=
  let d := s.dev
  let l := d.link p
  s.done (if d.isPcie p && d.b F.PORT_STATUS_DL_ACTIVE p then
    if creditMost kind < l.cr.look 0 kind + n ∨ (l.inf.contains kind.val = true ∧ n ≠ 0) then (d.aerU (portFn p) AER.flowControl).linkDown p
    else d.setLink p { l with cr := l.cr.put 0 kind (l.cr.look 0 kind + n) } else d)

/-- ACK_DLLP (R136, R343). One whose check fails is discarded as a Bad DLLP. -/
def execAckDllp (p : Fin 512) (nak : Bool) (seq : BitVec 12) (good : Bool) (s : State) : Host.Outcome State Fault Refusal :=
  let d := s.dev
  s.done (if d.isPcie p && d.b F.PORT_STATUS_DL_ACTIVE p then
    if !good then d.aerC (portFn p) AER.badDllp
    else match d.ackTo p seq.toNat with
    | .ok d1 => if nak then d1.pcieReplay p else d1
    | .error _ => (d.aerU (portFn p) AER.dlp).linkDown p
  else d)

/-- REPLAY_TIMER_TIMEOUT (R343). -/
def execReplayTimerTimeout (p : Fin 512) (s : State) : Host.Outcome State Fault Refusal :=
  let d := s.dev
  s.done (if d.isPcie p && d.b F.PORT_STATUS_DL_ACTIVE p && !(d.link p).replay.isEmpty then
    (d.aerC (portFn p) AER.replayTimeout).pcieReplay p else d)

end Sys2Proof.Machine
end

