-- ==== Sys2Proof/Machine/Resets.lean ====
section
/-! DEFINITION. Commands that are events of resets, roles and lifecycle (R386-R402, R438, R446). -/

namespace Sys2Proof.Machine

/-! ### Cold reset -/

/-- A cold reset with cause `last` (R386). During a fuse burn the bits burned so far stay (R402): how many copies, in the order of R401, is
a free value. -/
def State.cold (s : State) (last : Nat) (d : Dev) : State :=
  if d.b F.LC_CTL_BUSY then
    { s with fuses := s.fuses.burn (lcCode d.rst.burnTarget) (d.freeVal.toNat % 5), dev := d.useFree.coldReset last }
  else { s with dev := d.coldReset last }

/-- PERST_IN_N taken low (R387). -/
def State.perstTaken (s : State) : State :=
  s.cold 0 { s.dev with rst := { s.dev.rst with perstLow := true } }

/-- PERST_IN_ASSERT (R387, R446): whether a low of 20 ns to 1 µs is taken is a free value. -/
def execPerstInAssert (t : LowTime) (s : State) : Host.Outcome State Fault Refusal :=
  match s.dev.rst.perstLow, t with
  | true, _ | false, .glitch => .next s
  | false, .short =>
    let s1 := { s with dev := s.dev.useFree }
    .next (if s.dev.freeVal.getLsbD 0 then s1.perstTaken else s1)
  | false, .long => .next s.perstTaken

/-- The straps sampled as PERST_IN_N rises (R387). A strap that changed inside its setup or hold time samples as a free value. -/
def Dev.sample (s : Dev) (p : Straps) : Dev :=
  let v := s.freeVal
  let w := if p.margin then v.getLsbD 0 else p.roleW
  let e := if p.margin then v.getLsbD 1 else p.roleE
  let src := if p.margin then getBits v 2 2 else p.bootSrc.val
  let tm := if p.margin then v.getLsbD 4 else p.testMode
  let s1 := if p.margin then s.useFree else s
  let s2 := (((s1.setB F.ROLE_STATUS_STRAP_W w).setB F.ROLE_STATUS_STRAP_E e).setF F.BOOT_STATUS_SRC src).setB F.BOOT_STATUS_TEST_MODE tm
  { s2 with rst := { s2.rst with perstLow := false, bootSrc := src, testMode := tm } }

/-- PERST_IN_RELEASE (R387). -/
def execPerstInRelease (straps : Straps) (s : State) : Host.Outcome State Fault Refusal :=
  s.done (if s.dev.rst.perstLow then s.dev.sample straps else s.dev)

/-- SUPPLY_FAULT (R438, R446). -/
def execSupplyFault (vddIo : Bool) (s : State) : Host.Outcome State Fault Refusal :=
  .next (s.cold 1 { s.dev with rst := { s.dev.rst with supplies := false, vddIo := s.dev.rst.vddIo && !vddIo } })

/-- SUPPLY_VALID (R386). -/
def execSupplyValid (s : State) : Host.Outcome State Fault Refusal :=
  s.done { s.dev with rst := { s.dev.rst with supplies := true, vddIo := true } }

/-! ### Fuse shadow, votes, heartbeat -/

/-- The load of half `h`'s fuse shadow ends (R392); after an error its contents are free values. With both ended, boot is at ELECTION. -/
def Dev.shadowLoaded (s : Dev) (f : FuseSt) (h : Nat) (ok : Bool) : Dev :=
  let was := if h = 0 then s.rst.shadowW else s.rst.shadowE
  if s.coldHeld h || was.isSome then s
  else
    let bad : FuseSt :=
      { w0 := s.freeVal.truncate 3, w1 := (s.freeVal >>> 3).truncate 3, e0 := s.freeVal.truncate 3, e1 := (s.freeVal >>> 3).truncate 3
        serialW := Config.freeBits (s.free + 1), serialE := Config.freeBits (s.free + 1) }
    let s1 := if ok then s.loadShadow f h else (s.useFree 2).loadShadow bad h
    let s2 : Dev := { s1 with rst := if h = 0 then { s1.rst with shadowW := some ok } else { s1.rst with shadowE := some ok } }
    if s2.rst.shadowW.isSome && s2.rst.shadowE.isSome && s2.f F.BOOT_STATUS_STAGE == 0 then s2.setF F.BOOT_STATUS_STAGE 1 else s2

/-- FUSE_SHADOW_LOADED (R392). -/
def execFuseShadowLoaded (h : Fin 2) (ok : Bool) (s : State) : Host.Outcome State Fault Refusal :=
  s.done (s.dev.shadowLoaded s.fuses h ok)

/-- HALF_CLAIM (R392). -/
def execHalfClaim (answered : Bool) (s : State) : Host.Outcome State Fault Refusal := s.doneTwin (s.dev.strapVote answered)

/-- STANDOFF_VOTE (R393). -/
def execStandoffVote (sentW sentE answered : Bool) (s : State) : Host.Outcome State Fault Refusal :=
  s.doneTwin (s.dev.serialVote sentW sentE answered)

/-- HALF_HEARTBEAT (R394): the standby hears it, and nothing else follows. -/
def execHalfHeartbeat (s : State) : Host.Outcome State Fault Refusal := s.done s.dev

/-- HALF_HEARTBEAT_LOSS (R394). -/
def execHalfHeartbeatLoss (disputed : Bool) (s : State) : Host.Outcome State Fault Refusal := s.doneTwin (s.dev.heartbeatLost disputed)

/-! ### The wipe -/

/-- Every wipe of a reset is complete (R391), the Floor's too (R161). -/
def Dev.wipeDone (s : Dev) : Dev :=
  if s.rst.wipe && !s.coldHeld 0 && !s.coldHeld 1 then
    (({ s with rst := { s.rst with wipe := false, soft := false } } : Dev).setB F.RESET_STATUS_WIPE_DONE true).wipeEnds
  else s

/-- WIPE_DONE (R391). -/
def execWipeDone (s : State) : Host.Outcome State Fault Refusal := s.done s.dev.wipeDone

/-! ### Lifecycle -/

/-- LC_ARM_EXPIRED (R401). -/
def execLcArmExpired (s : State) : Host.Outcome State Fault Refusal := s.done (s.dev.setB F.LC_CTL_ARMED false)

/-- FUSE_BURN_DONE (R401): the four copies hold TARGET's code, and the device makes a soft reset with cause LIFECYCLE. -/
def execFuseBurnDone (s : State) : Host.Outcome State Fault Refusal :=
  let d := s.dev
  if d.b F.LC_CTL_BUSY then
    let f := s.fuses.burn (lcCode d.rst.burnTarget) 4
    State.doneTwin { s with fuses := f } (((d.softReset 3 d.bootStage).loadShadow f 0).loadShadow f 1)
  else s.done d

end Sys2Proof.Machine
end

