-- ==== Sys2Proof/Machine/Rows.lean ====
section
/-! DEFINITION. The events of Rows and lanes (02_rows_and_lanes.md). -/

namespace Sys2Proof.Machine

/-- BLOCK_LOCK_LOST: four consecutive invalid sync headers at 8.0 to 32 GT/s (R46). -/
def execBlockLockLost (r : Fin 32) (m : Fin 17) (s : State) : Host.Outcome State Fault Refusal :=
  let d := s.dev
  s.done (if 2 ≤ d.laneRate r m ∧ d.laneRate r m ≤ 4 ∧ d.b F.LANE_STATUS_CODE_LOCK r m = true then
    ((d.setB F.LANE_STATUS_CODE_LOCK false r m).inc .laneCodeErr 4 r m).rxErrorN r m 4 else d)

/-- EQ_PARTNER_REQUEST (R48, R49): the coefficients are set or rejected, and at 64 and 128 GT/s precoding as it asks. -/
def execEqPartnerRequest (r : Fin 32) (m : Fin 17) (cM2 cM1 c0 cP1 : BitVec 6) (precode : Bool) (s : State) :
    Host.Outcome State Fault Refusal :=
  let d := s.dev
  let x := d.lane r m
  let ok := coefOk x.rate cM2.toNat cM1.toNat c0.toNat cP1.toNat
  let y : LaneSt := { x with txPre := decide (5 ≤ x.rate) && precode }
  s.done (if d.eqAnswers r m then
    (d.emit (.eqAnswer r m ok)).setLane r m (if ok then { y with tx := [cM2.toNat, cM1.toNat, c0.toNat, cP1.toNat] } else y)
  else d)

/-- EQ_EVALUATION_DONE (R50); the spare takes part in no equalization (R62). -/
def execEqEvaluationDone (r : Fin 32) (m : Fin 17) (fom : Nat) (rejected : Bool) (s : State) : Host.Outcome State Fault Refusal :=
  s.done (if s.dev.laneUsed r m then s.dev.eqEval r m fom rejected else s.dev)

/-- SPARE_OFFER_SEND (R61): the device supports 64 and 128 GT/s. -/
def execSpareOfferSend (r : Fin 32) (s : State) : Host.Outcome State Fault Refusal :=
  let d := s.dev
  let x := d.row r
  s.done (if d.spareAvail r && !x.sent && !x.silent then
    let d1 := (d.setRow r { x with sent := true }).sendSpare r (.offer 3)
    let d2 := if d.rxSpare r = 0 then
      (d1.setF F.ROW_SPARE_STATUS_RX_STATE 1 r).setF F.ROW_SPARE_STATUS_TX_STATE 1 r else d1
    if x.got then d2.spareNegotiated r else d2
  else d)

/-- The partner supports the current rate. -/
def Dev.sharesRate (s : Dev) (r : Nat) (cap : BitVec 8) : Bool := cap.getLsbD (s.f F.PORT_STATUS_RATE (s.spareOwner r) - 5)

/-- SPARE_OFFER (R59, R61). -/
def execSpareOffer (r : Fin 32) (magic cap : BitVec 8) (s : State) : Host.Outcome State Fault Refusal :=
  let d := s.dev
  let x := d.row r
  s.done (if magic = 0x6A ∧ d.spareAvail r = true ∧ x.silent = false then
    let d1 := (d.spareIn r).setRow r { x with got := true, heard := true }
    let d2 := if d.sharesRate r cap then d1.sendSpare r (.accept 3) else d1
    if x.sent then d2.spareNegotiated r else d2
  else d.spareIn r)

/-- SPARE_ACCEPT (R59, R61). -/
def execSpareAccept (r : Fin 32) (magic _cap : BitVec 8) (s : State) : Host.Outcome State Fault Refusal :=
  let d := s.dev
  s.done (if magic = 0x6A ∧ d.spareAvail r = true ∧ (d.row r).silent = false then
    ((d.spareIn r).setRow r { d.row r with heard := true }).spareNegotiated r else d.spareIn r)

/-- SPARE_NEGOTIATION_TIMEOUT (R61): the spare is OFF for this L0 entry. A substitution lasts (R68), and so does an exchange under way. -/
def execSpareNegotiationTimeout (r : Fin 32) (s : State) : Host.Outcome State Fault Refusal :=
  let d := s.dev
  s.done (if d.spareAvail r && !(d.row r).heard then
    let d1 := d.setRow r { d.row r with silent := true }
    let d2 := if d.rxSpare r = 4 ∨ d.rxSpare r = 5 then d1 else (d1.setF F.ROW_SPARE_STATUS_RX_STATE 0 r).spareIdle r
    if 4 ≤ d.txSpare r then d2 else d2.setF F.ROW_SPARE_STATUS_TX_STATE 0 r
  else d)

/-- SPARE_READY (R63). -/
def execSpareReady (r : Fin 32) (s : State) : Host.Outcome State Fault Refusal :=
  let d := s.dev
  s.done (if d.rxSpare r = 2 then
    ((d.setF F.ROW_SPARE_STATUS_RX_STATE 3 r).setB F.LANE_STATUS_RX_LOCK true r 16).setB F.LANE_STATUS_CODE_LOCK true r 16
  else d)

/-- SPARE_UNFIT (R63). -/
def execSpareUnfit (r : Fin 32) (s : State) : Host.Outcome State Fault Refusal :=
  let d := s.dev
  s.done (if d.rxSpare r = 3 then
    (d.setF F.ROW_SPARE_STATUS_RX_STATE 6 r).setB F.ROW_SPARE_STATUS_SPARE_FAULT true r else d)

/-- CONDEMNATION_WINDOW (R64). -/
def execCondemnationWindow (r : Fin 32) (e : RowErrs) (s : State) : Host.Outcome State Fault Refusal :=
  s.done (s.dev.condemnWindow r e)

/-- LANE_LOCK_LOSS: a lane loses receiver lock in L0 (R64). -/
def execLaneLockLoss (r : Fin 32) (m : Fin 16) (s : State) : Host.Outcome State Fault Refusal :=
  let d := s.dev
  s.done (if d.laneUsed r m && d.f F.PORT_STATUS_LTSSM (d.portOfLane r m) == 3 && d.b F.LANE_STATUS_RX_LOCK r m
      && !d.b F.LANE_STATUS_SUBSTITUTED r m then
    ((d.setB F.LANE_STATUS_RX_LOCK false r m).setB F.LANE_STATUS_CODE_LOCK false r m).condemn r m else d)

/-- SPARE_REQ (R65, R66). One that comes after the negotiation has timed out is answered with SPARE_NAK too (DESIGN CHOICE: R61 says that
the device sends nothing further, R66 that it answers; log 108). A lane number that names no logical lane gets no answer (log 103). -/
def execSpareReq (r : Fin 32) (lane : Fin 16) (flit : BitVec 10) (s : State) : Host.Outcome State Fault Refusal :=
  let d := s.dev
  s.done (if d.spareAvail r && (d.laneFor (d.spareOwner r) lane).isSome then
    (if d.txSpare r = 2 then
      ((((d.spareIn r).setF F.ROW_SPARE_STATUS_TX_STATE 4 r).setF F.ROW_SPARE_STATUS_TX_MIRROR_LANE lane r).sendSpare r
        (.ack lane flit.toNat)).spareReplay (d.spareOwner r)
    else (d.spareIn r).sendSpare r (.nak lane))
  else d.spareIn r)

/-- SPARE_ACK (R65). -/
def execSpareAck (r : Fin 32) (lane : Fin 16) (seq : BitVec 10) (s : State) : Host.Outcome State Fault Refusal :=
  let d := s.dev
  s.done (if d.rxSpare r = 4 ∧ d.f F.ROW_SPARE_STATUS_RX_SUBST_LANE r = lane then
    ((d.spareIn r).setRow r { d.row r with seq := some seq.toNat }).setF F.LANE_STATUS_LOGICAL_LANE lane r 16 else d.spareIn r)

/-- SPARE_NAK (R66). The spare is READY again (DESIGN CHOICE: no rule names the RX_STATE that follows; log 109). -/
def execSpareNak (r : Fin 32) (lane : Fin 16) (s : State) : Host.Outcome State Fault Refusal :=
  let d := s.dev
  s.done (if d.rxSpare r = 4 ∧ d.f F.ROW_SPARE_STATUS_RX_SUBST_LANE r = lane then
    ((((d.spareIn r).setF F.ROW_SPARE_STATUS_RX_STATE 3 r).setB F.ROW_SPARE_STATUS_PARTNER_NAK true r).setB
      F.ROW_SPARE_STATUS_SPARE_MISSED true r).setF F.ROW_SPARE_STATUS_RX_SUBST_LANE 0 r else d.spareIn r)

/-- SPARE_SUBSTITUTION: after 16 clean Flits (R65). -/
def execSpareSubstitution (r : Fin 32) (s : State) : Host.Outcome State Fault Refusal :=
  let d := s.dev
  let l := d.f F.ROW_SPARE_STATUS_RX_SUBST_LANE r
  s.done (match d.laneFor (d.spareOwner r) l with
    | some m =>
      if d.rxSpare r = 4 ∧ (d.row r).seq.isSome = true then
        (((((d.setF F.ROW_SPARE_STATUS_RX_STATE 5 r).setB F.ROW_SPARE_STATUS_SWITCH_DONE true r).setB
          F.LANE_STATUS_SUBSTITUTED true r m).setF F.LANE_STATUS_LOGICAL_LANE l r 16).setB F.LANE_STATUS_DESKEWED true r 16).marginStop r m
      else d
    | none => d)

/-- PRBS_LOCK (R71): the count is that of the errors since lock. -/
def execPrbsLock (r : Fin 32) (m : Fin 17) (s : State) : Host.Outcome State Fault Refusal :=
  let d := s.dev
  s.done (if d.b F.LANE_PRBS_CTL_RX_EN r m && !d.b F.LANE_PRBS_CTL_LOCKED r m then
    (d.setB F.LANE_PRBS_CTL_LOCKED true r m).setReg .lanePrbsErr 0 r m else d)

/-- PRBS_LOCK_LOSS: the count holds until the checker locks again (R71). `errs` is what it saw since it was last told. -/
def execPrbsLockLoss (r : Fin 32) (m : Fin 17) (errs : Nat) (s : State) : Host.Outcome State Fault Refusal :=
  s.done (if s.dev.b F.LANE_PRBS_CTL_LOCKED r m then (s.dev.prbsCount r m errs).setB F.LANE_PRBS_CTL_LOCKED false r m else s.dev)

/-- PRBS_PERIODIC_INJECT (R72). -/
def execPrbsPeriodicInject (r : Fin 32) (m : Fin 17) (s : State) : Host.Outcome State Fault Refusal :=
  s.done (if s.dev.f F.LANE_PRBS_CTL_INJ_EXP r m ≠ 0 ∧ s.dev.safe r = false then s.dev.prbsInject r m else s.dev)

/-- MARGINING_COMMAND (R55). -/
def execMarginingCommand (r : Fin 32) (m : Fin 17) (c : MarginCmd) (errs : Nat) (s : State) :
    Host.Outcome State Fault Refusal :=
  let d := s.dev
  s.done (if d.marginable r m then d.marginCmd r m c errs else d)

end Sys2Proof.Machine
end

