-- ==== Sys2Proof/Machine/Slots.lean ====
section
/-! DEFINITION. Hot-plug slots and slot power: the events of the Signboard, the slots and the channels
(03_ports_partitions_hotplug.md, 14_slot_power.md). An event whose condition does not hold changes nothing (log 7). -/

namespace Sys2Proof.Machine

/-- SIGNBOARD_FRAME: a frame of a running chain (R90). -/
def execSignboardFrame (h : Fin 2) (din : List Bool) (s : State) : Host.Outcome State Fault Refusal :=
  s.done (if s.dev.sbRuns h then s.dev.sbFrame h din else s.dev)

/-- CHAIN_FAULT: three consecutive frames have been discarded (R93). -/
def execChainFault (h : Fin 2) (s : State) : Host.Outcome State Fault Refusal :=
  s.done (if s.dev.sbRuns h then
    (s.dev.setChain h { s.dev.chain h with bad := 3, frozen := true }).setB F.SB_CTL_CHAIN_FAULT true h else s.dev)

/-- What a change of the debounced PRSNT_N does (R96, R100, R101, R103, R104). -/
def Dev.presenceChange (s : Dev) (p : Nat) (present : Bool) : Dev :=
  let x := s.slot p
  if s.sbFrozen p || !s.hasSlot p || x.present == present || !s.sbAgrees p 0 (!present) then s
  else
    let s1 := s.setSlot p { x with present := present, lost := !present }
    match s.slotState p with
    | 5 => s1.bump F.SLOT_STATE_PRESENCE_BOUNCE 1 p
    | 3 => if present then s1 else s1.surpriseDown p false
    | st =>
      let s2 := (s1.setSlotState p 6 present).slotEvent p 3
      if st = 0 ∧ present = true then
        let s3 := s2.toSlot p 1
        if s.b F.SLOT_CFG_AUTO_POWER p && s.b F.PORT_CTL_EN p then s3.slotPowerOn p else s3
      else if st = 1 ∧ present = false then s2.toSlot p 0 else s2

/-- PRESENCE_CHANGE: PRSNT_N stable for its time (R96). -/
def execPresenceChange (p : Fin 512) (present : Bool) (s : State) : Host.Outcome State Fault Refusal :=
  s.done (s.dev.presenceChange p present)

/-- A loss of presence at port `p` waits among the commands, before the next frame of its half: it falls in the frame under way. -/
def lossAhead (p : Nat) : List Instr → Bool
  | [] => false
  | .presenceChange q present :: t => (q.val == p && !present) || lossAhead p t
  | .signboardFrame h _ :: t => h.val != p / 256 && lossAhead p t
  | _ :: t => lossAhead p t

/-- A press of the attention button is taken (R96, R103): not in COOLING, not in the frame in which presence was lost, and not again
before the button is up. -/
def Dev.pressTaken (s : Dev) (p : Nat) : Bool :=
  let x := s.slot p
  !s.sbFrozen p && s.hasSlot p && s.b F.SLOT_CFG_BTN p && s.slotState p != 5 && !x.lost && !x.btnDown && s.sbAgrees p 1 false

/-- ATTENTION_BUTTON_PRESSED (R96). A press in the frame in which presence is lost is discarded (R106), whichever of the two comes first (log
112). -/
def execAttentionButtonPressed (p : Fin 512) (s : State) : Host.Outcome State Fault Refusal :=
  let d := s.dev
  s.done (if d.pressTaken p && !((d.slot p).present && lossAhead p s.pending) then
    (d.setSlot p { d.slot p with btnDown := true }).slotEvent p 0 else d)

/-- What a change of the debounced MRL_N does (R100, R101). -/
def Dev.mrlChange (s : Dev) (p : Nat) (isOpen : Bool) : Dev :=
  if s.sbFrozen p || !s.hasSlot p || !s.b F.SLOT_CFG_MRL p || s.cfBit (portFn p) slotCtlOff 21 == isOpen || !s.sbAgrees p 2 isOpen then s
  else
    let s1 := s.setSlotState p 5 isOpen
    if isOpen && s.slotState p == 3 then s1.surpriseDown p true else s1.slotEvent p 2

/-- MRL_SENSOR_CHANGE (R96). -/
def execMrlSensorChange (p : Fin 512) (isOpen : Bool) (s : State) : Host.Outcome State Fault Refusal :=
  s.done (s.dev.mrlChange p isOpen)

/-- PWRFLT_CHANGE: a change that two consecutive accepted frames have shown (R96, R100). The second of them takes it already; the command finds
it taken, then. -/
def execPwrfltChange (p : Fin 512) (fault : Bool) (s : State) : Host.Outcome State Fault Refusal :=
  s.done (if s.dev.sbFrozen p || !s.dev.hasSlot p || !s.dev.sbAgrees p 3 (!fault) || decide ((s.dev.slot p).pfRun < 2) then s.dev
    else s.dev.pwrfltTaken p fault)

/-- A host can write Slot Control of port `p`: its function exists and has a slot. -/
def Dev.slotFn (s : Dev) (p : Nat) : Bool := s.hasSlot p && s.b F.PORT_CTL_EN p

/-- POWER_CONTROLLER_ON (R99). -/
def execPowerControllerOn (p : Fin 512) (s : State) : Host.Outcome State Fault Refusal :=
  s.done (if s.dev.slotFn p then s.dev.powerWrite p true else s.dev)

/-- POWER_CONTROLLER_OFF (R105). -/
def execPowerControllerOff (p : Fin 512) (s : State) : Host.Outcome State Fault Refusal :=
  s.done (if s.dev.slotFn p then s.dev.powerWrite p false else s.dev)

/-- INDICATOR_CONTROL (R99). -/
def execIndicatorControl (p : Fin 512) (power attn : BitVec 2) (s : State) : Host.Outcome State Fault Refusal :=
  s.done (if s.dev.slotFn p then s.dev.indicatorWrite p power.toNat attn.toNat else s.dev)

/-- COOLING_EXPIRED: the 100 ms debounce starts (R104). -/
def execCoolingExpired (p : Fin 512) (s : State) : Host.Outcome State Fault Refusal :=
  s.done (if s.dev.slotState p = 5 then
    (s.dev.setF F.SLOT_STATE_COOL_LEFT 0 p).setSlot p { s.dev.slot p with debounce := true } else s.dev)

/-- The end of the debounce after COOLING (R104, R106). -/
def Dev.debounceDone (s : Dev) (p : Nat) (present : Bool) : Dev :=
  let x := s.slot p
  if s.slotState p = 5 ∧ x.debounce = true ∧ s.sbFrozen p = false then
    let s1 := (s.setSlot p { x with present := present, debounce := false }).setSlotState p 6 present
    let changed := x.coolPresent != present || s.f F.SLOT_STATE_PRESENCE_BOUNCE p != 0
    let s2 := (if changed then s1.slotEvent p 3 else s1).slotRest p
    if present && s.b F.PORT_CTL_EN p && (s.b F.SLOT_CFG_AUTO_POWER p || s.powerCtlOn p) then s2.slotPowerOn p else s2
  else s

/-- PRESENCE_DEBOUNCE_DONE (R104). -/
def execPresenceDebounceDone (p : Fin 512) (present : Bool) (s : State) : Host.Outcome State Fault Refusal :=
  s.done (s.dev.debounceDone p present)

/-- Power is on: SLOT_PG of the channel, or PWR_EN latched at 1 (R105). -/
def Dev.powerPresent (s : Dev) (p : Nat) : Bool :=
  if s.integrated p then s.b F.SPC_STATUS_PG (p / 16) else (s.slot p).latched.getLsbD 1

/-- SLOT_POWER_VALID (R105). -/
def execSlotPowerValid (p : Fin 512) (s : State) : Host.Outcome State Fault Refusal :=
  s.done (if s.dev.slotState p = 2 ∧ s.dev.powerPresent p = true then s.dev.setSlot p { s.dev.slot p with valid := true } else s.dev)

/-- 100 ms after power became valid PERST_N is released (R105): the next frame carries it at 1, and at the SB_LOAD that latches it the slot is ON
and its port trains (`Dev.sbLatchOne`). -/
def Dev.perstRelease (s : Dev) (p : Nat) : Dev :=
  let x := s.slot p
  if s.slotState p = 2 ∧ x.valid = true ∧ s.b F.PORT_CTL_EN p = true then s.setSlot p { x with perstN := true } else s

/-- PERST_RELEASE (R105). -/
def execPerstRelease (p : Fin 512) (s : State) : Host.Outcome State Fault Refusal := s.done (s.dev.perstRelease p)

/-- A power-off ends without COOLING, in PRESENT_OFF or EMPTY (R105); a power-on command that waited for it is taken up. -/
def Dev.powerOffDone (s : Dev) (p : Nat) : Dev :=
  let x := s.slot p
  if s.slotState p = 4 ∧ x.offAtLoad = false then
    let s1 := s.slotRest p
    if !x.gateWait then s1
    else
      let s2 := if s1.slotState p = 1 then s1.slotPowerOn p true else s1.setSlot p { s1.slot p with gateWait := false }
      s2.cmdDone p true
  else s

/-- POWER_OFF_DONE (R105). -/
def execPowerOffDone (p : Fin 512) (s : State) : Host.Outcome State Fault Refusal := s.done (s.dev.powerOffDone p)

/-! ### Slot power channels -/

/-- SLOT_POWER_TICK (R355). -/
def execSlotPowerTick (n : Fin 32) (vsense vin vout : BitVec 12) (s : State) : Host.Outcome State Fault Refusal :=
  s.done (s.dev.spcTick n vsense.toNat vin.toNat vout.toNat)

/-- BREAKER: the fault timer expires (R358, R359). -/
def execBreaker (n : Fin 32) (s : State) : Host.Outcome State Fault Refusal := s.done (s.dev.spcFault n F.SPC_STATUS_BREAKER)

/-- FAST_TRIP: V_SENSE has reached 2 × ILIM_V (R357, R359). -/
def execFastTrip (n : Fin 32) (s : State) : Host.Outcome State Fault Refusal := s.done (s.dev.spcFault n F.SPC_STATUS_FAST_TRIP)

/-- FET_HIGH_RDS: V_DS too high for 16 ticks in ON (R359). -/
def execFetHighRds (n : Fin 32) (s : State) : Host.Outcome State Fault Refusal :=
  s.done (if s.dev.spcState n = 2 then s.dev.spcFault n F.SPC_STATUS_FET_HIGH_RDS else s.dev)

/-- VIN_UV: VIN below 9.8 V for 4 ticks in RAMP or ON (R359). -/
def execVinUv (n : Fin 32) (s : State) : Host.Outcome State Fault Refusal := s.done (s.dev.spcFault n F.SPC_STATUS_VIN_UV)

/-- DISCHARGE_END: 1 ms after a discharge began: LATCHED after a fault, OFF after a command (R359, R364). -/
def execDischargeEnd (n : Fin 32) (s : State) : Host.Outcome State Fault Refusal :=
  s.done (if s.dev.spcState n = 3 then s.dev.setF F.SPC_STATUS_STATE (if (s.dev.spc n).fault then 4 else 0) n else s.dev)

/-- FET_SHORT: current in the shunt for 1,000 ticks with no gate drive (R361). -/
def execFetShort (n : Fin 32) (s : State) : Host.Outcome State Fault Refusal :=
  s.done (if s.dev.b F.SPC_CFG_EN n && (s.dev.spcState n == 0 || s.dev.spcState n == 3 || s.dev.spcState n == 4) then
    s.dev.spcShort n else s.dev)

/-- The restart hold-off of 100 ms ends: a power-on that waited is taken up, or refused where the channel is LATCHED or in FET_FAULT by now, and
the Command Completed that waited with it is set (R360). -/
def Dev.spcHoldoffEnd (s : Dev) (n : Nat) : Dev :=
  let x := s.spc n
  let s1 := s.setSpc n { x with holdoff := false, want := false }
  if x.want then
    let s2 := s1.spcOn n
    let p := s.spcPort n
    if s2.spcState n ≠ 1 then s2.spcPowerEnds n
    else if s2.spcServing n then
      let y := s2.slot p
      (s2.setSlot p { y with gateWait := false }).cmdDone p y.gateWait
    else s2
  else s1

/-- RESTART_HOLDOFF_END (R360). -/
def execRestartHoldoffEnd (n : Fin 32) (s : State) : Host.Outcome State Fault Refusal :=
  s.done (if (s.dev.spc n).holdoff && s.dev.spcState n != 3 then s.dev.spcHoldoffEnd n else s.dev)

end Sys2Proof.Machine
end

