-- ==== Sys2Proof/Machine/Time.lean ====
section
/-! DEFINITION. The events of device time and of the reference and divided clocks (R366-R372, R421-R424). -/

namespace Sys2Proof.Machine

/-- TIME_ALIGN: the standby half's count takes that of the half in charge (R421). -/
def execTimeAlign (s : State) : Host.Outcome State Fault Refusal :=
  let t := s.dev.time
  s.done { s.dev with time := if s.dev.ic = 0 then { t with te := t.tw } else { t with tw := t.te } }

/-- PPS_EDGE (R423): a correction point under source 2. -/
def execPpsEdge (s : State) : Host.Outcome State Fault Refusal :=
  let d := s.dev
  s.done (if d.timeSrc = 2 then
    let d1 := d.correct d.nearestSecond d.nowNs
    if d.time.lost then d1.postTime 1 else d1
  else d)

/-- PPS_LOST: no edge for 1.5 s (R423). -/
def execPpsLost (s : State) : Host.Outcome State Fault Refusal :=
  let d := s.dev
  s.done (if d.timeSrc = 2 ∧ d.time.lost = false then ((d.setB F.TIME_STATUS_PPS_LOST true).loseRef).postTime 0 else d)

/-- PPS_OUT_PULSE: the pulse rises at the first TCLK edge of a whole second of device time and ends 1 ms later, or where PPS_OUT_EN is
clear (R423). -/
def execPpsOutPulse (rise : Bool) (s : State) : Host.Outcome State Fault Refusal :=
  let d := s.dev
  s.done (if d.ppsTurns rise = true then ({ d with time := { d.time with ppsOut := rise } }).emit (.pps rise) else d)

/-- PTM_DIALOG: the USP PTM_PORT sends its request (R424). -/
def execPtmDialog (s : State) : Host.Outcome State Fault Refusal :=
  let d := s.dev
  let p := d.f F.TIME_CTL_PTM_PORT
  s.done (if d.timeSrc = 1 ∧ d.b F.PORT_CTL_EN p = true ∧ d.role p = 1 ∧ d.b F.PORT_STATUS_DL_ACTIVE p = true then
    ({ d with time := { d.time with dialog := some d.nowNs } }).emit (.link p .ptmRequest) else d)

/-- PTM_DIALOG_COMPLETE: the reference is the master time less the propagation delay, held against device time at the request
(R424). -/
def execPtmDialogComplete (master delay : BitVec 64) (s : State) : Host.Outcome State Fault Refusal :=
  let d := s.dev
  s.done (match d.time.dialog with
    | some t0 =>
      if d.timeSrc = 1 then
        let d1 := d.correct (master.toNat - delay.toNat) t0
        { d1 with time := { d1.time with dialog := none } }
      else d
    | none => d)

/-- PTM_FAIL: no answer within 1 ms (R424). -/
def execPtmFail (s : State) : Host.Outcome State Fault Refusal :=
  let d := s.dev
  s.done (if d.timeSrc = 1 ∧ d.time.dialog.isSome = true then ((d.setB F.TIME_STATUS_PTM_FAIL true).loseRef).postTime 3 else d)

/-- PTM Enable of a port's function (R82, log 13). -/
def Dev.ptmOn (s : Dev) (p : Nat) : Bool := s.cfBit (portFn p) 0x298 0

/-- PTM_REQUEST: answered with device time, or without it while a source is chosen and not synchronized (R424). -/
def execPtmRequest (p : Fin 512) (s : State) : Host.Outcome State Fault Refusal :=
  let d := s.dev
  s.done (if d.b F.PORT_STATUS_DL_ACTIVE p && decide (d.role p ≤ 1) && d.ptmOn p then
    d.emit (.link p (.ptmResponse (if d.timeSrc = 0 ∨ d.b F.TIME_STATUS_SYNCED = true then some (BitVec.ofNat 64 d.nowNs) else none)))
  else d)

/-- REFCLK_LOSS: HOLDOVER; the half keeps running (R368). -/
def execRefclkLoss (h : Fin 2) (s : State) : Host.Outcome State Fault Refusal :=
  let d := s.dev
  s.done (if d.b F.CLK_STATUS_PLL_LOCK h then
    ((d.setB F.CLK_STATUS_HOLDOVER true h).setB F.CLK_STATUS_LOCK_LOST true h).setClock h { d.clock h with relock := false }
  else d)

/-- REFCLK_RETURN: the PLL relocks by slewing (R368). -/
def execRefclkReturn (h : Fin 2) (s : State) : Host.Outcome State Fault Refusal :=
  let d := s.dev
  s.done (if d.b F.CLK_STATUS_HOLDOVER h then d.setClock h { d.clock h with relock := true } else d)

/-- DROOP_SAG: sensor `i` reports level 1, or level 2, which is level 1 as well (R371). -/
def execDroopSag (h : Fin 2) (i : Fin 32) (level2 : Bool) (s : State) : Host.Outcome State Fault Refusal :=
  let d := s.dev
  let d1 := d.setF ⟨.droopStatus, i, 1⟩ 1 h
  s.done ((if level2 then d1.setF ⟨.droopStatus, 32 + i, 1⟩ 1 h else d1).slowClock h)

/-- DROOP_SAG_CLEAR (R371). -/
def execDroopSagClear (h : Fin 2) (i : Fin 32) (level2only : Bool) (s : State) : Host.Outcome State Fault Refusal :=
  let d := s.dev.setF ⟨.droopStatus, 32 + i, 1⟩ 0 h
  s.done (if level2only then d else d.setF ⟨.droopStatus, i, 1⟩ 0 h)

/-- DROOP_RECOVERY_STEP: RECOV × 100 ns without the reports that hold the divider (R371). -/
def execDroopRecoveryStep (h : Fin 2) (s : State) : Host.Outcome State Fault Refusal := s.done (s.dev.recoverClock h)

end Sys2Proof.Machine
end

