-- ==== Sys2Proof/Machine/Writes.lean ====
section
/-! DEFINITION. Commands that are register writes, each as the access that its row names. A command that names one field writes the
register's other fields with the values they hold. -/

namespace Sys2Proof.Machine

/-- A register's stored RW and RWS bits: what a write that leaves them alone writes. -/
def Dev.same (s : Dev) (r : RegId) : Word := s.reg r.kind r.i r.j &&& (r.kind.info.rw ||| r.kind.info.rws)

/-- A write of a register by the management PF that changes nothing but the bits `m`, which take the value `x`. -/
def State.poke (s : State) (r : RegId) (m x : Word) : Host.Outcome State Fault Refusal :=
  s.doneReg (s.dev.regWriteCmd r ((s.dev.same r &&& ~~~m) ||| (x &&& m)))

/-- A write of a register by the management PF. -/
def State.write (s : State) (r : RegId) (v : Word) : Host.Outcome State Fault Refusal := s.doneReg (s.dev.regWriteCmd r v)

/-- A write of a register in a Stall's BAR0 that changes nothing but the bits `m`. -/
def State.pokeStall (s : State) (st : Fin 1024) (r : RegId) (m x : Word) : Host.Outcome State Fault Refusal :=
  s.doneReg (s.dev.stallWriteCmd st r ((s.dev.same r &&& ~~~m) ||| (x &&& m)))

/-! ### Any register -/

/-- REGISTER_WRITE (R7): a 32-bit or 64-bit write in management PF BAR0 or a Stall's BAR0. -/
def execRegisterWrite (bar : Bar) (off : BitVec 26) (wide : Bool) (v : BitVec 64) (s : State) : Host.Outcome State Fault Refusal :=
  s.doneReg (s.dev.request { door := .mgmtPf, bar := bar, off := off.toNat, write := true, wide := wide, v := v })

/-- MISALIGNED_REGISTER_ACCESS (R9). -/
def execMisalignedRegisterAccess (bar : Bar) (off : BitVec 26) (bytes : Nat) (write : Bool) (s : State) :
    Host.Outcome State Fault Refusal :=
  s.doneReg (if alignedAccess off.toNat bytes then .ok s.dev
    else s.dev.request { door := .mgmtPf, bar := bar, off := off.toNat, write := write, wide := decide (4 < bytes), odd := some bytes })

/-- STALLED_ACCESS_COMPLETE (R21). -/
def execStalledAccessComplete (slot : Fin 4) (s : State) : Host.Outcome State Fault Refusal := s.doneReg (s.dev.slotDone slot)

/-! ### Rows and lanes -/

/-- ROW_SPLIT_WRITE (R39). -/
def execRowSplitWrite (r : Fin 32) (v : BitVec 32) (s : State) : Host.Outcome State Fault Refusal :=
  s.write ⟨.rowSplit, r, 0⟩ (v.zeroExtend 64)

/-- ROW_SPARE_FORCE (R69). -/
def execRowSpareForce (r : Fin 32) (lane : Fin 16) (s : State) : Host.Outcome State Fault Refusal :=
  s.poke ⟨.rowSpareCtl, r, 0⟩ 0x7C0 (BitVec.ofNat 64 (64 * lane + 0x400))

/-- LANE_PRBS_CTL_WRITE (R70). -/
def execLanePrbsCtlWrite (r : Fin 32) (m : Fin 17) (v : BitVec 32) (s : State) : Host.Outcome State Fault Refusal :=
  s.write ⟨.lanePrbsCtl, r, m⟩ (v.zeroExtend 64)

/-- PRBS_CLEAR (R71). -/
def execPrbsClear (r : Fin 32) (m : Fin 17) (s : State) : Host.Outcome State Fault Refusal := s.poke ⟨.lanePrbsCtl, r, m⟩ 0x40 0x40

/-- PRBS_INJ_ONE (R72). -/
def execPrbsInjOne (r : Fin 32) (m : Fin 17) (s : State) : Host.Outcome State Fault Refusal := s.poke ⟨.lanePrbsCtl, r, m⟩ 0x100 0x100

/-! ### Ports, partitions, slots -/

/-- PORT_ENABLE (R75): a write of PORT_CTL with EN set. -/
def execPortEnable (p : Fin 512) (v : BitVec 32) (s : State) : Host.Outcome State Fault Refusal :=
  s.write ⟨.portCtl, p, 0⟩ (v.zeroExtend 64 ||| 1)

/-- PORT_DISABLE (R76): a write of PORT_CTL with EN clear. -/
def execPortDisable (p : Fin 512) (v : BitVec 32) (s : State) : Host.Outcome State Fault Refusal :=
  s.write ⟨.portCtl, p, 0⟩ (v.zeroExtend 64 &&& ~~~1)

/-- PART_CTL_WRITE (R77). -/
def execPartCtlWrite (q : Fin 128) (v : BitVec 32) (s : State) : Host.Outcome State Fault Refusal :=
  s.write ⟨.partCtl, q, 0⟩ (v.zeroExtend 64)

/-- PARTITION_RESET (R80). -/
def execPartitionReset (q : Fin 128) (s : State) : Host.Outcome State Fault Refusal := s.poke ⟨.partCtl, q, 0⟩ 2 2

/-- SVC_CTL_WRITE (R108). -/
def execSvcCtlWrite (v : BitVec 32) (s : State) : Host.Outcome State Fault Refusal := s.write ⟨.svcCtl, 0, 0⟩ (v.zeroExtend 64)

/-- SB_CTL_WRITE (R97). -/
def execSbCtlWrite (h : Fin 2) (v : BitVec 32) (s : State) : Host.Outcome State Fault Refusal :=
  s.write ⟨.sbCtl, h, 0⟩ (v.zeroExtend 64)

/-- SLOT_CFG_WRITE (R107). -/
def execSlotCfgWrite (p : Fin 512) (v : BitVec 64) (s : State) : Host.Outcome State Fault Refusal := s.write ⟨.slotCfg, p, 0⟩ v

/-- SPC_CFG_WRITE (R353). -/
def execSpcCfgWrite (n : Fin 32) (v : BitVec 64) (s : State) : Host.Outcome State Fault Refusal := s.write ⟨.spcCfg, n, 0⟩ v

/-! ### Forwarding, Floor, schedulers -/

/-- WIN_COMMIT (R124). -/
def execWinCommit (s : State) : Host.Outcome State Fault Refusal := s.poke ⟨.fwdCtl, 0, 0⟩ 1 1

/-- HASH_SEED_WRITE (R132). -/
def execHashSeedWrite (v : BitVec 32) (s : State) : Host.Outcome State Fault Refusal := s.write ⟨.hashSeed, 0, 0⟩ (v.zeroExtend 64)

/-- BUCKET_PATH_WRITE (R133). -/
def execBucketPathWrite (b : Fin 4096) (path : Fin 16) (s : State) : Host.Outcome State Fault Refusal :=
  s.write ⟨.bucket, b, 0⟩ (BitVec.ofNat 64 path)

/-- PITCH_FENCE (R136). -/
def execPitchFence (c : Fin 576) (s : State) : Host.Outcome State Fault Refusal := s.write ⟨.pitchFence, c, 0⟩ 1

/-- BANK_RETIRE_COMMAND (R150). -/
def execBankRetireCommand (b : Fin 512) (s : State) : Host.Outcome State Fault Refusal :=
  s.write ⟨.floorBank, b, 0⟩ 0x2000000000000

/-- GROUP_CTL_WRITE (R145): of GROUP_CTL of a group, or of FLOOR_RSV_GROUPS. -/
def execGroupCtlWrite (g : Option (Fin 32)) (v : BitVec 32) (s : State) : Host.Outcome State Fault Refusal :=
  match g with
  | some g => s.write ⟨.groupCtl, g, 0⟩ (v.zeroExtend 64)
  | none => s.write ⟨.floorRsvGroups, 0, 0⟩ (v.zeroExtend 64)

/-- WIPE_ALL (R162). -/
def execWipeAll (s : State) : Host.Outcome State Fault Refusal := s.poke ⟨.floorCtl, 0, 0⟩ 1 1

/-- GATE_ENABLE (R186). -/
def execGateEnable (p : Fin 512) (s : State) : Host.Outcome State Fault Refusal := s.poke ⟨.gateCtl, p, 0⟩ 1 1

/-- GATE_SWITCH (R186). -/
def execGateSwitch (p : Fin 512) (s : State) : Host.Outcome State Fault Refusal := s.poke ⟨.gateCtl, p, 0⟩ 8 8

/-- The register of port `p` that a scheduler parameter names. -/
def schedRegId (p : Nat) (r : SchedReg) : RegId :=
  match r with
  | .qDrr q => ⟨.pschQDrr, p, q⟩
  | .qShape q => ⟨.pschQShape, p, q⟩
  | .gDrr g => ⟨.pschGDrr, p, g⟩
  | .portShape => ⟨.pschPortShape, p, 0⟩

/-- SCHEDULER_PARAMETER_WRITE (R188). -/
def execSchedulerParameterWrite (p : Fin 512) (r : SchedReg) (v : BitVec 64) (s : State) : Host.Outcome State Fault Refusal :=
  s.write (schedRegId p r) v

/-! ### Halls, seals -/

/-- HALL_ENABLE (R192): a write of HALL_CTL with EN set. -/
def execHallEnable (v : BitVec 32) (s : State) : Host.Outcome State Fault Refusal :=
  s.write ⟨.hallCtl, 0, 0⟩ (v.zeroExtend 64 ||| 0x10000000)

/-- HALL_DISABLE (R192): a write of HALL_CTL with EN clear. -/
def execHallDisable (v : BitVec 32) (s : State) : Host.Outcome State Fault Refusal :=
  s.write ⟨.hallCtl, 0, 0⟩ (v.zeroExtend 64 &&& ~~~0x10000000)

/-- SEAL_WRITE (R252): PITCH_SEAL (`k` 0), or WIN_SEAL of partitions 0-63 or 64-127. -/
def execSealWrite (k : Fin 3) (v : BitVec 64) (s : State) : Host.Outcome State Fault Refusal :=
  if k = 0 then s.write ⟨.pitchSeal, 0, 0⟩ v else s.write ⟨.winSeal, k - 1, 0⟩ v

/-! ### Rings, translation, Stalls -/

/-- RING_RESUME (R279). -/
def execRingResume (st : Fin 1024) (r : Fin 8) (s : State) : Host.Outcome State Fault Refusal :=
  s.pokeStall st ⟨.ringCtl, st, r⟩ 0x20000 0x20000

/-- RING_ENABLE (R280). -/
def execRingEnable (st : Fin 1024) (r : Fin 8) (s : State) : Host.Outcome State Fault Refusal := s.pokeStall st ⟨.ringCtl, st, r⟩ 1 1

/-- RING_DISABLE (R280). -/
def execRingDisable (st : Fin 1024) (r : Fin 8) (s : State) : Host.Outcome State Fault Refusal := s.pokeStall st ⟨.ringCtl, st, r⟩ 1 0

/-- STALL_XLAT_WRITE (R284). -/
def execStallXlatWrite (st : Fin 1024) (v : BitVec 64) (s : State) : Host.Outcome State Fault Refusal := s.write ⟨.stallXlat, st, 0⟩ v

/-- FQ_CI_WRITE (R300). -/
def execFqCiWrite (h : Fin 2) (v : BitVec 32) (s : State) : Host.Outcome State Fault Refusal :=
  s.write ⟨.fqCi, h, 0⟩ (v.zeroExtend 64)

/-- FQ_BASE_WRITE (R300). -/
def execFqBaseWrite (h : Fin 2) (v : BitVec 64) (s : State) : Host.Outcome State Fault Refusal := s.write ⟨.fqBase, h, 0⟩ v

/-- The value of XLAT_RESP that names a ring, or a Stall's poll. -/
def respWord (st r : Nat) (poll abort : Bool) : Word := BitVec.ofNat 64 (st + 1024 * r + 8192 * b2n poll + 16384 * b2n abort)

/-- FAULT_RESUME (R301). -/
def execFaultResume (h : Fin 2) (st : Fin 1024) (r : Fin 8) (poll : Bool) (s : State) : Host.Outcome State Fault Refusal :=
  s.write ⟨.xlatResp, h, 0⟩ (respWord st r poll false)

/-- FAULT_ABORT (R301). -/
def execFaultAbort (h : Fin 2) (st : Fin 1024) (r : Fin 8) (poll : Bool) (s : State) : Host.Outcome State Fault Refusal :=
  s.write ⟨.xlatResp, h, 0⟩ (respWord st r poll true)

/-- XLAT_INVALIDATE (R292). -/
def execXlatInvalidate (v : BitVec 32) (s : State) : Host.Outcome State Fault Refusal := s.write ⟨.xlatInvCtl, 0, 0⟩ (v.zeroExtend 64)

/-- STALL_BIND_WRITE (R309). -/
def execStallBindWrite (st : Fin 1024) (v : BitVec 32) (s : State) : Host.Outcome State Fault Refusal :=
  s.write ⟨.stallBind, st, 0⟩ (v.zeroExtend 64)

/-- STALL_SHARE_WRITE (R314). -/
def execStallShareWrite (st : Fin 1024) (v : BitVec 64) (s : State) : Host.Outcome State Fault Refusal :=
  s.write ⟨.stallShare, st, 0⟩ v

/-! ### Mailboxes -/

/-- MAILBOX_SEND (R315). -/
def execMailboxSend (st : Fin 1024) (len : BitVec 7) (s : State) : Host.Outcome State Fault Refusal :=
  s.pokeStall st ⟨.mbCtl, st, 0⟩ 0xFF (BitVec.ofNat 64 (2 * len.toNat + 1))

/-- MAILBOX_MGR_ACK (R315). -/
def execMailboxMgrAck (st : Fin 1024) (s : State) : Host.Outcome State Fault Refusal := s.poke ⟨.mbMgrCtl, st, 0⟩ 0x400 0x400

/-- MAILBOX_MGR_SEND (R316). -/
def execMailboxMgrSend (st : Fin 1024) (len : BitVec 7) (s : State) : Host.Outcome State Fault Refusal :=
  s.poke ⟨.mbMgrCtl, st, 0⟩ 0xFF (BitVec.ofNat 64 (2 * len.toNat + 1))

/-- MAILBOX_ACK (R316). -/
def execMailboxAck (st : Fin 1024) (s : State) : Host.Outcome State Fault Refusal := s.pokeStall st ⟨.mbCtl, st, 0⟩ 0x400 0x400

/-- MAILBOX_CLEAR (R317). -/
def execMailboxClear (st : Fin 1024) (s : State) : Host.Outcome State Fault Refusal := s.poke ⟨.mbMgrCtl, st, 0⟩ 0x80000 0x80000

/-! ### Ledger -/

/-- LEDGER_FLUSH (R328). -/
def execLedgerFlush (c : Fin 256) (s : State) : Host.Outcome State Fault Refusal := s.write ⟨.ledgerCmd, c, 0⟩ 1

/-- LEDGER_SWAP (R329). -/
def execLedgerSwap (c : Fin 256) (s : State) : Host.Outcome State Fault Refusal := s.write ⟨.ledgerCmd, c, 0⟩ 2

/-- LEDGER_FAULT_CLEAR (R331). -/
def execLedgerFaultClear (c : Fin 256) (s : State) : Host.Outcome State Fault Refusal := s.write ⟨.ledgerCmd, c, 0⟩ 0x20

/-- LEDGER_ENABLE (R332): a write of LEDGER_CTX with EN set. -/
def execLedgerEnable (c : Fin 256) (v : BitVec 64) (s : State) : Host.Outcome State Fault Refusal := s.write ⟨.ledgerCtx, c, 0⟩ (v ||| 1)

/-- LEDGER_TEARDOWN (R332): EN cleared. -/
def execLedgerTeardown (c : Fin 256) (s : State) : Host.Outcome State Fault Refusal := s.poke ⟨.ledgerCtx, c, 0⟩ 1 0

/-! ### Errors, clocks, domains -/

/-- INJECT_PARITY (R350). -/
def execInjectParity (b : Fin 88) (off : BitVec 26) (s : State) : Host.Outcome State Fault Refusal :=
  s.write ⟨.errInject, b, 0⟩ (BitVec.ofNat 64 (64 * (off.toNat / 4) + 1))

/-- INJECT_MEM_CORR (R350). -/
def execInjectMemCorr (b : Fin 88) (s : State) : Host.Outcome State Fault Refusal := s.write ⟨.errInject, b, 0⟩ 2

/-- INJECT_MEM_UNCORR (R350). -/
def execInjectMemUncorr (b : Fin 88) (s : State) : Host.Outcome State Fault Refusal := s.write ⟨.errInject, b, 0⟩ 4

/-- INJECT_SAFE (R350). -/
def execInjectSafe (b : Fin 88) (s : State) : Host.Outcome State Fault Refusal := s.write ⟨.errInject, b, 0⟩ 8

/-- DROOP_CTL_WRITE (R372). -/
def execDroopCtlWrite (h : Fin 2) (v : BitVec 32) (s : State) : Host.Outcome State Fault Refusal :=
  s.write ⟨.droopCtl, h, 0⟩ (v.zeroExtend 64)

/-- DOMAIN_POWER_ON (R378). -/
def execDomainPowerOn (d : Fin 208) (s : State) : Host.Outcome State Fault Refusal := s.poke ⟨.domainCtl, d, 0⟩ 1 1

/-- DOMAIN_POWER_OFF (R378). -/
def execDomainPowerOff (d : Fin 208) (s : State) : Host.Outcome State Fault Refusal := s.poke ⟨.domainCtl, d, 0⟩ 1 0

/-- DOMAIN_CLOCK_STOP (R376). -/
def execDomainClockStop (d : Fin 208) (s : State) : Host.Outcome State Fault Refusal := s.poke ⟨.domainCtl, d, 0⟩ 2 0

/-- DOMAIN_CLOCK_START (R376). -/
def execDomainClockStart (d : Fin 208) (s : State) : Host.Outcome State Fault Refusal := s.poke ⟨.domainCtl, d, 0⟩ 2 2

/-! ### Resets, event queue, tally, time -/

/-- SOFT_RESET (R388). -/
def execSoftReset (s : State) : Host.Outcome State Fault Refusal := s.poke ⟨.resetCtl, 0, 0⟩ 1 1

/-- BLOCK_RESET (R389). -/
def execBlockReset (b : Fin 128) (s : State) : Host.Outcome State Fault Refusal :=
  s.write ⟨.resetCtl, 0, 0⟩ (BitVec.ofNat 64 (2 * b + 0x100))

/-- DROP_REST (R415). -/
def execDropRest (s : State) : Host.Outcome State Fault Refusal := s.write ⟨.evqCmd, 0, 0⟩ 1

/-- EVQ_FLUSH (R415). -/
def execEvqFlush (s : State) : Host.Outcome State Fault Refusal := s.write ⟨.evqCmd, 0, 0⟩ 2

/-- SNAPSHOT (R417). -/
def execSnapshot (s : State) : Host.Outcome State Fault Refusal := s.poke ⟨.tallyCtl, 0, 0⟩ 4 4

/-- RELEASE (R417). -/
def execRelease (s : State) : Host.Outcome State Fault Refusal := s.poke ⟨.tallyCtl, 0, 0⟩ 8 8

/-- TALLY_NOW (R418). -/
def execTallyNow (s : State) : Host.Outcome State Fault Refusal := s.poke ⟨.tallyCtl, 0, 0⟩ 2 2

/-- TIME_SET (R421). -/
def execTimeSet (v : BitVec 64) (s : State) : Host.Outcome State Fault Refusal := s.write ⟨.timeSetReg, 0, 0⟩ v

/-- TIME_SOURCE_CHANGE (R422): a write of TIME_CTL. -/
def execTimeSourceChange (v : BitVec 32) (s : State) : Host.Outcome State Fault Refusal :=
  s.write ⟨.timeCtl, 0, 0⟩ (v.zeroExtend 64)

end Sys2Proof.Machine
end

