-- ==== Sys2Proof/Machine/Dispatch.lean ====
section
/-! DEFINITION. The effect of every command on everything but the queue: one arm per row of the opcode table. -/

namespace Sys2Proof.Machine

/-- The effect of command `i` on the device. -/
def exec (i : Instr) (s : State) : Host.Outcome State Fault Refusal :=
  match i with
  | .registerWrite bar off wide v => Sys2Proof.Machine.execRegisterWrite bar off wide v s
  | .misalignedRegisterAccess bar off bytes write => Sys2Proof.Machine.execMisalignedRegisterAccess bar off bytes write s
  | .stalledAccessComplete slot => Sys2Proof.Machine.execStalledAccessComplete slot s
  | .tlpIngress p t shared rx => Sys2Proof.Machine.execTlpIngress p t shared rx s
  | .porterRequestIngress n => Sys2Proof.Machine.execPorterRequestIngress n s
  | .fabricTlpArrival p seq pos good nth t => Sys2Proof.Machine.execFabricTlpArrival p seq pos good nth t s
  | .arbitrationDecision h o chunksReady => Sys2Proof.Machine.execArbitrationDecision h o chunksReady s
  | .debugPortAccess t write v busy inFlight => Sys2Proof.Machine.execDebugPortAccess t write v busy inFlight s
  | .egressSchedule e => Sys2Proof.Machine.execEgressSchedule e s
  | .dlDown p => Sys2Proof.Machine.execDlDown p s
  | .purgeDone p => Sys2Proof.Machine.execPurgeDone p s
  | .blockLockLost r m => Sys2Proof.Machine.execBlockLockLost r m s
  | .eqPartnerRequest r m cM2 cM1 c0 cP1 precode => Sys2Proof.Machine.execEqPartnerRequest r m cM2 cM1 c0 cP1 precode s
  | .eqEvaluationDone r m fom rejected => Sys2Proof.Machine.execEqEvaluationDone r m fom rejected s
  | .rowSplitWrite r v => Sys2Proof.Machine.execRowSplitWrite r v s
  | .spareOfferSend r => Sys2Proof.Machine.execSpareOfferSend r s
  | .spareOffer r magic cap => Sys2Proof.Machine.execSpareOffer r magic cap s
  | .spareAccept r magic cap => Sys2Proof.Machine.execSpareAccept r magic cap s
  | .spareNegotiationTimeout r => Sys2Proof.Machine.execSpareNegotiationTimeout r s
  | .spareReady r => Sys2Proof.Machine.execSpareReady r s
  | .spareUnfit r => Sys2Proof.Machine.execSpareUnfit r s
  | .condemnationWindow r e => Sys2Proof.Machine.execCondemnationWindow r e s
  | .laneLockLoss r m => Sys2Proof.Machine.execLaneLockLoss r m s
  | .spareReq r lane flit => Sys2Proof.Machine.execSpareReq r lane flit s
  | .spareAck r lane seq => Sys2Proof.Machine.execSpareAck r lane seq s
  | .spareNak r lane => Sys2Proof.Machine.execSpareNak r lane s
  | .spareSubstitution r => Sys2Proof.Machine.execSpareSubstitution r s
  | .rowSpareForce r lane => Sys2Proof.Machine.execRowSpareForce r lane s
  | .lanePrbsCtlWrite r m v => Sys2Proof.Machine.execLanePrbsCtlWrite r m v s
  | .prbsClear r m => Sys2Proof.Machine.execPrbsClear r m s
  | .prbsLock r m => Sys2Proof.Machine.execPrbsLock r m s
  | .prbsLockLoss r m errs => Sys2Proof.Machine.execPrbsLockLoss r m errs s
  | .prbsInjOne r m => Sys2Proof.Machine.execPrbsInjOne r m s
  | .prbsPeriodicInject r m => Sys2Proof.Machine.execPrbsPeriodicInject r m s
  | .portEnable p v => Sys2Proof.Machine.execPortEnable p v s
  | .portDisable p v => Sys2Proof.Machine.execPortDisable p v s
  | .partCtlWrite q v => Sys2Proof.Machine.execPartCtlWrite q v s
  | .partitionReset q => Sys2Proof.Machine.execPartitionReset q s
  | .uspHotReset p => Sys2Proof.Machine.execUspHotReset p s
  | .secondaryBusReset q f set => Sys2Proof.Machine.execSecondaryBusReset q f set s
  | .svcCtlWrite v => Sys2Proof.Machine.execSvcCtlWrite v s
  | .l0sEntry p => Sys2Proof.Machine.execL0sEntry p s
  | .aspmL1Request p => Sys2Proof.Machine.execAspmL1Request p s
  | .l1RequestReceived p pm => Sys2Proof.Machine.execL1RequestReceived p pm s
  | .l0pNarrow p => Sys2Proof.Machine.execL0pNarrow p s
  | .l0pWiden p => Sys2Proof.Machine.execL0pWiden p s
  | .signboardFrame h din => Sys2Proof.Machine.execSignboardFrame h din s
  | .chainFault h => Sys2Proof.Machine.execChainFault h s
  | .presenceChange p present => Sys2Proof.Machine.execPresenceChange p present s
  | .attentionButtonPressed p => Sys2Proof.Machine.execAttentionButtonPressed p s
  | .mrlSensorChange p isOpen => Sys2Proof.Machine.execMrlSensorChange p isOpen s
  | .pwrfltChange p fault => Sys2Proof.Machine.execPwrfltChange p fault s
  | .sbCtlWrite h v => Sys2Proof.Machine.execSbCtlWrite h v s
  | .powerControllerOn p => Sys2Proof.Machine.execPowerControllerOn p s
  | .powerControllerOff p => Sys2Proof.Machine.execPowerControllerOff p s
  | .indicatorControl p power attn => Sys2Proof.Machine.execIndicatorControl p power attn s
  | .slotCfgWrite p v => Sys2Proof.Machine.execSlotCfgWrite p v s
  | .coolingExpired p => Sys2Proof.Machine.execCoolingExpired p s
  | .presenceDebounceDone p present => Sys2Proof.Machine.execPresenceDebounceDone p present s
  | .slotPowerValid p => Sys2Proof.Machine.execSlotPowerValid p s
  | .perstRelease p => Sys2Proof.Machine.execPerstRelease p s
  | .powerOffDone p => Sys2Proof.Machine.execPowerOffDone p s
  | .dpcTrigger p c => Sys2Proof.Machine.execDpcTrigger p c s
  | .dpcRelease p => Sys2Proof.Machine.execDpcRelease p s
  | .hostBridgeWrite q f off be v => Sys2Proof.Machine.execHostBridgeWrite q f off be v s
  | .bridgeWriteComplete q => Sys2Proof.Machine.execBridgeWriteComplete q s
  | .winCommit => Sys2Proof.Machine.execWinCommit s
  | .heldCommitApply => Sys2Proof.Machine.execHeldCommitApply s
  | .commitCopyDone => Sys2Proof.Machine.execCommitCopyDone s
  | .hashSeedWrite v => Sys2Proof.Machine.execHashSeedWrite v s
  | .bucketPathWrite b path => Sys2Proof.Machine.execBucketPathWrite b path s
  | .bucketRepin b => Sys2Proof.Machine.execBucketRepin b s
  | .pitchFence c => Sys2Proof.Machine.execPitchFence c s
  | .fenceDone c => Sys2Proof.Machine.execFenceDone c s
  | .scrubRow b upset => Sys2Proof.Machine.execScrubRow b upset s
  | .linkMemorySweepDone e q pos single badState => Sys2Proof.Machine.execLinkMemorySweepDone e q pos single badState s
  | .retireWindow b => Sys2Proof.Machine.execRetireWindow b s
  | .bankRetireCommand b => Sys2Proof.Machine.execBankRetireCommand b s
  | .bankRetired b => Sys2Proof.Machine.execBankRetired b s
  | .reservationCovered g => Sys2Proof.Machine.execReservationCovered g s
  | .groupCtlWrite g v => Sys2Proof.Machine.execGroupCtlWrite g v s
  | .escapeMove p q => Sys2Proof.Machine.execEscapeMove p q s
  | .wipeAll => Sys2Proof.Machine.execWipeAll s
  | .floorWiped => Sys2Proof.Machine.execFloorWiped s
  | .tokenRefill => Sys2Proof.Machine.execTokenRefill s
  | .gateChange p => Sys2Proof.Machine.execGateChange p s
  | .gateEnable p => Sys2Proof.Machine.execGateEnable p s
  | .gateSwitch p => Sys2Proof.Machine.execGateSwitch p s
  | .gateSwitchTakeover p => Sys2Proof.Machine.execGateSwitchTakeover p s
  | .gateStuck p q => Sys2Proof.Machine.execGateStuck p q s
  | .schedulerParameterWrite p r v => Sys2Proof.Machine.execSchedulerParameterWrite p r v s
  | .pendingParametersApply p => Sys2Proof.Machine.execPendingParametersApply p s
  | .hallEnable v => Sys2Proof.Machine.execHallEnable v s
  | .hallDisable v => Sys2Proof.Machine.execHallDisable v s
  | .masterClaimTimeout => Sys2Proof.Machine.execMasterClaimTimeout s
  | .masterClaim m => Sys2Proof.Machine.execMasterClaim m s
  | .claimAck m recEpoch recorded applied held => Sys2Proof.Machine.execClaimAck m recEpoch recorded applied held s
  | .claimCollectionDone => Sys2Proof.Machine.execClaimCollectionDone s
  | .heartbeatSend => Sys2Proof.Machine.execHeartbeatSend s
  | .heartbeat m members => Sys2Proof.Machine.execHeartbeat m members s
  | .nerupLinkTrained p rate width flit proto => Sys2Proof.Machine.execNerupLinkTrained p rate width flit proto s
  | .hello m peerPort reset current => Sys2Proof.Machine.execHello m peerPort reset current s
  | .nerupInitFlit p vc kind crd => Sys2Proof.Machine.execNerupInitFlit p vc kind crd s
  | .nerupFlitAck p ack vc kind crd => Sys2Proof.Machine.execNerupFlitAck p ack vc kind crd s
  | .nerupNak p ack vc kind crd => Sys2Proof.Machine.execNerupNak p ack vc kind crd s
  | .replayTimeout p => Sys2Proof.Machine.execReplayTimeout p s
  | .recoveryLimitExpired p => Sys2Proof.Machine.execRecoveryLimitExpired p s
  | .flitSilenceExpired p => Sys2Proof.Machine.execFlitSilenceExpired p s
  | .failoverQuery m p peerPort => Sys2Proof.Machine.execFailoverQuery m p peerPort s
  | .failoverReply m p seq => Sys2Proof.Machine.execFailoverReply m p seq s
  | .failoverWaitExpired p => Sys2Proof.Machine.execFailoverWaitExpired p s
  | .controlMessageRelay p seq good m => Sys2Proof.Machine.execControlMessageRelay p seq good m s
  | .linkState m port st peer peerPort => Sys2Proof.Machine.execLinkState m port st peer peerPort s
  | .edit m hallPart f off be v => Sys2Proof.Machine.execEdit m hallPart f off be v s
  | .editDone m => Sys2Proof.Machine.execEditDone m s
  | .routePush m table off data => Sys2Proof.Machine.execRoutePush m table off data s
  | .stage m segments crc => Sys2Proof.Machine.execStage m segments crc s
  | .stageAck m crc => Sys2Proof.Machine.execStageAck m crc s
  | .prepare m => Sys2Proof.Machine.execPrepare m s
  | .prepareAck m code => Sys2Proof.Machine.execPrepareAck m code s
  | .hallCommit m => Sys2Proof.Machine.execHallCommit m s
  | .hallCommitAck m => Sys2Proof.Machine.execHallCommitAck m s
  | .hallApply m => Sys2Proof.Machine.execHallApply m s
  | .hallApplyAck m => Sys2Proof.Machine.execHallApplyAck m s
  | .hallAbort m => Sys2Proof.Machine.execHallAbort m s
  | .hallAbortAck m => Sys2Proof.Machine.execHallAbortAck m s
  | .phaseTimeout => Sys2Proof.Machine.execPhaseTimeout s
  | .tableReq m => Sys2Proof.Machine.execTableReq m s
  | .lockReq m domain port => Sys2Proof.Machine.execLockReq m domain port s
  | .lockArbitration => Sys2Proof.Machine.execLockArbitration s
  | .lockGrant m domain port => Sys2Proof.Machine.execLockGrant m domain port s
  | .lockBusy m domain port => Sys2Proof.Machine.execLockBusy m domain port s
  | .lockRetry p => Sys2Proof.Machine.execLockRetry p s
  | .lockRelease m domain port => Sys2Proof.Machine.execLockRelease m domain port s
  | .twinCheckSend p => Sys2Proof.Machine.execTwinCheckSend p s
  | .twinCheck m crc => Sys2Proof.Machine.execTwinCheck m crc s
  | .gapWaitExpired src b => Sys2Proof.Machine.execGapWaitExpired src b s
  | .streamReset m who => Sys2Proof.Machine.execStreamReset m who s
  | .streamResetAck m who => Sys2Proof.Machine.execStreamResetAck m who s
  | .streamResetTimeout => Sys2Proof.Machine.execStreamResetTimeout s
  | .sealWrite k v => Sys2Proof.Machine.execSealWrite k v s
  | .doorbellPoll n st => Sys2Proof.Machine.execDoorbellPoll n st s
  | .pollComplete n st ok pis => Sys2Proof.Machine.execPollComplete n st ok pis s
  | .preemptionDone n => Sys2Proof.Machine.execPreemptionDone n s
  | .descriptorFetch n => Sys2Proof.Machine.execDescriptorFetch n s
  | .descriptorReadComplete n ok slots => Sys2Proof.Machine.execDescriptorReadComplete n ok slots s
  | .porterCopy n => Sys2Proof.Machine.execPorterCopy n s
  | .porterFill n => Sys2Proof.Machine.execPorterFill n s
  | .porterInline n => Sys2Proof.Machine.execPorterInline n s
  | .porterFence n => Sys2Proof.Machine.execPorterFence n s
  | .porterNotify n => Sys2Proof.Machine.execPorterNotify n s
  | .ledgerSync n => Sys2Proof.Machine.execLedgerSync n s
  | .badOpcode n => Sys2Proof.Machine.execBadOpcode n s
  | .dataReadIssue n => Sys2Proof.Machine.execDataReadIssue n s
  | .porterCompletion n t => Sys2Proof.Machine.execPorterCompletion n t s
  | .completionTimeout n slot => Sys2Proof.Machine.execCompletionTimeout n slot s
  | .quarantineEnd n slot => Sys2Proof.Machine.execQuarantineEnd n slot s
  | .flushReadComplete n slot ok => Sys2Proof.Machine.execFlushReadComplete n slot ok s
  | .completionRecord n => Sys2Proof.Machine.execCompletionRecord n s
  | .ringResume st r => Sys2Proof.Machine.execRingResume st r s
  | .ringEnable st r => Sys2Proof.Machine.execRingEnable st r s
  | .ringDisable st r => Sys2Proof.Machine.execRingDisable st r s
  | .ringStopped st r => Sys2Proof.Machine.execRingStopped st r s
  | .stallXlatWrite st v => Sys2Proof.Machine.execStallXlatWrite st v s
  | .walkReadComplete h w ok entry => Sys2Proof.Machine.execWalkReadComplete h w ok entry s
  | .atsCompletion h w ok r wr u addr sizeLog2 => Sys2Proof.Machine.execAtsCompletion h w ok r wr u addr sizeLog2 s
  | .prgResponse st prg c => Sys2Proof.Machine.execPrgResponse st prg c s
  | .faultRecordWrite h => Sys2Proof.Machine.execFaultRecordWrite h s
  | .fqCiWrite h v => Sys2Proof.Machine.execFqCiWrite h v s
  | .fqBaseWrite h v => Sys2Proof.Machine.execFqBaseWrite h v s
  | .faultResume h st r poll => Sys2Proof.Machine.execFaultResume h st r poll s
  | .faultAbort h st r poll => Sys2Proof.Machine.execFaultAbort h st r poll s
  | .faultWaitExpired h st r poll => Sys2Proof.Machine.execFaultWaitExpired h st r poll s
  | .xlatInvalidate v => Sys2Proof.Machine.execXlatInvalidate v s
  | .invalidationDone => Sys2Proof.Machine.execInvalidationDone s
  | .atsInvalidationRequest st itag pasid addr sizeLog2 => Sys2Proof.Machine.execAtsInvalidationRequest st itag pasid addr sizeLog2 s
  | .stallBindWrite st v => Sys2Proof.Machine.execStallBindWrite st v s
  | .stallTurnEnd n => Sys2Proof.Machine.execStallTurnEnd n s
  | .stallShareWrite st v => Sys2Proof.Machine.execStallShareWrite st v s
  | .mailboxSend st len => Sys2Proof.Machine.execMailboxSend st len s
  | .mailboxMgrAck st => Sys2Proof.Machine.execMailboxMgrAck st s
  | .mailboxMgrSend st len => Sys2Proof.Machine.execMailboxMgrSend st len s
  | .mailboxAck st => Sys2Proof.Machine.execMailboxAck st s
  | .mailboxClear st => Sys2Proof.Machine.execMailboxClear st s
  | .stallBusMasterClear st => Sys2Proof.Machine.execStallBusMasterClear st s
  | .stallFlr st => Sys2Proof.Machine.execStallFlr st s
  | .vfDisable vfEnable numVfs => Sys2Proof.Machine.execVfDisable vfEnable numVfs s
  | .porterPfFlr => Sys2Proof.Machine.execPorterPfFlr s
  | .flrComplete st => Sys2Proof.Machine.execFlrComplete st s
  | .ledgerFold h => Sys2Proof.Machine.execLedgerFold h s
  | .ledgerFoldReadComplete h ok data writeOk => Sys2Proof.Machine.execLedgerFoldReadComplete h ok data writeOk s
  | .ledgerPeriodicFlush c => Sys2Proof.Machine.execLedgerPeriodicFlush c s
  | .ledgerFlush c => Sys2Proof.Machine.execLedgerFlush c s
  | .ledgerFlushDone c => Sys2Proof.Machine.execLedgerFlushDone c s
  | .ledgerSwap c => Sys2Proof.Machine.execLedgerSwap c s
  | .ledgerFaultClear c => Sys2Proof.Machine.execLedgerFaultClear c s
  | .ledgerEnable c v => Sys2Proof.Machine.execLedgerEnable c v s
  | .ledgerTeardown c => Sys2Proof.Machine.execLedgerTeardown c s
  | .paritySweep b upset double => Sys2Proof.Machine.execParitySweep b upset double s
  | .injectParity b off => Sys2Proof.Machine.execInjectParity b off s
  | .injectMemCorr b => Sys2Proof.Machine.execInjectMemCorr b s
  | .injectMemUncorr b => Sys2Proof.Machine.execInjectMemUncorr b s
  | .injectSafe b => Sys2Proof.Machine.execInjectSafe b s
  | .testModeDeassert => Sys2Proof.Machine.execTestModeDeassert s
  | .thermalConversion h temp => Sys2Proof.Machine.execThermalConversion h temp s
  | .pendingMsixSend e bme => Sys2Proof.Machine.execPendingMsixSend e bme s
  | .slotPowerTick n vsense vin vout => Sys2Proof.Machine.execSlotPowerTick n vsense vin vout s
  | .breaker n => Sys2Proof.Machine.execBreaker n s
  | .fastTrip n => Sys2Proof.Machine.execFastTrip n s
  | .fetHighRds n => Sys2Proof.Machine.execFetHighRds n s
  | .vinUv n => Sys2Proof.Machine.execVinUv n s
  | .dischargeEnd n => Sys2Proof.Machine.execDischargeEnd n s
  | .fetShort n => Sys2Proof.Machine.execFetShort n s
  | .restartHoldoffEnd n => Sys2Proof.Machine.execRestartHoldoffEnd n s
  | .spcCfgWrite n v => Sys2Proof.Machine.execSpcCfgWrite n v s
  | .refclkLoss h => Sys2Proof.Machine.execRefclkLoss h s
  | .refclkReturn h => Sys2Proof.Machine.execRefclkReturn h s
  | .pllLock h => Sys2Proof.Machine.execPllLock h s
  | .droopSag h n level2 => Sys2Proof.Machine.execDroopSag h n level2 s
  | .droopRecoveryStep h => Sys2Proof.Machine.execDroopRecoveryStep h s
  | .droopCtlWrite h v => Sys2Proof.Machine.execDroopCtlWrite h v s
  | .domainPowerOn d => Sys2Proof.Machine.execDomainPowerOn d s
  | .domainRampStart d => Sys2Proof.Machine.execDomainRampStart d s
  | .domainWakeDone d => Sys2Proof.Machine.execDomainWakeDone d s
  | .domainPowerOff d => Sys2Proof.Machine.execDomainPowerOff d s
  | .domainOffDone d => Sys2Proof.Machine.execDomainOffDone d s
  | .domainClockStop d => Sys2Proof.Machine.execDomainClockStop d s
  | .domainClockStart d => Sys2Proof.Machine.execDomainClockStart d s
  | .perstInAssert t => Sys2Proof.Machine.execPerstInAssert t s
  | .perstInRelease st => Sys2Proof.Machine.execPerstInRelease st s
  | .supplyFault vddIo => Sys2Proof.Machine.execSupplyFault vddIo s
  | .fuseShadowLoaded h ok => Sys2Proof.Machine.execFuseShadowLoaded h ok s
  | .halfClaim answered => Sys2Proof.Machine.execHalfClaim answered s
  | .standoffVote sentW sentE answered => Sys2Proof.Machine.execStandoffVote sentW sentE answered s
  | .halfHeartbeat => Sys2Proof.Machine.execHalfHeartbeat s
  | .halfHeartbeatLoss disputed => Sys2Proof.Machine.execHalfHeartbeatLoss disputed s
  | .softReset => Sys2Proof.Machine.execSoftReset s
  | .blockReset b => Sys2Proof.Machine.execBlockReset b s
  | .blockResetDone => Sys2Proof.Machine.execBlockResetDone s
  | .wipeDone => Sys2Proof.Machine.execWipeDone s
  | .bootImageChecked a b => Sys2Proof.Machine.execBootImageChecked a b s
  | .write32 => Sys2Proof.Machine.execWrite32 s
  | .write64 => Sys2Proof.Machine.execWrite64 s
  | .poll32 => Sys2Proof.Machine.execPoll32 s
  | .poll32Timeout => Sys2Proof.Machine.execPoll32Timeout s
  | .delay => Sys2Proof.Machine.execDelay s
  | .delayExpired => Sys2Proof.Machine.execDelayExpired s
  | .endRecord => Sys2Proof.Machine.execEndRecord s
  | .badRecord => Sys2Proof.Machine.execBadRecord s
  | .lcArm d target => Sys2Proof.Machine.execLcArm d target s
  | .lcArmExpired => Sys2Proof.Machine.execLcArmExpired s
  | .lcGo d target => Sys2Proof.Machine.execLcGo d target s
  | .fuseBurnDone => Sys2Proof.Machine.execFuseBurnDone s
  | .i3cDynamicAddress entdaa adr a => Sys2Proof.Machine.execI3cDynamicAddress entdaa adr a s
  | .i3cPrivateWrite adr ptr data => Sys2Proof.Machine.execI3cPrivateWrite adr ptr data s
  | .i3cPrivateRead adr n => Sys2Proof.Machine.execI3cPrivateRead adr n s
  | .evqDataRead => Sys2Proof.Machine.execEvqDataRead s
  | .dropRest => Sys2Proof.Machine.execDropRest s
  | .evqFlush => Sys2Proof.Machine.execEvqFlush s
  | .windowGo write wide => Sys2Proof.Machine.execWindowGo write wide s
  | .windowAccessDone => Sys2Proof.Machine.execWindowAccessDone s
  | .imageStart => Sys2Proof.Machine.execImageStart s
  | .imageWindowOpen => Sys2Proof.Machine.execImageWindowOpen s
  | .imageData data => Sys2Proof.Machine.execImageData data s
  | .imageEnd => Sys2Proof.Machine.execImageEnd s
  | .snapshot => Sys2Proof.Machine.execSnapshot s
  | .release => Sys2Proof.Machine.execRelease s
  | .tallyNow => Sys2Proof.Machine.execTallyNow s
  | .tallyPass => Sys2Proof.Machine.execTallyPass s
  | .timeSet v => Sys2Proof.Machine.execTimeSet v s
  | .timeAlign => Sys2Proof.Machine.execTimeAlign s
  | .timeSourceChange v => Sys2Proof.Machine.execTimeSourceChange v s
  | .ppsEdge => Sys2Proof.Machine.execPpsEdge s
  | .ppsLost => Sys2Proof.Machine.execPpsLost s
  | .ppsOutPulse rise => Sys2Proof.Machine.execPpsOutPulse rise s
  | .ptmDialog => Sys2Proof.Machine.execPtmDialog s
  | .ptmDialogComplete master delay => Sys2Proof.Machine.execPtmDialogComplete master delay s
  | .ptmFail => Sys2Proof.Machine.execPtmFail s
  | .ptmRequest p => Sys2Proof.Machine.execPtmRequest p s
  | .dlUp p width rate flit credits => Sys2Proof.Machine.execDlUp p width rate flit credits s
  | .recoveryEntry p rate => Sys2Proof.Machine.execRecoveryEntry p rate s
  | .updateFc p kind n => Sys2Proof.Machine.execUpdateFc p kind n s
  | .ackDllp p nak seq good => Sys2Proof.Machine.execAckDllp p nak seq good s
  | .replayTimerTimeout p => Sys2Proof.Machine.execReplayTimerTimeout p s
  | .marginingCommand r m c errs => Sys2Proof.Machine.execMarginingCommand r m c errs s
  | .l0pPartnerRequest p width => Sys2Proof.Machine.execL0pPartnerRequest p width s
  | .droopSagClear h n level2only => Sys2Proof.Machine.execDroopSagClear h n level2only s
  | .supplyValid => Sys2Proof.Machine.execSupplyValid s
  | .mgmtPfCompletionTimeout w => Sys2Proof.Machine.execMgmtPfCompletionTimeout w s
  | .tallyListReadComplete ok list pageOk => Sys2Proof.Machine.execTallyListReadComplete ok list pageOk s

end Sys2Proof.Machine
end

