-- ==== Sys2Proof/Machine/OwnReqs.lean ====
section
/-! DEFINITION. The interrupt and error messages that functions of the device form (R17, R23, R221, R343, R404): bound in a lookup cycle and
stored like any TLP, while the device idles. -/

namespace Sys2Proof.Machine

/-- The TLP of a function's message, with the Requester ID of the function that forms it: the memory write of an interrupt, or an error message
routed to the Root Complex. -/
def Dev.ownTlp (s : Dev) (r : OwnReq) : Tlp :=
  let id := if r.ingress = 1023 then s.mgmtRid else if 512 ≤ r.ingress then s.porterRid
    else s.dspId (s.partOf r.ingress) (s.f F.PORT_CTL_VNUM r.ingress)
  match r.code with
  | none => { mgmtWrite r.addr.toNat (leBytes r.data.toNat 4) with reqId := id }
  | some c => { kind := .msg, msgCode := c, reqId := id }

/-- A function's message in its lookup cycle (R23): bound with its function's checker and TC 0 (R221), it is stored in the Floor; refused, it is
counted. It waits while the Aisle has no credit (R12) and while no cell is free that is neither reserved nor pledged (R145). -/
def Dev.bindOwn (s : Dev) (r : OwnReq) : Except Fault Dev := do
  let t := s.ownTlp r
  let (s1, d, _) ← ({ s with bindCount := s.bindCount + 1 } : Dev).lookup r.ingress (s.partOf r.ingress) t false true true
  let st : Stored := { id := s.bindCount, d := d, tlp := t, ingress := r.ingress, pool := 4, creditKind := 2
                       inGen := if r.ingress < 512 then s.f F.PORT_STATUS_GEN r.ingress else 0 }
  if d.action ≠ 0 then return s1
  else if !s1.copyFits st || s1.copyWaits st then return { s with own := s.own ++ [r] }
  else return ({ s with own := s.own ++ [r] } : Dev).ifAisle (s1.place st)

/-- Functions' messages bound in the order in which they were formed. -/
def Dev.bindOwns : List OwnReq → Dev → Except Fault Dev
  | [], s => .ok s
  | r :: t, s => do Dev.bindOwns t (← s.bindOwn r)

/-- Bound requests of the management PF that wait for cells or for the Aisle go on in order, as far as they can (R12, R145). -/
def Dev.mgmtGoes (s : Dev) : List Stored → Dev
  | [] => s
  | st :: t =>
    if s.mgmtFits st then ({ s with mgmtQ := t }.place st).mgmtGoes t else s

/-- What the device does of itself while no command waits (DESIGN CHOICE, log 2): one edge of TCLK, and the lookup cycles of the
messages that its functions have formed. -/
def Dev.idle (s : Dev) : Except Fault Dev :=
  let s0 := s.timeEdge
  let s1 := s0.mgmtGoes s0.mgmtQ
  Dev.bindOwns s1.own { s1 with own := [] }

end Sys2Proof.Machine
end

