-- ==== Sys2Proof/Machine/Step.lean ====
section
/-! DEFINITION. One step of the device: the command at the front of the queue, or what the device does of itself. -/

namespace Sys2Proof.Machine

/-- One step. With a command in front, its effect on the device with the rest of the queue. With none, one edge of
TCLK: device time moves on by TIME_INCR (R421, log 2), and interrupt messages that were formed enter the core. -/
def step (s : State) : Host.Outcome State Fault Refusal :=
  match s.pending with
  | c :: rest => exec c { s with pending := rest }
  | [] => s.doneOr s.dev.idle

/-- The state with the command that a word spells put at the front of its queue. -/
def State.withFetchWord (s : State) (nbits w : Nat) : State :=
  match decodeTableWord nbits w with
  | some c => { s with pending := c :: s.pending }
  | none => s

end Sys2Proof.Machine
end

