-- ==== Sys2Proof/WellFormed.lean ====
section
/-! DEFINITION. Which commands are well formed: the checks on operands that their types leave open. -/

namespace Sys2Proof

/-- A TLP that a link can carry (R141): at most 4,096 bytes of payload in whole dwords and at most 96 bytes beside it; the header bytes are
given whole or not at all. -/
def Tlp.wf (t : Tlp) : Bool :=
  decide (t.payload.length % 4 = 0 ∧ t.payload.length ≤ 4096) && decide (t.len ≤ 4096)
    && decide (12 ≤ t.hdr ∧ t.hdr + t.trailer.length ≤ 96) && decide (t.head = [] ∨ t.head.length = t.hdr)

/-- A debug port access to a register is naturally aligned (R9). -/
def DbgTarget.wf : DbgTarget → Bool
  | .reg off wide => decide (off.toNat % (if wide then 8 else 4) = 0)
  | .chunk _ _ | .pins _ => true

/-- A link width (R40). -/
def linkWidth (w : Fin 17) : Bool := [1, 2, 4, 8, 16].contains w.val

/-- An image copy is at most 16 MiB (R396). -/
def copyWf (c : Option (List Byte)) : Bool := c.all (fun l => decide (l.length ≤ 0x1000000))

/-- The operands of a command are in the ranges that its rule gives. -/
def Instr.wf (i : Instr) : Bool :=
  match i with
  | .registerWrite _ off wide _ => decide (off.toNat % (if wide then 8 else 4) = 0)
  | .misalignedRegisterAccess _ off bytes _ => !((bytes == 4 || bytes == 8) && decide (off.toNat % bytes = 0))
  | .tlpIngress _ t _ _ => t.wf
  | .fabricTlpArrival _ _ _ _ _ t => t.wf
  | .porterCompletion _ t => t.wf
  | .debugPortAccess t _ _ _ _ => t.wf
  | .condemnationWindow _ e => decide (e.fec.length ≤ 17) && decide (e.code.length ≤ 17) && decide (e.prbs.length ≤ 17)
  | .signboardFrame _ din => decide (din.length ≤ 2056)
  | .pollComplete _ _ ok pis => !ok || decide (pis.length = 8)
  | .descriptorReadComplete _ ok slots => !ok || decide (1 ≤ slots.length ∧ slots.length ≤ 8)
  | .routePush _ _ _ data => decide (data.length % 4 = 0 ∧ data.length ≤ 216)
  | .controlMessageRelay _ _ _ m => decide (m.payload.length % 4 = 0 ∧ m.payload.length ≤ 220)
  | .hostBridgeWrite _ _ off _ _ => decide (off.toNat % 4 = 0)
  | .edit _ _ _ off _ _ => decide (off.toNat % 4 = 0)
  | .dlUp _ width _ _ credits => linkWidth width && decide (credits.length = 8)
  | .nerupLinkTrained _ _ width _ _ => linkWidth width
  | .l0pPartnerRequest _ width => linkWidth width
  | .atsInvalidationRequest _ _ _ _ sizeLog2 => decide (12 ≤ sizeLog2 ∧ sizeLog2 ≤ 64)
  | .atsCompletion _ _ _ _ _ _ _ sizeLog2 => decide (12 ≤ sizeLog2 ∧ sizeLog2 ≤ 64)
  | .bootImageChecked a b => copyWf a && copyWf b
  | .tallyListReadComplete _ list _ => decide (list.length ≤ 503)
  | .stalledAccessComplete .. | .porterRequestIngress .. | .arbitrationDecision .. | .egressSchedule .. | .dlDown ..
  | .purgeDone .. | .blockLockLost .. | .eqPartnerRequest .. | .eqEvaluationDone .. | .rowSplitWrite .. | .spareOfferSend ..
  | .spareOffer .. | .spareAccept .. | .spareNegotiationTimeout .. | .spareReady .. | .spareUnfit .. | .laneLockLoss ..
  | .spareReq .. | .spareAck .. | .spareNak .. | .spareSubstitution .. | .rowSpareForce .. | .lanePrbsCtlWrite ..
  | .prbsClear .. | .prbsLock .. | .prbsLockLoss .. | .prbsInjOne .. | .prbsPeriodicInject .. | .portEnable ..
  | .portDisable .. | .partCtlWrite .. | .partitionReset .. | .uspHotReset .. | .secondaryBusReset .. | .svcCtlWrite ..
  | .l0sEntry .. | .aspmL1Request .. | .l1RequestReceived .. | .l0pNarrow .. | .l0pWiden .. | .chainFault ..
  | .presenceChange .. | .attentionButtonPressed .. | .mrlSensorChange .. | .pwrfltChange .. | .sbCtlWrite ..
  | .powerControllerOn .. | .powerControllerOff .. | .indicatorControl .. | .slotCfgWrite .. | .coolingExpired ..
  | .presenceDebounceDone .. | .slotPowerValid .. | .perstRelease .. | .powerOffDone .. | .dpcTrigger .. | .dpcRelease ..
  | .bridgeWriteComplete .. | .winCommit .. | .heldCommitApply .. | .commitCopyDone .. | .hashSeedWrite ..
  | .bucketPathWrite .. | .bucketRepin .. | .pitchFence .. | .fenceDone .. | .scrubRow .. | .linkMemorySweepDone ..
  | .retireWindow .. | .bankRetireCommand .. | .bankRetired .. | .reservationCovered .. | .groupCtlWrite .. | .escapeMove ..
  | .wipeAll .. | .floorWiped .. | .tokenRefill .. | .gateChange .. | .gateEnable .. | .gateSwitch ..
  | .gateSwitchTakeover .. | .gateStuck .. | .schedulerParameterWrite .. | .pendingParametersApply .. | .hallEnable ..
  | .hallDisable .. | .masterClaimTimeout .. | .masterClaim .. | .claimAck .. | .claimCollectionDone .. | .heartbeatSend ..
  | .heartbeat .. | .hello .. | .nerupInitFlit .. | .nerupFlitAck .. | .nerupNak .. | .replayTimeout ..
  | .recoveryLimitExpired .. | .flitSilenceExpired .. | .failoverQuery .. | .failoverReply .. | .failoverWaitExpired ..
  | .linkState .. | .editDone .. | .stage .. | .stageAck .. | .prepare .. | .prepareAck .. | .hallCommit ..
  | .hallCommitAck .. | .hallApply .. | .hallApplyAck .. | .hallAbort .. | .hallAbortAck .. | .phaseTimeout .. | .tableReq ..
  | .lockReq .. | .lockArbitration .. | .lockGrant .. | .lockBusy .. | .lockRetry .. | .lockRelease .. | .twinCheckSend ..
  | .twinCheck .. | .gapWaitExpired .. | .streamReset .. | .streamResetAck .. | .streamResetTimeout .. | .sealWrite ..
  | .doorbellPoll .. | .preemptionDone .. | .descriptorFetch .. | .porterCopy .. | .porterFill .. | .porterInline ..
  | .porterFence .. | .porterNotify .. | .ledgerSync .. | .badOpcode .. | .dataReadIssue .. | .completionTimeout ..
  | .quarantineEnd .. | .flushReadComplete .. | .completionRecord .. | .ringResume .. | .ringEnable .. | .ringDisable ..
  | .ringStopped .. | .stallXlatWrite .. | .walkReadComplete .. | .prgResponse .. | .faultRecordWrite .. | .fqCiWrite ..
  | .fqBaseWrite .. | .faultResume .. | .faultAbort .. | .faultWaitExpired .. | .xlatInvalidate .. | .invalidationDone ..
  | .stallBindWrite .. | .stallTurnEnd .. | .stallShareWrite .. | .mailboxSend .. | .mailboxMgrAck .. | .mailboxMgrSend ..
  | .mailboxAck .. | .mailboxClear .. | .stallBusMasterClear .. | .stallFlr .. | .vfDisable .. | .porterPfFlr ..
  | .flrComplete .. | .ledgerFold .. | .ledgerFoldReadComplete .. | .ledgerPeriodicFlush .. | .ledgerFlush ..
  | .ledgerFlushDone .. | .ledgerSwap .. | .ledgerFaultClear .. | .ledgerEnable .. | .ledgerTeardown .. | .paritySweep ..
  | .injectParity .. | .injectMemCorr .. | .injectMemUncorr .. | .injectSafe .. | .testModeDeassert ..
  | .thermalConversion .. | .pendingMsixSend .. | .slotPowerTick .. | .breaker .. | .fastTrip .. | .fetHighRds .. | .vinUv ..
  | .dischargeEnd .. | .fetShort .. | .restartHoldoffEnd .. | .spcCfgWrite .. | .refclkLoss .. | .refclkReturn ..
  | .pllLock .. | .droopSag .. | .droopRecoveryStep .. | .droopCtlWrite .. | .domainPowerOn .. | .domainRampStart ..
  | .domainWakeDone .. | .domainPowerOff .. | .domainOffDone .. | .domainClockStop .. | .domainClockStart ..
  | .perstInAssert .. | .perstInRelease .. | .supplyFault .. | .fuseShadowLoaded .. | .halfClaim .. | .standoffVote ..
  | .halfHeartbeat .. | .halfHeartbeatLoss .. | .softReset .. | .blockReset .. | .blockResetDone .. | .wipeDone ..
  | .write32 .. | .write64 .. | .poll32 .. | .poll32Timeout .. | .delay .. | .delayExpired .. | .endRecord .. | .badRecord ..
  | .lcArm .. | .lcArmExpired .. | .lcGo .. | .fuseBurnDone .. | .i3cDynamicAddress .. | .i3cPrivateWrite ..
  | .i3cPrivateRead .. | .evqDataRead .. | .dropRest .. | .evqFlush .. | .windowGo .. | .windowAccessDone .. | .imageStart ..
  | .imageWindowOpen .. | .imageData .. | .imageEnd .. | .snapshot .. | .release .. | .tallyNow .. | .tallyPass ..
  | .timeSet .. | .timeAlign .. | .timeSourceChange .. | .ppsEdge .. | .ppsLost .. | .ppsOutPulse .. | .ptmDialog ..
  | .ptmDialogComplete .. | .ptmFail .. | .ptmRequest .. | .recoveryEntry .. | .updateFc .. | .ackDllp ..
  | .replayTimerTimeout .. | .marginingCommand .. | .droopSagClear .. | .supplyValid .. | .mgmtPfCompletionTimeout .. => true

end Sys2Proof
end

