-- ==== Sys2Proof/Safety.lean ====
section
/-! DEFINITION. What counts as a good state and a good step, in the terms the statements use. -/

namespace Sys2Proof.Machine

/-- No fuse bit of `a` is clear in `b`, and the serial numbers are the same (R399). -/
def FuseSt.keeps (a b : FuseSt) : Prop :=
  a.w0 &&& b.w0 = a.w0 ∧ a.w1 &&& b.w1 = a.w1 ∧ a.e0 &&& b.e0 = a.e0 ∧ a.e1 &&& b.e1 = a.e1
    ∧ a.serialW = b.serialW ∧ a.serialE = b.serialE

/-- Every error block's SIGNALLED follows its interrupt condition (R337). -/
def Dev.settled (s : Dev) : Prop := ∀ b : Nat, b < 88 → s.b F.ERR_STATUS_SIGNALLED b = s.irqCond b

/-- The registers, configuration space and the double-buffered sets are in their canonical form. -/
def Dev.canonical (s : Dev) : Bool :=
  Store.wf RegId.ord RegId.reset s.regs && Store.wf CfgId.ord CfgId.reset s.cfg && Store.wf TblId.ord (fun _ => 0) s.shadow
    && Store.wf TblId.ord (fun _ => 0) s.active

/-- The registers in which error blocks and the event queue report. -/
def RegKind.reports : RegKind → Bool
  | .errStatus | .evqDropped | .memCorr | .memUncorr => true
  | _ => false

/-- `t` is `d` after error reporting and nothing else (R335, R337, R342, R350, R411): the reporting registers apart, no register changes; of
ERR_STATUS only SIGNALLED does; of configuration space only the management PF's; of the outputs only MSI-X messages of the management PF are new,
and only its messages wait beside those that did; of a translation unit only its cache may be emptied; besides, the Pending Bits of the
management PF, the event queue, the armed injections and the count of free values. -/
def Dev.onlyReports (d t : Dev) : Prop :=
  (∀ (k : RegKind) (i j : Nat), k.reports = false → t.reg k i j = d.reg k i j)
    ∧ (∀ b : Nat, t.reg .errStatus b ||| 0x40 = d.reg .errStatus b ||| 0x40)
    ∧ (∀ (f : Fn) (off : Nat), f ≠ .mgmtPf → t.cf f off = d.cf f off)
    ∧ (∃ l : List Out, t.out = d.out ++ l ∧ ∀ o ∈ l, ∃ e : Nat, o = .msix .mgmtPf e)
    ∧ (∃ l : List OwnReq, t.own = d.own ++ l ∧ ∀ r ∈ l, r.ingress = 1023)
    ∧ (∀ n : Nat, n ≠ 0 → Tbl.look 0 t.pba n = Tbl.look 0 d.pba n)
    ∧ (∀ h : Nat, ({ t.xlat.look {} h with cache := [] } : XlatSt) = { d.xlat.look {} h with cache := [] })
    ∧ ({ t with regs := d.regs, cfg := d.cfg, out := d.out, own := d.own, pba := d.pba, xlat := d.xlat, free := d.free, evq := d.evq
                errs := d.errs } : Dev) = d

/-- A write of register `r` by the management PF is let through and stored as it comes: the register path and the register's block,
domain and safe state let it through, a management request slot is free, the lane starts a port, and no injection is armed in the
block (R9, R21, R38, R339, R350, R405). -/
abbrev Dev.takes (s : Dev) (r : RegId) : Prop :=
  s.gateOf .mgmtPf r = .act ∧ s.freeSlot.isSome = true ∧ s.noPort r = false ∧ (s.regSafe r && !r.kind.isErrReg) = false
    ∧ (s.errs.look {} (s.blockOf r)).parity = []

/-- The same for a register in the BAR0 of Stall `st`, written by its driver. -/
abbrev Dev.takesStall (s : Dev) (st : Nat) (r : RegId) : Prop :=
  s.stallGate st r = .act ∧ s.noPort r = false ∧ (s.regSafe r && !r.kind.isErrReg) = false
    ∧ (s.errs.look {} (s.blockOf r)).parity = []

/-- The value that a write makes which changes only the bits `m` of register `r`, to those of `x`. -/
def Dev.poked (s : Dev) (r : RegId) (m x : Word) : Word := (s.same r &&& ~~~m ||| x &&& m) &&& r.width

/-- A command completes: it answers a next state. -/
def Completes (i : Instr) (s : State) : Prop := ∃ t, exec i s = .next t

end Sys2Proof.Machine
end

