-- ==== Sys2Proof/Certificates/Slice0/Obligations.lean ====
section
/-! DEFINITION. The statements for the provers. Those that a rule of the spec gives cite it; what the model chose says so. -/

open Sys2Proof Sys2Proof.Machine

/-! ### The queue (95_what_each_step_holds.md) -/

/-- A step with a command in front is that command's effect, with the rest of the queue waiting. -/
def Obligations.StepRunsFrontCommand : Prop :=
  ∀ (s : State) (c : Instr) (rest : List Instr), s.pending = c :: rest → step s = exec c { s with pending := rest }

/-- On an empty queue a step is one edge of TCLK (the model's choice, log 2), at which the management PF's requests that wait for room go as
far as there is room: with no message of the device's own waiting, that and the error reporting that follows every command are all. Of a message
that waits, the lookup cycle comes in the same step. -/
def Obligations.IdleStepIsOneTimeEdge : Prop :=
  ∀ s : State, s.pending = [] →
    let d := s.dev.timeEdge.mgmtGoes s.dev.timeEdge.mgmtQ
    (s.dev.mgmtQ = [] → d = s.dev.timeEdge)
    ∧ (d.own = [] → step s = .next (s.after d))
    ∧ (∀ (r : OwnReq) (x : Dev), d.own = [r] → ({ d with own := [] } : Dev).bindOwn r = .ok x → step s = .next (s.after x))

/-- A command leaves the commands behind it waiting, in their order. -/
def Obligations.CommandsKeepTheQueue : Prop :=
  ∀ (s t : State) (c : Instr), exec c s = .next t → t.pending = s.pending

/-! ### Register accesses -/

/-- REGISTER_WRITE of a register that is let through: what the register does with the value. MISALIGNED_REGISTER_ACCESS: the write is
discarded, the read answers all ones in every byte, and the internal error bit of every block that it touches is set; it waits as other accesses
do. STALLED_ACCESS_COMPLETE: the read that held the slot is answered and the slot is free. -/
def Obligations.RegisterAccessCommandsComplete : Prop :=
  ∀ s : State,
    (∀ (off : BitVec 26) (wide : Bool) (v : Word) (r : RegId) (d : Dev),
      targetMgmt off.toNat = .reg r false → wide = r.kind.info.wide → off.toNat % (if wide then 8 else 4) = 0 → s.dev.takes r →
      v &&& r.width &&& r.kind.info.rsv = 0 → s.dev.regAct .mgmtPf r (v &&& r.width) = .ok d →
      exec (.registerWrite .mgmt off wide v) s = .next (s.after d.twinUpdate))
    ∧ (∀ (bar : Bar) (off : BitVec 26) (bytes : Nat) (write : Bool), alignedAccess off.toNat bytes = false →
      let a : Access := { door := .mgmtPf, bar := bar, off := off.toNat, write := write, wide := decide (4 < bytes), odd := some bytes }
      (s.dev.gateAt .mgmtPf bar (off.toNat / 4 * 4)).1 ≠ .gone →
      ((bar = .mgmt → s.dev.accessGate a ≠ .wait ∧ s.dev.freeSlot.isSome = true) →
        exec (.misalignedRegisterAccess bar off bytes write) s = .next (s.after (
          if write then s.dev.oddErrs a else (s.dev.oddErrs a).emit (.readBytes (List.replicate bytes 0xFF))).twinUpdate))
      ∧ (∀ k : Nat, bar = .mgmt → s.dev.accessGate a = .wait → s.dev.freeSlot = some k →
        exec (.misalignedRegisterAccess bar off bytes write) s = .next (s.after
          ({ s.dev with mgmt := { s.dev.mgmt with slots := s.dev.mgmt.slots.put none k (some a) } } : Dev).twinUpdate))
      ∧ (bar = .mgmt → s.dev.freeSlot = none →
        exec (.misalignedRegisterAccess bar off bytes write) s = .next (s.after
          ({ s.dev with mgmt := { s.dev.mgmt with waiting := s.dev.mgmt.waiting ++ [a] } } : Dev).twinUpdate)))
    ∧ (∀ (k : Fin 4) (a : Access), s.dev.mgmt.slots.look none k = some a → a.write = false → a.door = .mgmtPf → s.dev.mgmt.waiting = [] →
      a.isOdd = false → s.dev.rst.polled = none → s.dev.accessGate a ≠ .wait → (s.dev.gateAt a.door a.bar (a.off / 4 * 4)).1 ≠ .gone →
      let d : Dev := { s.dev with mgmt := { s.dev.mgmt with slots := s.dev.mgmt.slots.put none k none } }
      let x := d.readAccess a.door a.bar a.off a.wide
      exec (.stalledAccessComplete k) s = .next (s.after (x.1.emit (.readData x.2)).twinUpdate))

/-! ### Rows and lanes -/

/-- The register writes of Rows and lanes: ROW_SPLIT, a forced sparing, LANE_PRBS_CTL whole, its CLEAR and its INJ_ONE. -/
def Obligations.RowRegisterWritesComplete : Prop :=
  ∀ s : State, let d := s.dev
    (∀ (r : Fin 32) (v : BitVec 32), d.takes ⟨.rowSplit, r, 0⟩ → v.zeroExtend 64 &&& RegKind.rowSplit.info.rsv = 0 →
      exec (.rowSplitWrite r v) s = .next (s.after (d.wrRowSplit r (v.zeroExtend 64)).twinUpdate))
    ∧ (∀ (r : Fin 32) (lane : Fin 16), d.takes ⟨.rowSpareCtl, r, 0⟩ →
      exec (.rowSpareForce r lane) s =
        .next (s.after (d.wrSpareCtl r (d.poked ⟨.rowSpareCtl, r, 0⟩ 0x7C0 (BitVec.ofNat 64 (64 * lane + 0x400)))).twinUpdate))
    ∧ (∀ (r : Fin 32) (m : Fin 17) (v : BitVec 32), d.takes ⟨.lanePrbsCtl, r, m⟩ →
      v.zeroExtend 64 &&& RegKind.lanePrbsCtl.info.rsv = 0 →
      exec (.lanePrbsCtlWrite r m v) s = .next (s.after (d.wrPrbs r m (v.zeroExtend 64)).twinUpdate))
    ∧ (∀ (r : Fin 32) (m : Fin 17), d.takes ⟨.lanePrbsCtl, r, m⟩ →
      exec (.prbsClear r m) s = .next (s.after (d.wrPrbs r m (d.poked ⟨.lanePrbsCtl, r, m⟩ 0x40 0x40)).twinUpdate))
    ∧ (∀ (r : Fin 32) (m : Fin 17), d.takes ⟨.lanePrbsCtl, r, m⟩ →
      exec (.prbsInjOne r m) s = .next (s.after (d.wrPrbs r m (d.poked ⟨.lanePrbsCtl, r, m⟩ 0x100 0x100)).twinUpdate))

/-- The events of lanes: block lock lost, the partner's coefficients and its request for precoding, an evaluation's end, receiver lock lost,
the PRBS checker, margining. -/
def Obligations.LaneEventsComplete : Prop :=
  ∀ s : State, let d := s.dev
    (∀ (r : Fin 32) (m : Fin 17), exec (.blockLockLost r m) s = .next (s.after (
      if 2 ≤ d.laneRate r m ∧ d.laneRate r m ≤ 4 ∧ d.b F.LANE_STATUS_CODE_LOCK r m = true then
        ((d.setB F.LANE_STATUS_CODE_LOCK false r m).inc .laneCodeErr 4 r m).rxErrorN r m 4 else d)))
    ∧ (∀ (r : Fin 32) (m : Fin 17) (a b c e : BitVec 6) (pre : Bool), d.eqAnswers r m = true →
      coefOk (d.lane r m).rate a.toNat b.toNat c.toNat e.toNat = true →
      exec (.eqPartnerRequest r m a b c e pre) s = .next (s.after (
        (d.emit (.eqAnswer r m true)).setLane r m { d.lane r m with
          tx := [a.toNat, b.toNat, c.toNat, e.toNat], txPre := decide (5 ≤ (d.lane r m).rate) && pre })))
    ∧ (∀ (r : Fin 32) (m : Fin 17) (a b c e : BitVec 6) (pre : Bool), d.eqAnswers r m = true →
      coefOk (d.lane r m).rate a.toNat b.toNat c.toNat e.toNat = false →
      exec (.eqPartnerRequest r m a b c e pre) s = .next (s.after (
        (d.emit (.eqAnswer r m false)).setLane r m { d.lane r m with txPre := decide (5 ≤ (d.lane r m).rate) && pre })))
    ∧ (∀ (r : Fin 32) (m : Fin 17) (a b c e : BitVec 6) (pre : Bool), d.eqAnswers r m = false →
      exec (.eqPartnerRequest r m a b c e pre) s = .next (s.after d))
    ∧ (∀ (r : Fin 32) (m : Fin 17) (fom : Nat) (rejected : Bool),
      exec (.eqEvaluationDone r m fom rejected) s = .next (s.after (if d.laneUsed r m then d.eqEval r m fom rejected else d)))
    ∧ (∀ (r : Fin 32) (m : Fin 16), d.laneUsed r m = true → d.f F.PORT_STATUS_LTSSM (d.portOfLane r m) = 3 →
      d.b F.LANE_STATUS_RX_LOCK r m = true → d.b F.LANE_STATUS_SUBSTITUTED r m = false →
      exec (.laneLockLoss r m) s = .next (s.after (
        ((d.setB F.LANE_STATUS_RX_LOCK false r m).setB F.LANE_STATUS_CODE_LOCK false r m).condemn r m)))
    ∧ (∀ (r : Fin 32) (m : Fin 17), exec (.prbsLock r m) s = .next (s.after (
      if d.b F.LANE_PRBS_CTL_RX_EN r m && !d.b F.LANE_PRBS_CTL_LOCKED r m then
        (d.setB F.LANE_PRBS_CTL_LOCKED true r m).setReg .lanePrbsErr 0 r m else d)))
    ∧ (∀ (r : Fin 32) (m : Fin 17) (errs : Nat), exec (.prbsLockLoss r m errs) s = .next (s.after (
      if d.b F.LANE_PRBS_CTL_LOCKED r m then (d.prbsCount r m errs).setB F.LANE_PRBS_CTL_LOCKED false r m else d)))
    ∧ (∀ (r : Fin 32) (m : Fin 17), d.f F.LANE_PRBS_CTL_INJ_EXP r m ≠ 0 → d.safe r = false → d.b F.LANE_PRBS_CTL_TX_EN r m = true →
      exec (.prbsPeriodicInject r m) s = .next (s.after (d.emit (.prbsError r m))))
    ∧ (∀ (r : Fin 32) (m : Fin 17) (c : MarginCmd) (errs : Nat), d.laneUsed r m = true → 2 ≤ d.laneRate r m → d.laneRate r m ≤ 6 →
      d.b F.PORT_STATUS_DL_ACTIVE (d.portOfLane r m) = true →
      exec (.marginingCommand r m c errs) s = .next (s.after (d.marginCmd r m c errs)))

/-- The exchange of sparing: the offers, the shadow lane, condemnation, the switch to the spare (R58-R68). -/
def Obligations.SparingEventsComplete : Prop :=
  ∀ s : State, let d := s.dev
    (∀ r : Fin 32, d.spareAvail r = true → (d.row r).sent = false → (d.row r).silent = false → (d.row r).got = false → d.rxSpare r ≠ 0 →
      exec (.spareOfferSend r) s = .next (s.after ((d.setRow r { d.row r with sent := true }).sendSpare r (.offer 3))))
    ∧ (∀ r : Fin 32, d.spareAvail r = true → (d.row r).sent = false → (d.row r).silent = false → (d.row r).got = false → d.rxSpare r = 0 →
      exec (.spareOfferSend r) s = .next (s.after (
        (((d.setRow r { d.row r with sent := true }).sendSpare r (.offer 3)).setF F.ROW_SPARE_STATUS_RX_STATE 1 r).setF
          F.ROW_SPARE_STATUS_TX_STATE 1 r)))
    ∧ (∀ (r : Fin 32) (cap : BitVec 8), d.spareAvail r = true → (d.row r).silent = false → (d.row r).sent = true →
      let d1 := (d.spareIn r).setRow r { d.row r with got := true, heard := true }
      exec (.spareOffer r 0x6A cap) s = .next (s.after (
        (if d.sharesRate r cap then d1.sendSpare r (.accept 3) else d1).spareNegotiated r)))
    ∧ (∀ (r : Fin 32) (cap : BitVec 8), d.spareAvail r = true → (d.row r).silent = false →
      exec (.spareAccept r 0x6A cap) s = .next (s.after (((d.spareIn r).setRow r { d.row r with heard := true }).spareNegotiated r)))
    ∧ (∀ (r : Fin 32) (magic cap : BitVec 8), magic ≠ 0x6A ∨ d.spareAvail r = false ∨ (d.row r).silent = true →
      exec (.spareOffer r magic cap) s = .next (s.after (d.spareIn r))
        ∧ exec (.spareAccept r magic cap) s = .next (s.after (d.spareIn r)))
    ∧ (∀ r : Fin 32, d.spareAvail r = true → d.rxSpare r ≤ 1 → d.txSpare r ≤ 1 → (d.row r).heard = false →
      exec (.spareNegotiationTimeout r) s = .next (s.after (
        (((d.setRow r { d.row r with silent := true }).setF F.ROW_SPARE_STATUS_RX_STATE 0 r).spareIdle r).setF
          F.ROW_SPARE_STATUS_TX_STATE 0 r)))
    ∧ (∀ r : Fin 32, (d.row r).heard = true → exec (.spareNegotiationTimeout r) s = .next (s.after d))
    ∧ (∀ r : Fin 32, d.rxSpare r = 2 → exec (.spareReady r) s = .next (s.after (
        ((d.setF F.ROW_SPARE_STATUS_RX_STATE 3 r).setB F.LANE_STATUS_RX_LOCK true r 16).setB F.LANE_STATUS_CODE_LOCK true r 16)))
    ∧ (∀ r : Fin 32, d.rxSpare r = 3 → exec (.spareUnfit r) s = .next (s.after (
        (d.setF F.ROW_SPARE_STATUS_RX_STATE 6 r).setB F.ROW_SPARE_STATUS_SPARE_FAULT true r)))
    ∧ (∀ (r : Fin 32) (e : RowErrs), exec (.condemnationWindow r e) s = .next (s.after (d.condemnWindow r e)))
    ∧ (∀ (r : Fin 32) (lane : Fin 16) (flit : BitVec 10), d.spareAvail r = true → (d.laneFor (d.spareOwner r) lane).isSome = true →
      d.txSpare r = 2 → exec (.spareReq r lane flit) s = .next (s.after (
        ((((d.spareIn r).setF F.ROW_SPARE_STATUS_TX_STATE 4 r).setF F.ROW_SPARE_STATUS_TX_MIRROR_LANE lane r).sendSpare r
          (.ack lane flit.toNat)).spareReplay (d.spareOwner r))))
    ∧ (∀ (r : Fin 32) (lane : Fin 16) (flit : BitVec 10), d.spareAvail r = false ∨ d.laneFor (d.spareOwner r) lane = none →
      exec (.spareReq r lane flit) s = .next (s.after (d.spareIn r)))
    ∧ (∀ (r : Fin 32) (lane : Fin 16) (seq : BitVec 10), d.rxSpare r = 4 → d.f F.ROW_SPARE_STATUS_RX_SUBST_LANE r = lane →
      exec (.spareAck r lane seq) s = .next (s.after (
        ((d.spareIn r).setRow r { d.row r with seq := some seq.toNat }).setF F.LANE_STATUS_LOGICAL_LANE lane r 16)))
    ∧ (∀ (r : Fin 32) (lane : Fin 16), d.rxSpare r = 4 → d.f F.ROW_SPARE_STATUS_RX_SUBST_LANE r = lane →
      exec (.spareNak r lane) s = .next (s.after (
        ((((d.spareIn r).setF F.ROW_SPARE_STATUS_RX_STATE 3 r).setB F.ROW_SPARE_STATUS_PARTNER_NAK true r).setB
          F.ROW_SPARE_STATUS_SPARE_MISSED true r).setF F.ROW_SPARE_STATUS_RX_SUBST_LANE 0 r)))
    ∧ (∀ (r : Fin 32) (m : Nat), d.rxSpare r = 4 → (d.row r).seq.isSome = true →
      let l := d.f F.ROW_SPARE_STATUS_RX_SUBST_LANE r
      d.laneFor (d.spareOwner r) l = some m →
      exec (.spareSubstitution r) s = .next (s.after (
        (((((d.setF F.ROW_SPARE_STATUS_RX_STATE 5 r).setB F.ROW_SPARE_STATUS_SWITCH_DONE true r).setB
          F.LANE_STATUS_SUBSTITUTED true r m).setF F.LANE_STATUS_LOGICAL_LANE l r 16).setB F.LANE_STATUS_DESKEWED true r 16).marginStop
            r m)))

/-! ### Ports, partitions and slots -/

/-- The register writes of ports, partitions, service functions, slots, Signboard chains and slot power channels. -/
def Obligations.PortRegisterWritesComplete : Prop :=
  ∀ s : State, let d := s.dev
    (∀ (p : Fin 512) (v : BitVec 32), d.takes ⟨.portCtl, p, 0⟩ → v.zeroExtend 64 &&& RegKind.portCtl.info.rsv = 0 →
      exec (.portEnable p v) s = .next (s.after (d.wrPortCtl p (v.zeroExtend 64 ||| 1)).twinUpdate)
        ∧ exec (.portDisable p v) s = .next (s.after (d.wrPortCtl p (v.zeroExtend 64 &&& ~~~1)).twinUpdate))
    ∧ (∀ (q : Fin 128) (v : BitVec 32), d.takes ⟨.partCtl, q, 0⟩ → v.zeroExtend 64 &&& RegKind.partCtl.info.rsv = 0 →
      exec (.partCtlWrite q v) s = .next (s.after (d.wrPartCtl q (v.zeroExtend 64)).twinUpdate))
    ∧ (∀ q : Fin 128, d.takes ⟨.partCtl, q, 0⟩ →
      exec (.partitionReset q) s = .next (s.after (d.wrPartCtl q (d.poked ⟨.partCtl, q, 0⟩ 2 2)).twinUpdate))
    ∧ (∀ v : BitVec 32, d.takes ⟨.svcCtl, 0, 0⟩ → v.zeroExtend 64 &&& RegKind.svcCtl.info.rsv = 0 →
      exec (.svcCtlWrite v) s = .next (s.after (d.wrSvcCtl (v.zeroExtend 64)).twinUpdate))
    ∧ (∀ (h : Fin 2) (v : BitVec 32), d.takes ⟨.sbCtl, h, 0⟩ → v.zeroExtend 64 &&& RegKind.sbCtl.info.rsv = 0 →
      exec (.sbCtlWrite h v) s = .next (s.after (d.wrSbCtl h (v.zeroExtend 64)).twinUpdate))
    ∧ (∀ (p : Fin 512) (v : Word), d.takes ⟨.slotCfg, p, 0⟩ → v &&& RegKind.slotCfg.info.rsv = 0 →
      exec (.slotCfgWrite p v) s = .next (s.after (d.wrSlotCfg p v).twinUpdate))
    ∧ (∀ (n : Fin 32) (v : Word), d.takes ⟨.spcCfg, n, 0⟩ → v &&& RegKind.spcCfg.info.rsv = 0 →
      exec (.spcCfgWrite n v) s = .next (s.after (d.wrSpcCfg n v).twinUpdate))

/-- What happens on a port's link: up, down, recovery, power states, flow control, replay, hot reset, containment. -/
def Obligations.LinkEventsComplete : Prop :=
  ∀ s : State, let d := s.dev
    (∀ p : Fin 512, exec (.dlDown p) s = .next (s.after (if d.b F.PORT_CTL_EN p then d.linkDown p else d).twinUpdate))
    ∧ (∀ p : Fin 512, (d.link p).purge = true →
      exec (.purgeDone p) s = .next (s.after ((d.setLink p { d.link p with purge := false }).trainNow p)))
    ∧ (∀ p : Fin 512, d.isPcie p = true → d.role p = 1 → d.b F.PORT_STATUS_DL_ACTIVE p = true →
      exec (.uspHotReset p) s = .next (s.after (((d.linkGone p 10).partReset (d.f F.PORT_CTL_PART p) true).setF F.PORT_STATUS_LTSSM 0 p)))
    ∧ (∀ (q : Fin 128) (f : BridgeFn) (set : Bool), exec (.secondaryBusReset q f set) s = .next (s.after (d.sbr q f set)))
    ∧ (∀ p : Fin 512, d.isPcie p = true → d.f F.PORT_STATUS_LTSSM p = 3 → d.b F.PORT_STATUS_FLIT p = false → d.aspm p 0 = true →
      d.egressIdle p = true → exec (.l0sEntry p) s = .next (s.after ((d.setF F.PORT_STATUS_LTSSM 5 p).emit (.link p .l0sEntry))))
    ∧ (∀ p : Fin 512, d.b F.PORT_STATUS_FLIT p = true → exec (.l0sEntry p) s = .next (s.after d))
    ∧ (∀ p : Fin 512, d.isPcie p = true → d.role p = 1 → d.f F.PORT_STATUS_LTSSM p = 3 ∨ d.f F.PORT_STATUS_LTSSM p = 5 →
      d.b F.PORT_STATUS_DL_ACTIVE p = true → d.aspm p 1 = true → d.linkIdle p = true → d.partRests (d.f F.PORT_CTL_PART p) = true →
      exec (.aspmL1Request p) s = .next (s.after (
        let d1 := (d.emit (.link p .l1Request)).useFree
        if d.partnerAccepts then (d1.marginEnd p).enterL1 p false else d1)))
    ∧ (∀ (p : Fin 512) (pm : Bool), d.isPcie p = true → d.role p = 0 → d.f F.PORT_STATUS_LTSSM p = 3 ∨ d.f F.PORT_STATUS_LTSSM p = 5 →
      d.b F.PORT_STATUS_DL_ACTIVE p = true → exec (.l1RequestReceived p pm) s = .next (s.after (
        if pm || (d.aspm p 1 && d.egressIdle p) then ((d.marginEnd p).enterL1 p pm).emit (.link p .l1Accept)
        else d.emit (.link p .l1Deny))))
    ∧ (∀ p : Fin 512, d.l0pOn p = true → d.b F.PORT_CTL_L0P_INIT p = true → d.egressIdle p = true → 1 < (d.link p).l0p →
      exec (.l0pNarrow p) s = .next (s.after (d.askWidth p 1)))
    ∧ (∀ p : Fin 512, d.l0pOn p = true → d.b F.PORT_CTL_L0P_INIT p = true → d.egressIdle p = false →
      (d.link p).l0p < (d.link p).fullWidth → exec (.l0pWiden p) s = .next (s.after (d.askWidth p (d.link p).fullWidth)))
    ∧ (∀ (p : Fin 512) (w : Fin 17), d.l0pOn p = true → w.val ∈ [1, 2, 4, 8, 16] → w.val ≤ (d.link p).fullWidth →
      exec (.l0pPartnerRequest p w) s = .next (s.after ((d.setLink p { d.link p with l0p := w }).emit (.link p (.l0pAnswer w)))))
    ∧ (∀ (p : Fin 512) (c : DpcCause), d.b F.PORT_CTL_EN p = true ∨ d.safe (p.val / 16) = true → d.role p = 0 → (d.link p).dpc = false → d.dpcArmed p c = true →
      exec (.dpcTrigger p c) s = .next (s.after (d.contain p c)))
    ∧ (∀ p : Fin 512, exec (.dpcRelease p) s = .next (s.after (if (d.link p).dpc then d.uncontain p else d)))
    ∧ (∀ (p : Fin 512) (w : Fin 17) (rate : Fin 7) (flit : Bool) (credits : List Nat), d.isPcie p = true → d.widthOk p w = true →
      rate.val ≤ d.maxRate p → flitOk rate flit = true → d.b F.PORT_STATUS_DL_ACTIVE p = false → d.mayTrain p = true →
      exec (.dlUp p w rate flit credits) s = .next (s.after (d.pcieUp p w rate flit credits)))
    ∧ (∀ (p : Fin 512) (w : Fin 17) (rate : Fin 7) (credits : List Nat), d.isPcie p = true → d.widthOk p w = true →
      rate.val ≤ d.maxRate p → flitOk rate (d.b F.PORT_STATUS_FLIT p) = true → d.b F.PORT_STATUS_DL_ACTIVE p = true →
      d.f F.PORT_STATUS_LTSSM p = 4 ∨ d.f F.PORT_STATUS_LTSSM p = 6 →
      exec (.dlUp p w rate (d.b F.PORT_STATUS_FLIT p) credits) s = .next (s.after (d.backToL0 p w rate)))
    ∧ (∀ (p : Fin 512) (rate : Option (Fin 7)), d.b F.PORT_CTL_EN p = true → d.b F.PORT_STATUS_DL_ACTIVE p = true →
      d.f F.PORT_STATUS_LTSSM p ∈ [3, 5, 6] →
      exec (.recoveryEntry p rate) s = .next (s.after (d.recover p (rate.map Fin.val))))
    ∧ (∀ (p : Fin 512) (rate : Fin 7), d.trainsOn p (some rate) = true →
      exec (.recoveryEntry p (some rate)) s = .next (s.after (d.recover p (some rate.val))))
    ∧ (∀ (p : Fin 512) (k : Fin 8) (n : Nat), d.isPcie p = true → d.b F.PORT_STATUS_DL_ACTIVE p = true →
      (d.link p).cr.look 0 k + n ≤ creditMost k → (d.link p).inf.contains k.val = false ∨ n = 0 →
      exec (.updateFc p k n) s = .next (s.after (
        d.setLink p { d.link p with cr := (d.link p).cr.put 0 k ((d.link p).cr.look 0 k + n) })))
    ∧ (∀ (p : Fin 512) (k : Fin 8) (n : Nat), d.isPcie p = true → d.b F.PORT_STATUS_DL_ACTIVE p = true →
      creditMost k < (d.link p).cr.look 0 k + n ∨ ((d.link p).inf.contains k.val = true ∧ n ≠ 0) →
      exec (.updateFc p k n) s = .next (s.after ((d.aerU (portFn p) AER.flowControl).linkDown p)))
    ∧ (∀ (p : Fin 512) (seq : BitVec 12) (x : Dev), d.isPcie p = true → d.b F.PORT_STATUS_DL_ACTIVE p = true →
      d.ackTo p seq.toNat = .ok x →
      exec (.ackDllp p false seq true) s = .next (s.after x) ∧ exec (.ackDllp p true seq true) s = .next (s.after (x.pcieReplay p)))
    ∧ (∀ (p : Fin 512) (nak : Bool) (seq : BitVec 12), d.isPcie p = true → d.b F.PORT_STATUS_DL_ACTIVE p = true →
      d.ackTo p seq.toNat = .error () →
      exec (.ackDllp p nak seq true) s = .next (s.after ((d.aerU (portFn p) AER.dlp).linkDown p)))
    ∧ (∀ (p : Fin 512) (nak : Bool) (seq : BitVec 12), d.isPcie p = true → d.b F.PORT_STATUS_DL_ACTIVE p = true →
      exec (.ackDllp p nak seq false) s = .next (s.after (d.aerC (portFn p) AER.badDllp)))
    ∧ (∀ p : Fin 512, d.isPcie p = true → d.b F.PORT_STATUS_DL_ACTIVE p = true → (d.link p).replay ≠ [] →
      exec (.replayTimerTimeout p) s = .next (s.after ((d.aerC (portFn p) AER.replayTimeout).pcieReplay p)))

/-- Hot-plug slots and the Signboard chains. -/
def Obligations.SlotEventsComplete : Prop :=
  ∀ s : State, let d := s.dev
    (∀ (h : Fin 2) (din : List Bool), exec (.signboardFrame h din) s = .next (s.after (if d.sbRuns h then d.sbFrame h din else d)))
    ∧ (∀ h : Fin 2, d.sbRuns h = true → exec (.chainFault h) s = .next (s.after (
      (d.setChain h { d.chain h with bad := 3, frozen := true }).setB F.SB_CTL_CHAIN_FAULT true h)))
    ∧ (∀ (p : Fin 512) (present : Bool), exec (.presenceChange p present) s = .next (s.after (d.presenceChange p present)))
    ∧ (∀ p : Fin 512, d.sbFrozen p = false → d.hasSlot p = true → d.b F.SLOT_CFG_BTN p = true → d.slotState p ≠ 5 →
      (d.slot p).lost = false → (d.slot p).btnDown = false → d.sbAgrees p 1 false = true →
      (d.slot p).present = false ∨ lossAhead p s.pending = false →
      exec (.attentionButtonPressed p) s = .next (s.after ((d.setSlot p { d.slot p with btnDown := true }).slotEvent p 0)))
    ∧ (∀ p : Fin 512, d.slotState p = 5 ∨ (d.slot p).lost = true ∨ (d.slot p).btnDown = true
        ∨ ((d.slot p).present = true ∧ lossAhead p s.pending = true) →
      exec (.attentionButtonPressed p) s = .next (s.after d))
    ∧ (∀ (p : Fin 512) (isOpen : Bool), exec (.mrlSensorChange p isOpen) s = .next (s.after (d.mrlChange p isOpen)))
    ∧ (∀ (p : Fin 512) (fault : Bool), d.sbFrozen p = false → d.hasSlot p = true → d.sbAgrees p 3 (!fault) = true →
      2 ≤ (d.slot p).pfRun → exec (.pwrfltChange p fault) s = .next (s.after (d.pwrfltTaken p fault)))
    ∧ (∀ (p : Fin 512) (fault : Bool), (d.slot p).pfRun < 2 → exec (.pwrfltChange p fault) s = .next (s.after d))
    ∧ (∀ p : Fin 512, d.slotFn p = true → exec (.powerControllerOn p) s = .next (s.after (d.powerWrite p true))
      ∧ exec (.powerControllerOff p) s = .next (s.after (d.powerWrite p false)))
    ∧ (∀ (p : Fin 512) (power attn : BitVec 2), d.slotFn p = true →
      exec (.indicatorControl p power attn) s = .next (s.after (d.indicatorWrite p power.toNat attn.toNat)))
    ∧ (∀ p : Fin 512, d.slotState p = 5 → exec (.coolingExpired p) s = .next (s.after (
      (d.setF F.SLOT_STATE_COOL_LEFT 0 p).setSlot p { d.slot p with debounce := true })))
    ∧ (∀ (p : Fin 512) (present : Bool), exec (.presenceDebounceDone p present) s = .next (s.after (d.debounceDone p present)))
    ∧ (∀ p : Fin 512, d.slotState p = 2 → d.powerPresent p = true →
      exec (.slotPowerValid p) s = .next (s.after (d.setSlot p { d.slot p with valid := true })))
    ∧ (∀ p : Fin 512, exec (.perstRelease p) s = .next (s.after (d.perstRelease p)))
    ∧ (∀ p : Fin 512, d.slotState p = 4 → (d.slot p).offAtLoad = false →
      exec (.powerOffDone p) s = .next (s.after (d.powerOffDone p)))
    ∧ (∀ p : Fin 512, d.slotState p = 4 → (d.slot p).offAtLoad = false → (d.slot p).gateWait = false → d.powerOffDone p = d.slotRest p)

/-- Slot power channels (R355-R361). -/
def Obligations.SlotPowerEventsComplete : Prop :=
  ∀ s : State, let d := s.dev
    (∀ (n : Fin 32) (a b c : BitVec 12), exec (.slotPowerTick n a b c) s = .next (s.after (d.spcTick n a.toNat b.toNat c.toNat)))
    ∧ (∀ n : Fin 32, exec (.breaker n) s = .next (s.after (d.spcFault n F.SPC_STATUS_BREAKER))
      ∧ exec (.fastTrip n) s = .next (s.after (d.spcFault n F.SPC_STATUS_FAST_TRIP))
      ∧ exec (.vinUv n) s = .next (s.after (d.spcFault n F.SPC_STATUS_VIN_UV))
      ∧ exec (.fetHighRds n) s = .next (s.after (if d.spcState n = 2 then d.spcFault n F.SPC_STATUS_FET_HIGH_RDS else d)))
    ∧ (∀ n : Fin 32, d.spcState n = 3 → exec (.dischargeEnd n) s = .next (s.after (
      d.setF F.SPC_STATUS_STATE (if (d.spc n).fault then 4 else 0) n)))
    ∧ (∀ n : Fin 32, d.b F.SPC_CFG_EN n = true → d.spcState n = 0 ∨ d.spcState n = 3 ∨ d.spcState n = 4 →
      exec (.fetShort n) s = .next (s.after (d.spcShort n)))
    ∧ (∀ n : Fin 32, (d.spc n).holdoff = true → d.spcState n ≠ 3 → exec (.restartHoldoffEnd n) s = .next (s.after (d.spcHoldoffEnd n)))

/-! ### Forwarding, Floor, egress -/

/-- TLPs that arrive, the writes of the forwarding registers, commits, repins and fences. -/
def Obligations.ForwardingCommandsComplete : Prop :=
  ∀ s : State, let d := s.dev
    (∀ (p : Fin 512) (t : Tlp) (shared : Bool) (rx : RxErr), rx.badEnd = none → isMemReq t.kind = false → t.route ≠ .byAddr →
      ∃ x : Dev, (d.rxErrors p rx).tlpIn p t shared = .ok x ∧ exec (.tlpIngress p t shared rx) s = .next (s.after x))
    ∧ (∀ (p : Fin 512) (t : Tlp) (shared : Bool) (rx : RxErr), let e := d.rxErrors p rx
      rx.badEnd = none → (e.windowsAt (e.partOf p) (t.addr.toNat / 4096)).length ≤ 1 →
      ∃ x : Dev, e.tlpIn p t shared = .ok x ∧ exec (.tlpIngress p t shared rx) s = .next (s.after x))
    ∧ (∀ (p : Fin 512) (t : Tlp) (shared : Bool) (rx : RxErr) (k : Nat), rx.badEnd = some k →
      exec (.tlpIngress p t shared rx) s = .next (s.after ((d.rxErrors p rx).badTlp p t k)))
    ∧ (∀ (n : Fin 64) (q : PReq) (rest : List PReq), d.porterOn n = true → (d.porter n).port = q :: rest →
      (d.windowsAt (d.partOf (512 + n)) (q.tlp.addr.toNat / 4096)).length ≤ 1 →
      ∃ x : Dev, d.bindPorter n = .ok x ∧ exec (.porterRequestIngress n) s = .next (s.after x))
    ∧ (∀ (p : Fin 512) (seq : BitVec 10) (pos : Fin 236) (rx : SegRx) (nth : Nth) (t : Tlp),
      exec (.fabricTlpArrival p seq pos rx nth t) s = .next (s.after (d.fabricIn p seq.toNat pos rx nth t).twinUpdate))
    ∧ (∀ (q : Fin 128) (f : BridgeFn) (off : BitVec 12) (be : BitVec 4) (v : BitVec 32) (x : Dev),
      d.bridgeWrite q f (off.toNat / 4 * 4) be v { q := q } = some x →
      exec (.hostBridgeWrite q f off be v) s = .next (s.after x))
    ∧ (∀ (q : Fin 128) (f : BridgeFn) (off : BitVec 12) (be : BitVec 4) (v : BitVec 32),
      d.bridgeWrite q f (off.toNat / 4 * 4) be v { q := q } = none →
      exec (.hostBridgeWrite q f off be v) s = .next (s.after (d.emit (.cfgDone q .ur))))
    ∧ (∀ q : Fin 128, d.fwd.held = false → exec (.bridgeWriteComplete q) s = .next (s.after (
      (d.fwd.bridge.filter (fun w => w.q == q.val)).foldl Dev.bridgeDone
        { d with fwd := { d.fwd with bridge := d.fwd.bridge.filter (fun w => w.q != q.val) } })))
    ∧ (d.takes ⟨.fwdCtl, 0, 0⟩ → d.b F.HALL_CTL_EN = false →
      exec .winCommit s = .next (s.after
        (((d.storeReg ⟨.fwdCtl, 0, 0⟩ (d.poked ⟨.fwdCtl, 0, 0⟩ 1 1)).commitReq).twinUpdate).twinUpdate))
    ∧ exec .heldCommitApply s = .next (s.after d.commitHeld.twinUpdate)
    ∧ exec .commitCopyDone s = .next (s.after d.copyFinish.twinUpdate)
    ∧ (∀ v : BitVec 32, d.takes ⟨.hashSeed, 0, 0⟩ → v.zeroExtend 64 &&& RegKind.hashSeed.info.rsv = 0 →
      exec (.hashSeedWrite v) s = .next (s.after (d.wrSeed (v.zeroExtend 64)).twinUpdate))
    ∧ (∀ (b : Fin 4096) (path : Fin 16), d.takes ⟨.bucket, b, 0⟩ →
      exec (.bucketPathWrite b path) s = .next (s.after (d.wrPath b path).twinUpdate))
    ∧ (∀ b : Fin 4096, exec (.bucketRepin b) s = .next (s.after (d.repin b)))
    ∧ (∀ c : Fin 576, d.takes ⟨.pitchFence, c, 0⟩ → exec (.pitchFence c) s = .next (s.after (d.fence c).twinUpdate))
    ∧ (∀ c : Fin 576, exec (.fenceDone c) s = .next (s.after (
      if d.fenceClear c then d.setB F.PITCH_FENCE_FENCE_DONE true c else d)))
    ∧ (∀ v : Word, d.takes ⟨.pitchSeal, 0, 0⟩ → v &&& RegKind.pitchSeal.info.rsv = 0 →
      exec (.sealWrite 0 v) s = .next (s.after (d.storeReg ⟨.pitchSeal, 0, 0⟩ v).twinUpdate))
    ∧ (∀ (k : Fin 2) (v : Word), d.takes ⟨.winSeal, k, 0⟩ → v &&& RegKind.winSeal.info.rsv = 0 →
      exec (.sealWrite (k.succ) v) s = .next (s.after (d.storeReg ⟨.winSeal, k, 0⟩ v).twinUpdate))

/-- The Floor: scrub, sweep, retirement, reservations, groups, wipes, the escape. A scrub step toward a group whose clocks are stopped waits in its
handshake: outstanding, then counted to 15, then lost with CDC_OVF; toward one in reset, its domain or its Floor block, it is discarded and counted
(R374, R375). -/
def Obligations.FloorCommandsComplete : Prop :=
  ∀ s : State, let d := s.dev
    (∀ (b : Fin 512) (upset : Nat), d.b F.DOMAIN_STATE_READY (160 + b / 16) = true → (d.group (b / 16)).live = true →
      d.rst.blockBusy ≠ some (68 + domHalf (160 + b / 16)) →
      let x := d.floor.banks.look {} b
      let d1 := d.scrubChunk b (bankCell b (x.row / 4)) (x.row % 4) upset
      exec (.scrubRow b upset) s = .next (s.after { d1 with floor := { d1.floor with
        banks := d1.floor.banks.put {} b { d1.floor.banks.look {} b with row := (x.row + 1) % 3072 } } }))
    ∧ (∀ (b : Fin 512) (upset : Nat), let n := 160 + b.val / 16
      let x := d.pulses.look {} b
      d.rst.blockBusy ≠ some (68 + domHalf n) → d.b F.DOMAIN_STATE_READY n = false →
      (d.f F.DOMAIN_STATE_POWER n = 2 →
        (x.out = 0 → exec (.scrubRow b upset) s = .next (s.after (d.setPulse b { x with out := 1 })))
        ∧ (0 < x.out → x.acc < 15 → exec (.scrubRow b upset) s = .next (s.after (d.setPulse b { x with acc := x.acc + 1 })))
        ∧ (0 < x.out → 15 ≤ x.acc → ∃ t : State, exec (.scrubRow b upset) s = .next t ∧ t.dev.b F.CLK_STATUS_CDC_OVF (domHalf n) = true
          ∧ t.dev.pulses = d.pulses ∧ t.dev.f F.CLK_STATUS_OVF_DOMAIN (domHalf n) =
            (if d.b F.CLK_STATUS_CDC_OVF (domHalf n) then d.f F.CLK_STATUS_OVF_DOMAIN (domHalf n) else n)))
      ∧ (d.f F.DOMAIN_STATE_POWER n ≠ 2 → exec (.scrubRow b upset) s = .next (s.after (d.inc .cdcLost 1 (domHalf n)))))
    ∧ (∀ (b : Fin 512) (upset : Nat), d.rst.blockBusy = some (68 + domHalf (160 + b / 16)) →
      exec (.scrubRow b upset) s = .next (s.after (d.inc .cdcLost 1 (domHalf (160 + b / 16)))))
    ∧ (∀ (e : Fin 578) (q : Fin 9) (pos single : Nat), d.queue e q = [] →
      exec (.linkMemorySweepDone e q pos single none) s = .next (s.after (d.entriesCorrected single)))
    ∧ (∀ (e : Fin 578) (q : Fin 9) (pos : Nat), d.queue e q ≠ [] →
      exec (.linkMemorySweepDone e q pos 0 none) s = .next (s.after (d.sweepQueue e q pos)))
    ∧ (∀ (e : Fin 578) (q : Fin 9) (pos single : Nat) (c : Fin 393216),
      let x := (d.entriesCorrected single).logEntry c 3
      exec (.linkMemorySweepDone e q pos single (some c)) s = .next (s.after (if x.queue e q = [] then x else x.sweepQueue e q pos)))
    ∧ (∀ b : Fin 512, d.b F.DOMAIN_STATE_READY (160 + b / 16) = true → d.rst.blockBusy ≠ some (68 + domHalf (160 + b / 16)) →
      let d1 := (List.range 16).foldl (fun s k => s.judgeBank (16 * (b / 16) + k)) d
      exec (.retireWindow b) s = .next (s.after (d1.setGroup (b / 16) { d1.group (b / 16) with cand := false })))
    ∧ (∀ b : Fin 512, d.takes ⟨.floorBank, b, 0⟩ →
      exec (.bankRetireCommand b) s = .next (s.after ((d.storeReg ⟨.floorBank, b, 0⟩ 0x2000000000000).candidate b).twinUpdate))
    ∧ (∀ b : Fin 512, exec (.bankRetired b) s = .next (s.after (d.bankRetired b)))
    ∧ (∀ i : Fin 576, exec (.reservationCovered i) s = .next (s.after (
      ((if d.ingressOn i = true then d.coverMore i else d).coverHold 0).coverHold 1)))
    ∧ (∀ (g : Fin 32) (v : BitVec 32), d.takes ⟨.groupCtl, g, 0⟩ → v.zeroExtend 64 &&& RegKind.groupCtl.info.rsv = 0 →
      exec (.groupCtlWrite (some g) v) s = .next (s.after (d.wrGroups ⟨.groupCtl, g, 0⟩ (v.zeroExtend 64)).twinUpdate))
    ∧ (∀ v : BitVec 32, d.takes ⟨.floorRsvGroups, 0, 0⟩ → v.zeroExtend 64 &&& RegKind.floorRsvGroups.info.rsv = 0 →
      exec (.groupCtlWrite none v) s = .next (s.after (d.wrGroups ⟨.floorRsvGroups, 0, 0⟩ (v.zeroExtend 64)).twinUpdate))
    ∧ (∀ (p : Fin 512) (q : Fin 8), exec (.escapeMove p q) s = .next (s.after (d.escape p q)))
    ∧ (d.takes ⟨.floorCtl, 0, 0⟩ →
      exec .wipeAll s = .next (s.after (d.wrFloorCtl (d.poked ⟨.floorCtl, 0, 0⟩ 1 1)).twinUpdate))
    ∧ (d.floor.wiping = true → d.floor.late = [] → exec .floorWiped s = .next (s.after (
      ({ d with floor := { d.floor with wiping := false, wipeHalf := none, late := [] } } : Dev).setB F.FLOOR_CTL_FLOOR_WIPED true)))

/-- Arbitration, schedulers, token buckets and gates; the debug port, with the TAPs of its pins (R443): TRST_N resets both, and a TCK cycle moves
both controllers, TDI entering the West die and its TDO the East die. -/
def Obligations.EgressCommandsComplete : Prop :=
  ∀ s : State, let d := s.dev
    (∀ (h : Fin 2) (o : Fin 21) (ready : Bool), exec (.arbitrationDecision h o ready) s = .next (s.after (d.xbRound h o ready)))
    ∧ (∀ e : Fin 578, exec (.egressSchedule e) s = .next (s.after (d.schedule e)))
    ∧ exec .tokenRefill s = .next (s.after d.refill)
    ∧ (∀ p : Fin 512, exec (.gateChange p) s = .next (s.after (d.gateNext p)))
    ∧ (∀ p : Fin 512, d.takes ⟨.gateCtl, p, 0⟩ →
      exec (.gateEnable p) s = .next (s.after (d.wrGateCtl p (d.poked ⟨.gateCtl, p, 0⟩ 1 1)).twinUpdate)
        ∧ exec (.gateSwitch p) s = .next (s.after (d.wrGateCtl p (d.poked ⟨.gateCtl, p, 0⟩ 8 8)).twinUpdate))
    ∧ (∀ p : Fin 512, exec (.gateSwitchTakeover p) s = .next (s.after (d.gateTakeover p)))
    ∧ (∀ p : Fin 512, d.b F.GATE_CTL_EN p = true → d.b F.GATE_CTL_SWITCH_PEND p = true →
      d.gateFirst p (1 - d.gateList p) (d.sched p).swFrom ≤ d.nowNs →
      let d1 := ((d.setF F.GATE_CTL_ACTIVE (1 - d.gateList p) p).setB F.GATE_CTL_SWITCH_PEND false p).setSched p
        { d.sched p with gateStarted := true }
      exec (.gateSwitchTakeover p) s = .next (s.after ((d1.gateEntry p).settleRound p)))
    ∧ (∀ (p : Fin 512) (q : Fin 8), exec (.gateStuck p q) s = .next (s.after (
      if d.gateNever p q then d.setB F.GATE_STATUS_GATE_STUCK true p else d)))
    ∧ (∀ (p : Fin 512) (r : SchedReg) (v : Word), d.takes (schedRegId p r) →
      v &&& (schedRegId p r).width &&& (schedRegId p r).kind.info.rsv = 0 →
      exec (.schedulerParameterWrite p r v) s =
        .next (s.after (d.wrSched (schedRegId p r) (v &&& (schedRegId p r).width)).twinUpdate))
    ∧ (∀ p : Fin 512, (d.sched p).round = false →
      exec (.pendingParametersApply p) s = .next (s.after (d.applyPending p)))
    ∧ (∀ (t : DbgTarget) (write : Bool) (v : BitVec 512) (busy : Bool) (k : Fin 5) (x : Dev), d.dbgAccess t write v busy k = .ok x →
      exec (.debugPortAccess t write v busy k) s = .next (s.after x.twinUpdate))
    ∧ (∀ (write : Bool) (v : BitVec 512) (busy : Bool) (k : Fin 5),
      exec (.debugPortAccess (.pins .trst) write v busy k) s = .next (s.after ({ d with jtag := {} } : Dev).twinUpdate)
        ∧ ∀ tms tdi : Bool, ∃ t : State, exec (.debugPortAccess (.pins (.tck tms tdi)) write v busy k) s = .next t
          ∧ t.dev.jtag.w.st = d.jtag.w.st.next tms ∧ t.dev.jtag.e.st = d.jtag.e.st.next tms
          ∧ (d.jtag.w.st = .testLogicReset → t.dev.jtag.w.ir = 0xFF) ∧ (d.jtag.e.st = .testLogicReset → t.dev.jtag.e.ir = 0xFF)
          ∧ (d.jtag.w.st = .shiftDr → t.dev.jtag.w.sr = d.jtag.w.sr.drop 1 ++ [tdi])
          ∧ (d.jtag.e.st = .shiftDr → t.dev.jtag.e.sr = d.jtag.e.sr.drop 1 ++ [d.jtag.w.tdo]))

/-! ### Hall, Nerup, Twin Hall -/

/-- The master's election and heartbeats (R193-R195), links of the Hall as the master knows them (R210). -/
def Obligations.HallMembershipCommandsComplete : Prop :=
  ∀ s : State, let d := s.dev
    exec .masterClaimTimeout s = .next (s.after (if d.mayClaim then d.claimStart else d).twinUpdate)
    ∧ (∀ m : MsgHdr, exec (.masterClaim m) s =
      .next (s.after (d.onBcast m 0x11 0 [] (fun d => d.claimSeen m.src m.epoch.toNat m.tag.toNat)).twinUpdate))
    ∧ (∀ (m : MsgHdr) (e : BitVec 32) (recorded applied : Bool) (held : BitVec 16), ∃ f : Dev → Dev,
      exec (.claimAck m e recorded applied held) s = .next (s.after (d.onMsg m f))
        ∧ ∀ (x : Dev) (l : List ClaimAck), x.hall.claim = some l →
          (f x).hall.claim = some (l.filter (fun y => y.m != m.src.val)
            ++ [{ m := m.src.val, recd := if recorded then some e.toNat else none, applied := applied, held := held.toNat
                  epoch := m.epoch.toNat }])
          ∧ (f x).hall.high = max x.hall.high (max m.epoch.toNat (if recorded then e.toNat else 0)))
    ∧ (∀ l : List ClaimAck, d.hall.claim = some l →
      exec .claimCollectionDone s = .next (s.after (d.claimDone l).twinUpdate))
    ∧ (d.b F.HALL_CTL_EN = true → d.b F.HALL_STATUS_IS_MASTER = true → d.safe (74 + d.ic) = false →
      exec .heartbeatSend s = .next (s.after (
        ({ d with hall := { d.hall with lastHb := d.epoch } } : Dev).sendBcast 0x10 d.epoch d.hall.tag
          (leBytes (d.f F.HALL_STATUS_MEMBERS) 2))))
    ∧ (∀ (m : MsgHdr) (members : BitVec 16), exec (.heartbeat m members) s =
      .next (s.after (d.onBcast m 0x10 0 (leBytes members.toNat 2) (fun d => d.heartbeatSeen m.src m.epoch.toNat members.toNat)).twinUpdate))
    ∧ (∀ (m : MsgHdr) (port : Fin 512) (st : Fin 8) (peer : Fin 16) (peerPort : Fin 512),
      exec (.linkState m port st peer peerPort) s = .next (s.after (d.onMsg m (fun d =>
        if d.isMaster then (d.noteLink m.src port st peer peerPort).leftCheck peer else d))))
    ∧ (∀ (p : Fin 512) (seq : BitVec 10) (m : CtlMsg), d.ownCommand p m = false → d.hearsFlits p = true →
      seq.toNat = (d.nerupOf p).rx → let t := d.flitsTaken p 1
      (t.b F.HALL_CTL_EN = true → t.isTwinPort p = false → m.hallId.toNat = t.f F.HALL_CTL_HALL_ID → m.hops.val ≠ 15 →
        relayed m.mtype.toNat = true → exec (.controlMessageRelay p seq true m) s = .next (s.after (t.relay p m)))
      ∧ (t.b F.HALL_CTL_EN = false ∨ t.isTwinPort p = true ∨ m.hallId.toNat ≠ t.f F.HALL_CTL_HALL_ID ∨ m.hops.val = 15
          ∨ relayed m.mtype.toNat = false →
        exec (.controlMessageRelay p seq true m) s = .next (s.after (t.dropMsg p))))
    ∧ (∀ (p : Fin 512) (seq : BitVec 10) (good : Bool) (m : CtlMsg), d.ownCommand p m = false → d.hearsFlits p = true →
      good = false ∨ seq.toNat ≠ (d.nerupOf p).rx →
      exec (.controlMessageRelay p seq good m) s = .next (s.after (d.flitMissed p seq.toNat good)))
    ∧ (∀ (p : Fin 512) (seq : BitVec 10) (good : Bool) (m : CtlMsg), d.ownCommand p m = true ∨ d.hearsFlits p = false →
      exec (.controlMessageRelay p seq good m) s = .next (s.after d))
    ∧ (∀ v : BitVec 32, d.takes ⟨.hallCtl, 0, 0⟩ → v.zeroExtend 64 &&& RegKind.hallCtl.info.rsv = 0 →
      exec (.hallEnable v) s = .next (s.after (d.wrHallCtl (v.zeroExtend 64 ||| 0x10000000)).twinUpdate)
        ∧ exec (.hallDisable v) s = .next (s.after (d.wrHallCtl (v.zeroExtend 64 &&& ~~~0x10000000)).twinUpdate))

/-- The Nerup link: training, HELLO, credits, acknowledgement, replay, failure and failover (R196-R209). -/
def Obligations.NerupLinkCommandsComplete : Prop :=
  ∀ s : State, let d := s.dev
    (∀ (p : Fin 512) (rate : Fin 7) (w : Fin 17), d.isFabric p = true → d.lanesReady p = true →
      d.nstate p = 1 ∨ d.nstate p = 7 → d.f F.PORT_STATUS_LTSSM p ≠ 8 → d.widthOk p w = true → rate.val ≤ d.maxRate p →
      5 ≤ rate.val → 4 ≤ w.val →
      exec (.nerupLinkTrained p rate w true true) s = .next (s.after
        ((if d.nstate p = 7 then d.toState p 1 else d).fabricUp p rate w).twinUpdate))
    ∧ (∀ (p : Fin 512) (rate : Fin 7) (w : Fin 17) (flit proto : Bool), d.isFabric p = true → d.lanesReady p = true →
      d.nstate p = 1 ∨ d.nstate p = 7 → d.f F.PORT_STATUS_LTSSM p ≠ 8 → d.widthOk p w = true → rate.val ≤ d.maxRate p →
      proto = false ∨ flit = false ∨ rate.val < 5 ∨ w.val < 4 →
      exec (.nerupLinkTrained p rate w flit proto) s = .next (s.after
        ((if d.nstate p = 7 then d.toState p 1 else d).trainFailed p).twinUpdate))
    ∧ (∀ (p : Fin 512) (rate : Fin 7) (w : Fin 17) (flit proto : Bool), d.isFabric p = true → d.lanesReady p = true →
      2 ≤ d.nstate p → d.nstate p ≤ 5 → d.f F.PORT_STATUS_LTSSM p = 4 → d.widthOk p w = true →
      exec (.nerupLinkTrained p rate w flit proto) s = .next (s.after
        (((d.backToL0 p w rate).sendIdle p (crdRotation 1)).ctlRun p).twinUpdate))
    ∧ (∀ (m : MsgHdr) (pp : Fin 512) (reset current : Bool), d.hearsFlits m.port = true → m.good = true →
      m.seq.toNat = (d.nerupOf m.port).rx → m.hops.val ≠ 15 →
      let t := (d.flitsTaken m.port 1).ctlFreed m.port
      (t.helloOk m = true → exec (.hello m pp reset current) s =
        .next (s.after (t.helloIn m.port m.src pp reset current).twinUpdate))
      ∧ (t.helloOk m = false → exec (.hello m pp reset current) s = .next (s.after (t.helloWrong m.port
        (m.hallId.toNat != (if t.isTwinPort m.port then t.f F.TWIN_CTL_TWIN_HALL_ID else t.f F.HALL_CTL_HALL_ID))).twinUpdate)))
    ∧ (∀ (m : MsgHdr) (pp : Fin 512) (reset current : Bool), d.hearsFlits m.port = true →
      m.good = false ∨ m.seq.toNat ≠ (d.nerupOf m.port).rx →
      exec (.hello m pp reset current) s = .next (s.after (d.flitMissed m.port m.seq.toNat m.good).twinUpdate))
    ∧ (∀ (p : Fin 512) (vc : Fin 16) (k : Fin 8) (crd : BitVec 16), d.hearsFlits p = true → d.nstate p = 3 →
      let d1 := d.crdIn p vc k crd.toNat
      exec (.nerupInitFlit p vc k crd) s = .next (s.after (
        if (d1.nerupOf p).unseen = [] then (d1.toState p 4).tryActive p else d1).twinUpdate))
    ∧ (∀ (p : Fin 512) (ack : BitVec 10) (vc : Fin 16) (k : Fin 8) (crd : BitVec 16), d.hearsFlits p = true → 3 ≤ d.nstate p →
      exec (.nerupFlitAck p ack vc k crd) s = .next (s.after (
        ((d.setNerup p { d.nerupOf p with nak := false }).nerupAck p ack.toNat).crdIn p vc k crd.toNat)))
    ∧ (∀ (p : Fin 512) (ack : BitVec 10) (vc : Fin 16) (k : Fin 8) (crd : BitVec 16), d.hearsFlits p = true → 3 ≤ d.nstate p →
      let d1 := (d.nerupAck p ack.toNat).crdIn p vc k crd.toNat
      exec (.nerupNak p ack vc k crd) s = .next (s.after (
        if (d1.nerupOf p).nak then d1 else (d1.setNerup p { d1.nerupOf p with nak := true }).nerupReplay p).twinUpdate))
    ∧ (∀ p : Fin 512, d.hearsFlits p = true → d.unacked p = true →
      exec (.replayTimeout p) s = .next (s.after (d.nerupReplay p).twinUpdate))
    ∧ (∀ p : Fin 512, d.isFabric p = true → d.f F.PORT_STATUS_LTSSM p = 4 →
      exec (.recoveryLimitExpired p) s = .next (s.after (d.linkFail p).twinUpdate))
    ∧ (∀ p : Fin 512, d.isFabric p = true → d.f F.PORT_STATUS_LTSSM p = 3 →
      exec (.flitSilenceExpired p) s = .next (s.after (d.linkFail p).twinUpdate))
    ∧ (∀ (m : MsgHdr) (p pp : Fin 512), ∃ f : Dev → Dev,
      exec (.failoverQuery m p pp) s = .next (s.after (d.onFailMsg m f).twinUpdate)
        ∧ ∀ (x : Dev) (seq q : Nat), x.isFabric p = true ∨ x.nstate p = 6 → ((x.linkFail p).nerupOf p).frozen = some seq →
          (x.linkFail p).failPath p m.src = some q →
          f x = (x.linkFail p).sendCtl q ((x.linkFail p).msg 0x04 m.src false (x.linkFail p).epoch m.tag.toNat
            (leBytes p 2 ++ leBytes seq 2)))
    ∧ (∀ (m : MsgHdr) (q : Fin 512) (seq : BitVec 10), ∃ f : Dev → Dev,
      exec (.failoverReply m q seq) s = .next (s.after (d.onFailMsg m f).twinUpdate)
        ∧ (∀ (x : Dev) (p : Nat), x.asked (x.isTwinPort m.port) m.src q = some p →
          f x = (x.failMove p seq.toNat).leftCheck (x.f F.NERUP_STATUS_PEER_MEMBER p))
        ∧ ∀ x : Dev, x.asked (x.isTwinPort m.port) m.src q = none → f x = x.inc .hallMsgDrop)
    ∧ (∀ p : Fin 512, d.nstate p = 6 → (d.nerupOf p).query = true →
      exec (.failoverWaitExpired p) s = .next (s.after ((d.failUnsure p).leftCheck (d.f F.NERUP_STATUS_PEER_MEMBER p)).twinUpdate))

/-- The phases of a Hall commit, as a member and as the master (R213-R215). -/
def Obligations.HallCommitCommandsComplete : Prop :=
  ∀ s : State, let d := s.dev
    (∀ (m : MsgHdr) (hp : Fin 1024) (f : BridgeFn) (off : BitVec 12) (be : BitVec 4) (v : BitVec 32),
      exec (.edit m hp f off be v) s = .next (s.after (d.onMsg m (fun d =>
        if d.isMaster then
          ({ d with hall := { d.hall with editQ := d.hall.editQ ++
            [{ src := m.src.val, tag := m.tag.toNat, hallPart := hp.val, f := f, off := off.toNat, be := be, v := v }] } } : Dev).commitFollow
        else d)).twinUpdate))
    ∧ (∀ m : MsgHdr, exec (.editDone m) s = .next (s.after (d.onMsg m (fun d => d.editDone m.tag.toNat))))
    ∧ (∀ (m : MsgHdr) (table : BitVec 8) (off : BitVec 24) (data : List Byte),
      exec (.routePush m table off data) s = .next (s.after (d.onMsg m (fun d =>
        if d.isMaster || d.hall.prepared then d
        else ({ d with hall := { d.hall with staged := d.hall.staged ++ data, segs := d.hall.segs + 1 } } : Dev).pushBytes table.toNat off.toNat data))))
    ∧ (∀ (m : MsgHdr) (segments crc : BitVec 32), exec (.stage m segments crc) s = .next (s.after (d.onBcast m 0x21 d.me
        (leBytes segments.toNat 4 ++ leBytes crc.toNat 4) (fun d =>
        if d.isMaster then d
        else (({ d with hall := { d.hall with want := segments.toNat, expect := crc.toNat } } : Dev).setF F.HALL_STATUS_PHASE 1).sendTree m.src 0x22
          m.epoch.toNat m.tag.toNat (leBytes (crc32c d.hall.staged).toNat 4)))))
    ∧ (∀ m : MsgHdr, exec (.prepare m) s = .next (s.after (d.onMsg m (fun d =>
        if d.isMaster then d
        else (({ d with hall := { d.hall with prepared := d.hall.prepared || d.prepareCode == 0 } } : Dev).setF F.HALL_STATUS_PHASE 2).sendTree
          m.src 0x24 m.epoch.toNat m.tag.toNat (leBytes d.prepareCode 4)))))
    ∧ (∀ m : MsgHdr, exec (.hallCommit m) s = .next (s.after (d.onMsg m (fun d =>
        if d.isMaster then d
        else (((d.setF F.HALL_COMMIT_REC_EPOCH m.epoch.toNat).setB F.HALL_COMMIT_REC_VALID true).setF F.HALL_STATUS_PHASE 3).sendTree
          m.src 0x26 m.epoch.toNat m.tag.toNat []))))
    ∧ (∀ m : MsgHdr, exec (.hallApply m) s = .next (s.after (d.onMsg m (fun d =>
        if d.isMaster then d else d.applyStart m.epoch.toNat m.tag.toNat m.src)).twinUpdate))
    ∧ (∀ m : MsgHdr, exec (.hallAbort m) s = .next (s.after (d.onMsg m (fun d =>
        if d.isMaster then d else d.abortHere.sendTree m.src 0x2A m.epoch.toNat m.tag.toNat []))))
    ∧ (∀ (m : MsgHdr) (crc : BitVec 32), exec (.stageAck m crc) s =
        .next (s.after (d.onMsg m (fun d => (d.phaseAnswer m.src 1).commitFollow)).twinUpdate))
    ∧ (∀ m : MsgHdr, exec (.prepareAck m 0) s = .next (s.after (d.onMsg m (fun d => (d.phaseAnswer m.src 2).commitFollow)).twinUpdate)
      ∧ exec (.hallCommitAck m) s = .next (s.after (d.onMsg m (fun d => (d.phaseAnswer m.src 3).commitFollow)).twinUpdate)
      ∧ exec (.hallApplyAck m) s = .next (s.after (d.onMsg m (fun d => (d.phaseAnswer m.src 4).commitFollow)).twinUpdate))
    ∧ (∀ (m : MsgHdr) (code : BitVec 8), code ≠ 0 → exec (.prepareAck m code) s = .next (s.after (d.onMsg m (fun d =>
        if d.isMaster && d.f F.HALL_STATUS_PHASE == 2 && d.hall.inCommit.contains m.src.val then d.commitAbort else d)).twinUpdate))
    ∧ (∀ m : MsgHdr, exec (.hallAbortAck m) s = .next (s.after (d.onMsg m (fun d =>
        if d.isMaster && d.f F.HALL_STATUS_PHASE == 0 && d.hall.waits.contains m.src.val then
          (if (d.hall.waits.erase m.src.val).isEmpty then
            ({ d with hall := { d.hall with waits := d.hall.waits.erase m.src.val } } : Dev).commitFollow
          else { d with hall := { d.hall with waits := d.hall.waits.erase m.src.val } })
        else d)).twinUpdate))
    ∧ (d.b F.HALL_CTL_EN = true → d.isMaster = true → d.hall.waits ≠ [] → d.f F.HALL_STATUS_PHASE = 4 →
      exec .phaseTimeout s = .next (s.after (d.hall.waits.foldl (fun d m => d.phaseMsg m 0x27) d).twinUpdate))
    ∧ (d.b F.HALL_CTL_EN = true → d.isMaster = true → d.hall.waits ≠ [] → d.f F.HALL_STATUS_PHASE = 2 →
      exec .phaseTimeout s = .next (s.after d.commitAbort.twinUpdate))
    ∧ (d.b F.HALL_CTL_EN = true → d.isMaster = true → d.hall.waits ≠ [] → d.f F.HALL_STATUS_PHASE = 0 →
      exec .phaseTimeout s = .next (s.after d.commitFollow.twinUpdate))
    ∧ (∀ m : MsgHdr, exec (.tableReq m) s = .next (s.after (d.onMsg m (fun d =>
        if d.isMaster then (d.setMember m.src true).pushAll m.src
        else if d.hall.claim.isSome then { d with hall := { d.hall with tableReqs := d.hall.tableReqs.erase m.src.val ++ [m.src.val] } }
        else d))))

/-- Bus locks (R217, R218) and the Twin Hall (R229, R238, R239). -/
def Obligations.LockAndTwinCommandsComplete : Prop :=
  ∀ s : State, let d := s.dev
    (∀ (m : MsgHdr) (dom : Fin 16) (port : Fin 512), exec (.lockReq m dom port) s = .next (s.after (d.onMsg m (fun d =>
      if d.isMaster then { d with hall := { d.hall with lockReqs := d.hall.lockReqs ++ [(m.src.val, port.val, dom.val)] } } else d))))
    ∧ (exec .lockArbitration s = .next (s.after { (List.range 16).foldl Dev.lockArbitrate d with
      hall := { ((List.range 16).foldl Dev.lockArbitrate d).hall with lockReqs := [] } }))
    ∧ (∀ (m : MsgHdr) (dom : Fin 16) (port : Fin 512),
      exec (.lockGrant m dom port) s = .next (s.after (d.onMsg m (fun d => d.lockGranted port)))
        ∧ exec (.lockBusy m dom port) s = .next (s.after (d.onMsg m (fun d => d.lockDenied port)))
        ∧ exec (.lockRelease m dom port) s = .next (s.after (d.onMsg m (fun d =>
          if d.isMaster then d.lockFree dom m.src port else d))))
    ∧ (∀ p : Fin 512, exec (.lockRetry p) s = .next (s.after (d.lockAsk p)))
    ∧ (∀ p : Fin 512, d.isTwinPort p = true → d.nstate p = 5 →
      exec (.twinCheckSend p) s = .next (s.after (d.sendCheck p)))
    ∧ (∀ (m : MsgHdr) (crc : BitVec 32), exec (.twinCheck m crc) s = .next (s.after (d.onFailMsg m (fun d =>
      if d.isTwinPort m.port then d.setNerup m.port { d.nerupOf m.port with crc := some crc.toNat } else d.inc .hallMsgDrop)).twinUpdate))
    ∧ (∀ (src : Fin 16) (b : Fin 4096), exec (.gapWaitExpired src b) s = .next (s.after (d.gapExpire (streamNo src b))))
    ∧ (∀ (m : MsgHdr) (who : Fin 16), d.isTwinPort m.port = false →
      exec (.streamReset m who) s = .next (s.after (d.onBcast m 0x41 0 (leBytes who.val 1) (fun d => (d.clearStreamsOf who).streamAck m who))))
    ∧ (∀ (m : MsgHdr) (who : Fin 16), d.isTwinPort m.port = true →
      exec (.streamReset m who) s = .next (s.after (d.onFailMsg m (fun d => (d.clearStreamsOf who).streamAck m who))))
    ∧ (∀ (m : MsgHdr) (who : Fin 16), exec (.streamResetAck m who) s = .next (s.after (d.onFailMsg m (fun d =>
      if who.val = d.me then { d with twin := { d.twin with resetWait := d.twin.resetWait.erase m.src.val } } else d))))
    ∧ exec .streamResetTimeout s = .next (s.after { d with twin := { d.twin with resetWait := [] } })

/-! ### Porters, rings, translation, Stalls, Ledger -/

/-- Polls, fetches, the rings' registers, parking, records, tags (R262-R282, R303). -/
def Obligations.RingCommandsComplete : Prop :=
  ∀ s : State, let d := s.dev
    (∀ (n : Fin 64) (st : Fin 1024), exec (.doorbellPoll n st) s = .next (s.after (d.issuePoll n st)))
    ∧ (∀ (n : Fin 64) (st : Fin 1024) (pis : List (BitVec 16)) (slot : Nat) (t : TagSt),
      d.outstanding n (fun t => t.kind == 3 && t.stall == st.val) = some (slot, t) → d.staleTag t = false →
      (∀ r : Nat, r < 8 → (d.answered n slot t).b F.RING_CTL_EN st r = true →
        (pis.map BitVec.toNat).getD r 0 < (d.answered n slot t).rsize (8 * st + r)) →
      ∃ x : Dev, (d.answered n slot t).pollDone n st (pis.map BitVec.toNat) = .ok x
        ∧ exec (.pollComplete n st true pis) s = .next (s.after x))
    ∧ (∀ (n : Fin 64) (st : Fin 1024) (pis : List (BitVec 16)) (slot : Nat) (t : TagSt),
      d.outstanding n (fun t => t.kind == 3 && t.stall == st.val) = some (slot, t) → d.staleTag t = false →
      exec (.pollComplete n st false pis) s = .next (s.after (((d.answered n slot t).pollFail st).run n)))
    ∧ (∀ (n : Fin 64) (k : Nat), (d.porter n).ring = some k → d.porterOn n = true → d.tag14 = true →
      exec (.descriptorFetch n) s = .next (s.after ((d.issueFetch n k).run n)))
    ∧ (∀ (n : Fin 64) (ok : Bool) (l : List (BitVec 512)) (slot : Nat) (t : TagSt),
      d.outstanding n (fun t => t.kind == 2) = some (slot, t) → d.staleTag t = false →
      exec (.descriptorReadComplete n ok l) s =
        .next (s.after (if ok then (d.answered n slot t).fetched n t l else (d.answered n slot t).readFail n t 0)))
    ∧ (∀ (n : Fin 64) (k : Nat), (d.porter n).ring = some k → d.porterOn n = true → d.tag14 = true →
      exec (.dataReadIssue n) s = .next (s.after ((d.issueRead n k).run n)))
    ∧ (∀ (n : Fin 64) (c : Tlp), (∀ e ∈ (d.porter n).tags, ∀ t : TagSt, e.2 = some t → d.tagNamed n c t = false) →
      exec (.porterCompletion n c) s = .next (s.after (if d.porterSafe n then d.inc .staleCpl 1 n else d.unexpected n)))
    ∧ (∀ (n : Fin 64) (c : Tlp) (slot : Nat) (t : TagSt) (rest : Tbl (Option TagSt)), (d.errs.look {} (78 + n.val / 32)).bad = [] →
      (d.porter n).tags = (slot, some t) :: rest → d.tagNamed n c t = true → t.quar = false →
      (d.porterSafe n = true → exec (.porterCompletion n c) s = .next (s.after (d.staleIn n slot t c)))
      ∧ (d.porterSafe n = false → d.staleTag t = true →
        exec (.porterCompletion n c) s = .next (s.after ((d.staleIn n slot t c).run n)))
      ∧ (d.porterSafe n = false → d.staleTag t = false → t.kind = 0 → c.status = .sc → c.ep = false → t.expects c = true →
        exec (.porterCompletion n c) s = .next (s.after (d.dataIn n slot t c))))
    ∧ (∀ (n : Fin 64) (slot : Fin 512) (t : TagSt), d.tagAt n slot = some t → t.quar = false →
      exec (.completionTimeout n slot) s = .next (s.after (d.timedOut n slot t)))
    ∧ (∀ (n : Fin 64) (slot : Fin 512) (t : TagSt), d.tagAt n slot = some t → t.quar = true →
      exec (.quarantineEnd n slot) s = .next (s.after ((d.freeTag n slot).run n)))
    ∧ (∀ (n : Fin 64) (slot : Fin 512) (t : TagSt) (ok : Bool), d.tagAt n slot = some t → t.quar = false → t.kind = 4 →
      d.staleTag t = false → exec (.flushReadComplete n slot ok) s =
        .next (s.after (((d.answered n slot t).flushed (8 * t.stall + t.ring) t ok).run n)))
    ∧ (∀ n : Fin 64, d.porterOn n = true → exec (.completionRecord n) s = .next (s.after (d.recordNext n (d.busyRings n))))
    ∧ (∀ (n : Fin 64) (k : Nat), (d.porter n).ring = some k → (d.porter n).park = true → d.parkReady k = true →
      exec (.preemptionDone n) s = .next (s.after ((d.parkDone n k).run n)))
    ∧ (∀ (st : Fin 1024) (r : Fin 8), exec (.ringStopped st r) s = .next (s.after (d.ringStopped (8 * st + r))))
    ∧ (∀ (st : Fin 1024) (r : Fin 8), d.takesStall st ⟨.ringCtl, st, r⟩ →
      exec (.ringEnable st r) s = .next (s.after (d.wrRingCtl st r (d.poked ⟨.ringCtl, st, r⟩ 1 1)).twinUpdate)
        ∧ exec (.ringDisable st r) s = .next (s.after (d.wrRingCtl st r (d.poked ⟨.ringCtl, st, r⟩ 1 0)).twinUpdate)
        ∧ exec (.ringResume st r) s = .next (s.after (d.wrRingCtl st r (d.poked ⟨.ringCtl, st, r⟩ 0x20000 0x20000)).twinUpdate))

/-- A descriptor's operation begins by its OP (R264-R268, R330): 1 COPY, 2 FILL, 3 INLINE, 4 FENCE, 5 NOTIFY, 6 LEDGER_SYNC, any other an
error record. -/
def Obligations.DescriptorOperationsComplete : Prop :=
  ∀ (s : State) (n : Fin 64), let d := s.dev
    exec (.porterCopy n) s = .next (s.after (d.startOp n (fun o => o == 1) (fun d k x => d.startCopy n k x)))
    ∧ exec (.porterFill n) s = .next (s.after (d.startOp n (fun o => o == 2) (fun d k x => d.startCopy n k x)))
    ∧ exec (.porterInline n) s = .next (s.after (d.startOp n (fun o => o == 3) (fun d k x => d.startInline n k x)))
    ∧ exec (.porterFence n) s = .next (s.after (d.startOp n (fun o => o == 4) (fun d k x => d.startWait n k x)))
    ∧ exec (.porterNotify n) s = .next (s.after (d.startOp n (fun o => o == 5) (fun d k x => d.startWait n k x)))
    ∧ exec (.ledgerSync n) s = .next (s.after (d.startOp n (fun o => o == 6) (fun d k x =>
      if d.syncPermitted (k / 8) (x.num 0x28 8) then d.startWait n k x else d.startBad n k x 0x0E)))
    ∧ exec (.badOpcode n) s = .next (s.after (d.startOp n (fun o => o == 0 || decide (6 < o)) (fun d k x => d.startBad n k x 0x02)))

/-- Translation: answers, faults and their responses, invalidations (R283-R302). -/
def Obligations.TranslationCommandsComplete : Prop :=
  ∀ s : State, let d := s.dev
    (∀ (st : Fin 1024) (v : Word), d.takes ⟨.stallXlat, st, 0⟩ → v &&& RegKind.stallXlat.info.rsv = 0 →
      exec (.stallXlatWrite st v) s = .next (s.after (d.wrStallXlat st v).twinUpdate))
    ∧ (∀ (h : Fin 2) (w : Fin 64) (ok : Bool) (entry : BitVec 64), exec (.walkReadComplete h w ok entry) s =
      .next (s.after (d.walkAnswer h w 5 (fun d _ y => if ok then d.walkEntry h w y entry else d.walkEnd h w (some (5, y.level))))))
    ∧ (∀ (h : Fin 2) (w : Fin 64) (ok r wr u : Bool) (a : BitVec 64) (size : Nat), exec (.atsCompletion h w ok r wr u a size) s =
      .next (s.after (d.walkAnswer h w 6 (fun d _ y =>
        if ok then d.atsEntry h w y r wr u a.toNat size else d.walkEnd h w (some (7, 0))))))
    ∧ (∀ (st : Fin 1024) (prg : BitVec 9) (c : PrgCode), exec (.prgResponse st prg c) s = .next (s.after (d.prgAnswer st prg.toNat c)))
    ∧ (∀ h : Fin 2, exec (.faultRecordWrite h) s = .next (s.after (d.faultRecord h)))
    ∧ (∀ (h : Fin 2) (v : BitVec 32), d.takes ⟨.fqCi, h, 0⟩ → v.zeroExtend 64 &&& RegKind.fqCi.info.rsv = 0 →
      exec (.fqCiWrite h v) s = .next (s.after (d.wrFqCi h (v.zeroExtend 64)).twinUpdate))
    ∧ (∀ (h : Fin 2) (v : Word), d.takes ⟨.fqBase, h, 0⟩ → v &&& RegKind.fqBase.info.rsv = 0 →
      exec (.fqBaseWrite h v) s = .next (s.after (d.wrFqBase h v).twinUpdate))
    ∧ (∀ (h : Fin 2) (st : Fin 1024) (r : Fin 8) (poll : Bool), d.takes ⟨.xlatResp, h, 0⟩ →
      exec (.faultResume h st r poll) s = .next (s.after (d.faultResume h st r poll).twinUpdate)
        ∧ exec (.faultAbort h st r poll) s = .next (s.after (d.respAbort h st r poll).twinUpdate))
    ∧ (∀ (h : Fin 2) (st : Fin 1024) (r : Fin 8) (poll : Bool),
      exec (.faultWaitExpired h st r poll) s = .next (s.after (d.faultTimeout h st r poll)))
    ∧ (∀ v : BitVec 32, d.takes ⟨.xlatInvCtl, 0, 0⟩ → v.zeroExtend 64 &&& RegKind.xlatInvCtl.info.rsv = 0 →
      exec (.xlatInvalidate v) s =
        .next (s.after ((d.storeReg ⟨.xlatInvCtl, 0, 0⟩ (v.zeroExtend 64)).wrInvCtl (v.zeroExtend 64)).twinUpdate))
    ∧ exec .invalidationDone s = .next (s.after d.invDone)
    ∧ (∀ (st : Fin 1024) (itag : Fin 32) (pasid : Option (BitVec 20)) (a : BitVec 64) (size : Nat),
      let n := 2 ^ (max size 12 - 12)
      exec (.atsInvalidationRequest st itag pasid a size) s = .next (s.after (
        d.invStart { scope := 2, stall := st, page := a.toNat / 4096 / n * n, pages := n, itag := some itag.val, pasid := pasid })))

/-- Stalls: binding, shares, turns, mailboxes, silencing (R309-R321). -/
def Obligations.StallCommandsComplete : Prop :=
  ∀ s : State, let d := s.dev
    (∀ (st : Fin 1024) (v : BitVec 32), d.takes ⟨.stallBind, st, 0⟩ → v.zeroExtend 64 &&& RegKind.stallBind.info.rsv = 0 →
      exec (.stallBindWrite st v) s = .next (s.after (d.wrBind st (v.zeroExtend 64)).twinUpdate))
    ∧ (∀ (st : Fin 1024) (v : Word), d.takes ⟨.stallShare, st, 0⟩ → v &&& RegKind.stallShare.info.rsv = 0 →
      exec (.stallShareWrite st v) s = .next (s.after (d.wrShare st v).twinUpdate))
    ∧ (∀ n : Fin 64, exec (.stallTurnEnd n) s = .next (s.after ((d.turnEnd n).run n)))
    ∧ (∀ (st : Fin 1024) (len : BitVec 7), d.takesStall st ⟨.mbCtl, st, 0⟩ →
      exec (.mailboxSend st len) s = .next (s.after
        (d.wrMbCtl st (d.poked ⟨.mbCtl, st, 0⟩ 0xFF (BitVec.ofNat 64 (2 * len.toNat + 1)))).twinUpdate))
    ∧ (∀ st : Fin 1024, d.takesStall st ⟨.mbCtl, st, 0⟩ →
      exec (.mailboxAck st) s = .next (s.after (d.wrMbCtl st (d.poked ⟨.mbCtl, st, 0⟩ 0x400 0x400)).twinUpdate))
    ∧ (∀ (st : Fin 1024) (len : BitVec 7), d.takes ⟨.mbMgrCtl, st, 0⟩ →
      exec (.mailboxMgrSend st len) s = .next (s.after
        (d.wrMbMgrCtl st (d.poked ⟨.mbMgrCtl, st, 0⟩ 0xFF (BitVec.ofNat 64 (2 * len.toNat + 1)))).twinUpdate))
    ∧ (∀ st : Fin 1024, d.takes ⟨.mbMgrCtl, st, 0⟩ →
      exec (.mailboxMgrAck st) s = .next (s.after (d.wrMbMgrCtl st (d.poked ⟨.mbMgrCtl, st, 0⟩ 0x400 0x400)).twinUpdate)
        ∧ exec (.mailboxClear st) s = .next (s.after (d.wrMbMgrCtl st (d.poked ⟨.mbMgrCtl, st, 0⟩ 0x80000 0x80000)).twinUpdate))
    ∧ (∀ st : Fin 1024, exec (.stallBusMasterClear st) s = .next (s.after (if d.bme (.stall st) then d.masterOff st else d)))
    ∧ (∀ st : Fin 1024, exec (.stallFlr st) s = .next (s.after (if d.vfExists st then d.stallFlr st else d)))
    ∧ (∀ (en : Bool) (num : BitVec 16), exec (.vfDisable en num) s = .next (s.after (d.vfWrite en num.toNat)))
    ∧ exec .porterPfFlr s = .next (s.after d.porterFlr)
    ∧ (∀ st : Fin 1024, exec (.flrComplete st) s = .next (s.after (
      if d.b F.STALL_MGR_STATUS_FLR_BUSY st then (d.mbClear st).setB F.STALL_MGR_STATUS_FLR_BUSY false st else d)))

/-- The Ledger: folds, flushes, swaps, contexts (R322-R334). -/
def Obligations.LedgerCommandsComplete : Prop :=
  ∀ s : State, let d := s.dev
    (∀ h : Fin 2, exec (.ledgerFold h) s = .next (s.after (d.foldStart h)))
    ∧ (∀ (h : Fin 2) (ok : Bool) (data : BitVec 64) (writeOk : Bool),
      exec (.ledgerFoldReadComplete h ok data writeOk) s = .next (s.after (d.foldRead h ok data writeOk)))
    ∧ (∀ c : Fin 256, d.ledState c = 1 → d.ledger.flushes.any (fun f => f.ctx == c.val && f.kind == 0) = false →
      exec (.ledgerPeriodicFlush c) s = .next (s.after (d.flushStart c 0)))
    ∧ (∀ c : Fin 256, exec (.ledgerFlushDone c) s = .next (s.after ((d.flushesEnd c).syncsRun c)))
    ∧ (∀ c : Fin 256, d.takes ⟨.ledgerCmd, c, 0⟩ →
      exec (.ledgerFlush c) s = .next (s.after (((d.storeReg ⟨.ledgerCmd, c, 0⟩ 1).ledgerFlush c).syncsRun c).twinUpdate)
        ∧ exec (.ledgerSwap c) s = .next (s.after (((d.storeReg ⟨.ledgerCmd, c, 0⟩ 2).ledgerSwap c).syncsRun c).twinUpdate)
        ∧ exec (.ledgerFaultClear c) s = .next (s.after ((d.storeReg ⟨.ledgerCmd, c, 0⟩ 0x20).syncsRun c).twinUpdate))
    ∧ (∀ (c : Fin 256) (v : Word), d.takes ⟨.ledgerCtx, c, 0⟩ → (v ||| 1) &&& RegKind.ledgerCtx.info.rsv = 0 →
      exec (.ledgerEnable c v) s = .next (s.after (d.wrLedgerCtx c (v ||| 1)).twinUpdate))
    ∧ (∀ c : Fin 256, d.takes ⟨.ledgerCtx, c, 0⟩ →
      exec (.ledgerTeardown c) s = .next (s.after (d.wrLedgerCtx c (d.poked ⟨.ledgerCtx, c, 0⟩ 1 0)).twinUpdate))

/-! ### Errors, clocks, domains, resets, boot, management, time -/

/-- The scrub's parity reads and upsets, injections, temperature, pending MSI-X messages (R341, R350, R383, R404). -/
def Obligations.ErrorCommandsComplete : Prop :=
  ∀ s : State, let d := s.dev
    (∀ (b : Fin 88) (double : Bool), exec (.paritySweep b none double) s = .next (s.after d.twinUpdate))
    ∧ (∀ (b : Fin 88) (off : BitVec 26) (double : Bool),
      exec (.paritySweep b (some off) double) s = .next (s.after (d.upsetAt b off.toNat double).twinUpdate))
    ∧ (∀ (b : Fin 88) (off : BitVec 26), d.takes ⟨.errInject, b, 0⟩ →
      exec (.injectParity b off) s = .next (s.after (d.wrInject b (BitVec.ofNat 64 (64 * (off.toNat / 4) + 1))).twinUpdate))
    ∧ (∀ b : Fin 88, d.takes ⟨.errInject, b, 0⟩ →
      exec (.injectMemCorr b) s = .next (s.after (d.wrInject b 2).twinUpdate)
        ∧ exec (.injectMemUncorr b) s = .next (s.after (d.wrInject b 4).twinUpdate)
        ∧ exec (.injectSafe b) s = .next (s.after (d.wrInject b 8).twinUpdate))
    ∧ exec .testModeDeassert s = .next (s.after d.testModeOff)
    ∧ (∀ (h : Fin 2) (temp : BitVec 12), exec (.thermalConversion h temp) s = .next (s.after (d.thermal h temp).twinUpdate))
    ∧ (∀ (e : Fin 16) (bme : Bool), exec (.pendingMsixSend e bme) s = .next (s.after (d.msixFreed e bme)))

/-- The reference and divided clocks, droop, and the power domains (R366-R384). -/
def Obligations.ClockAndDomainCommandsComplete : Prop :=
  ∀ s : State, let d := s.dev
    (∀ h : Fin 2, d.b F.CLK_STATUS_PLL_LOCK h = true → exec (.refclkLoss h) s = .next (s.after (
      ((d.setB F.CLK_STATUS_HOLDOVER true h).setB F.CLK_STATUS_LOCK_LOST true h).setClock h { d.clock h with relock := false })))
    ∧ (∀ h : Fin 2, d.b F.CLK_STATUS_HOLDOVER h = true →
      exec (.refclkReturn h) s = .next (s.after (d.setClock h { d.clock h with relock := true })))
    ∧ (∀ h : Fin 2, exec (.pllLock h) s = .next (s.after (d.pllLocked h)))
    ∧ (∀ (h : Fin 2) (i : Fin 32),
      exec (.droopSag h i false) s = .next (s.after ((d.setF ⟨.droopStatus, i, 1⟩ 1 h).slowClock h))
        ∧ exec (.droopSag h i true) s = .next (s.after (((d.setF ⟨.droopStatus, i, 1⟩ 1 h).setF ⟨.droopStatus, 32 + i, 1⟩ 1 h).slowClock h))
        ∧ exec (.droopSagClear h i true) s = .next (s.after (d.setF ⟨.droopStatus, 32 + i, 1⟩ 0 h))
        ∧ exec (.droopSagClear h i false) s =
          .next (s.after ((d.setF ⟨.droopStatus, 32 + i, 1⟩ 0 h).setF ⟨.droopStatus, i, 1⟩ 0 h)))
    ∧ (∀ h : Fin 2, exec (.droopRecoveryStep h) s = .next (s.after (d.recoverClock h)))
    ∧ (∀ (h : Fin 2) (v : BitVec 32), d.takes ⟨.droopCtl, h, 0⟩ → v.zeroExtend 64 &&& RegKind.droopCtl.info.rsv = 0 →
      exec (.droopCtlWrite h v) s = .next (s.after (d.wrDroop h (v.zeroExtend 64)).twinUpdate))
    ∧ (∀ n : Fin 208, d.takes ⟨.domainCtl, n, 0⟩ →
      exec (.domainPowerOn n) s = .next (s.after (d.wrDomain n (d.poked ⟨.domainCtl, n, 0⟩ 1 1)).twinUpdate)
        ∧ exec (.domainPowerOff n) s = .next (s.after (d.wrDomain n (d.poked ⟨.domainCtl, n, 0⟩ 1 0)).twinUpdate)
        ∧ exec (.domainClockStop n) s = .next (s.after (d.wrDomain n (d.poked ⟨.domainCtl, n, 0⟩ 2 0)).twinUpdate)
        ∧ exec (.domainClockStart n) s = .next (s.after (d.wrDomain n (d.poked ⟨.domainCtl, n, 0⟩ 2 2)).twinUpdate))
    ∧ (∀ n : Fin 208, exec (.domainRampStart n) s = .next (s.after (d.rampStart n))
      ∧ exec (.domainWakeDone n) s = .next (s.after (d.wakeDone n).twinUpdate)
      ∧ exec (.domainOffDone n) s = .next (s.after (d.offDone n)))

/-- Resets, roles and the lifecycle (R386-R401, R438, R446). -/
def Obligations.ResetAndRoleCommandsComplete : Prop :=
  ∀ s : State, let d := s.dev
    (d.rst.perstLow = false → exec (.perstInAssert .long) s = .next s.perstTaken)
    ∧ exec (.perstInAssert .glitch) s = .next s
    ∧ (d.rst.perstLow = false → exec (.perstInAssert .short) s = .next (
      if d.freeVal.getLsbD 0 then ({ s with dev := d.useFree } : State).perstTaken else { s with dev := d.useFree }))
    ∧ (∀ straps : Straps, d.rst.perstLow = true → exec (.perstInRelease straps) s = .next (s.after (d.sample straps)))
    ∧ (∀ vddIo : Bool, exec (.supplyFault vddIo) s =
      .next (s.cold 1 { d with rst := { d.rst with supplies := false, vddIo := d.rst.vddIo && !vddIo } }))
    ∧ exec .supplyValid s = .next (s.after { d with rst := { d.rst with supplies := true, vddIo := true } })
    ∧ (∀ (h : Fin 2) (ok : Bool), exec (.fuseShadowLoaded h ok) s = .next (s.after (d.shadowLoaded s.fuses h ok)))
    ∧ (∀ answered : Bool, exec (.halfClaim answered) s = .next (s.after (d.strapVote answered).twinUpdate))
    ∧ (∀ sentW sentE answered : Bool,
      exec (.standoffVote sentW sentE answered) s = .next (s.after (d.serialVote sentW sentE answered).twinUpdate))
    ∧ exec .halfHeartbeat s = .next (s.after d)
    ∧ (∀ disputed : Bool, exec (.halfHeartbeatLoss disputed) s = .next (s.after (d.heartbeatLost disputed).twinUpdate))
    ∧ (d.takes ⟨.resetCtl, 0, 0⟩ →
      exec .softReset s = .next (s.after (d.wrResetCtl (d.poked ⟨.resetCtl, 0, 0⟩ 1 1)).twinUpdate))
    ∧ (∀ b : Fin 128, d.takes ⟨.resetCtl, 0, 0⟩ →
      exec (.blockReset b) s = .next (s.after (d.wrResetCtl (BitVec.ofNat 64 (2 * b + 0x100))).twinUpdate))
    ∧ (∀ x : Dev, d.blockResetDone = .ok x → exec .blockResetDone s = .next (s.after x.twinUpdate))
    ∧ exec .wipeDone s = .next (s.after d.wipeDone)
    ∧ (∀ (door : Door) (t : BitVec 2) (x : Dev),
      (d.lcWrite door (t.zeroExtend 32 ||| 4) = .ok x → exec (.lcArm door t) s = .next (s.after x.twinUpdate))
        ∧ (d.lcWrite door (t.zeroExtend 32 ||| 8) = .ok x → exec (.lcGo door t) s = .next (s.after x.twinUpdate)))
    ∧ exec .lcArmExpired s = .next (s.after (d.setB F.LC_CTL_ARMED false))
    ∧ (let f := s.fuses.burn (lcCode d.rst.burnTarget) 4
      d.b F.LC_CTL_BUSY = true → exec .fuseBurnDone s =
        .next (({ s with fuses := f } : State).after (((d.softReset 3 d.bootStage).loadShadow f 0).loadShadow f 1).twinUpdate))

/-- The boot: the image, its records one by one, their failures (R395-R398). -/
def Obligations.BootCommandsComplete : Prop :=
  ∀ s : State, let d := s.dev
    (∀ a b : Option (List Byte), exec (.bootImageChecked a b) s = .next (s.after (d.imageChecked a b).twinUpdate))
    ∧ (∀ (r : List Byte) (x : Dev), d.recordOf 1 = some r → (d.recordWrite r false).bind Dev.recordDone = .ok x →
      exec .write32 s = .next (s.after x.twinUpdate))
    ∧ (∀ (r : List Byte) (x : Dev), d.recordOf 2 = some r → (d.recordWrite r true).bind Dev.recordDone = .ok x →
      exec .write64 s = .next (s.after x.twinUpdate))
    ∧ (∀ (r : List Byte) (x : Dev), d.recordOf 3 = some r → d.poll r = .ok x → exec .poll32 s = .next (s.after x.twinUpdate))
    ∧ (∀ r : List Byte, d.recordOf 3 = some r → d.rst.replay = none →
      exec .poll32Timeout s = .next (s.after (d.bootFail 2 d.rst.recIdx).twinUpdate))
    ∧ (∀ (r : List Byte) (x : Dev), d.recordOf 3 = some r → d.rst.replay.isSome = true → d.recordDone = .ok x →
      exec .poll32Timeout s = .next (s.after x.twinUpdate))
    ∧ (∀ r : List Byte, d.recordOf 4 = some r →
      exec .delay s = .next (s.after { d with rst := { d.rst with delaying := true } }))
    ∧ (∀ x : Dev, d.rst.delaying = true → d.served = true →
      ({ d with rst := { d.rst with delaying := false } } : Dev).recordDone = .ok x →
      exec .delayExpired s = .next (s.after x.twinUpdate))
    ∧ (∀ r : List Byte, d.recordOf 0 = some r → exec .endRecord s = .next (s.after d.sectionDone))
    ∧ (∀ r : List Byte, d.record = some r → 4 < recOp r → exec .badRecord s = .next (s.after (d.bootFail 3 d.rst.recIdx).twinUpdate))

/-- The management doors: I3C, its windows, the event queue, the Tally unit (R404-R420). -/
def Obligations.ManagementCommandsComplete : Prop :=
  ∀ s : State, let d := s.dev
    (∀ adr a : BitVec 7, d.i3cAlive = true →
      (adr = 0x5C → exec (.i3cDynamicAddress false adr a) s = .next (s.after { d with mgmt := { d.mgmt with dynAddr := some a } }))
        ∧ (adr ≠ 0x5C → exec (.i3cDynamicAddress false adr a) s = .next (s.after d))
        ∧ exec (.i3cDynamicAddress true adr a) s = .next (s.after (({ d with mgmt := { d.mgmt with dynAddr := some a } } : Dev).emit
          (.i3cId d.provisionalId))))
    ∧ d.provisionalId.toNat = 0x1F6A * 2 ^ 33 + (d.reg .dieSerial (if d.served then d.ic else 0)).toNat % 2 ^ 32
    ∧ (∀ (adr : BitVec 7) (ptr : Byte) (data : List Byte), exec (.i3cPrivateWrite adr ptr data) s = .next (s.after (d.i3cWrite adr ptr data)))
    ∧ (∀ (adr : BitVec 7) (n : Nat), exec (.i3cPrivateRead adr n) s = .next (s.after (d.i3cRead adr n)))
    ∧ (d.i3cAlive = true → exec .evqDataRead s = .next (s.after d.evqDataRead))
    ∧ (d.takes ⟨.evqCmd, 0, 0⟩ → exec .dropRest s = .next (s.after d.evqDropRest.twinUpdate)
      ∧ exec .evqFlush s = .next (s.after d.evqFlush.twinUpdate))
    ∧ (∀ write wide : Bool, d.i3cAlive = true → exec (.windowGo write wide) s = .next (s.after (d.windowGo write wide)))
    ∧ (∀ x : Dev, d.windowDone = .ok x → exec .windowAccessDone s = .next (s.after x.twinUpdate))
    ∧ (d.i3cAlive = true → exec .imageStart s = .next (s.after d.imgStart) ∧ exec .imageEnd s = .next (s.after d.imgEnd)
      ∧ ∀ data : List Byte, exec (.imageData data) s = .next (s.after (d.imgData data)))
    ∧ exec .imageWindowOpen s = .next (s.after d.imgReady)
    ∧ (d.takes ⟨.tallyCtl, 0, 0⟩ →
      exec .snapshot s = .next (s.after (d.wrTallyCtl (d.poked ⟨.tallyCtl, 0, 0⟩ 4 4)).twinUpdate)
        ∧ exec .release s = .next (s.after (d.wrTallyCtl (d.poked ⟨.tallyCtl, 0, 0⟩ 8 8)).twinUpdate)
        ∧ exec .tallyNow s = .next (s.after (d.wrTallyCtl (d.poked ⟨.tallyCtl, 0, 0⟩ 2 2)).twinUpdate))
    ∧ (d.b F.TALLY_CTL_EN = true → exec .tallyPass s = .next (s.after d.tallyStart.twinUpdate))
    ∧ (∀ (ok : Bool) (l : List (BitVec 32)) (pageOk : Bool),
      exec (.tallyListReadComplete ok l pageOk) s = .next (s.after (d.tallyList ok (l.map BitVec.toNat) pageOk).twinUpdate))
    ∧ (∀ w : MgmtRead, exec (.mgmtPfCompletionTimeout w) s = .next (s.after (d.mgmtTimeout w).twinUpdate))

/-- Device time, its sources and its pulses (R421-R424). -/
def Obligations.TimeCommandsComplete : Prop :=
  ∀ s : State, let d := s.dev
    (∀ v : Word, d.takes ⟨.timeSetReg, 0, 0⟩ → v &&& RegKind.timeSetReg.info.rsv = 0 →
      exec (.timeSet v) s = .next (s.after (d.stepTo v.toNat).twinUpdate))
    ∧ (∀ v : BitVec 32, d.takes ⟨.timeCtl, 0, 0⟩ → v.zeroExtend 64 &&& RegKind.timeCtl.info.rsv = 0 →
      exec (.timeSourceChange v) s = .next (s.after (d.wrTimeCtl (v.zeroExtend 64)).twinUpdate))
    ∧ (d.ic = 0 → exec .timeAlign s = .next (s.after { d with time := { d.time with te := d.time.tw } }))
    ∧ (d.ic ≠ 0 → exec .timeAlign s = .next (s.after { d with time := { d.time with tw := d.time.te } }))
    ∧ (d.timeSrc = 2 → d.time.lost = false → exec .ppsEdge s = .next (s.after (d.correct d.nearestSecond d.nowNs)))
    ∧ (d.timeSrc = 2 → d.time.lost = true → exec .ppsEdge s = .next (s.after ((d.correct d.nearestSecond d.nowNs).postTime 1)))
    ∧ (d.timeSrc = 2 → d.time.lost = false →
      exec .ppsLost s = .next (s.after (((d.setB F.TIME_STATUS_PPS_LOST true).loseRef).postTime 0)))
    ∧ (d.b F.TIME_CTL_PPS_OUT_EN = true → d.time.ppsOut = false → d.sinceSecond < (d.reg .timeIncr).toNat →
      exec (.ppsOutPulse true) s = .next (s.after (({ d with time := { d.time with ppsOut := true } } : Dev).emit (.pps true))))
    ∧ (d.time.ppsOut = true → 10 ^ 6 * 2 ^ 32 ≤ d.sinceSecond ∨ d.b F.TIME_CTL_PPS_OUT_EN = false →
      exec (.ppsOutPulse false) s = .next (s.after (({ d with time := { d.time with ppsOut := false } } : Dev).emit (.pps false))))
    ∧ (let p := d.f F.TIME_CTL_PTM_PORT
      d.timeSrc = 1 → d.b F.PORT_CTL_EN p = true → d.role p = 1 → d.b F.PORT_STATUS_DL_ACTIVE p = true →
      exec .ptmDialog s = .next (s.after (({ d with time := { d.time with dialog := some d.nowNs } } : Dev).emit (.link p .ptmRequest))))
    ∧ (∀ (master delay : BitVec 64) (t0 : Nat), d.timeSrc = 1 → d.time.dialog = some t0 →
      let d1 := d.correct (master.toNat - delay.toNat) t0
      exec (.ptmDialogComplete master delay) s = .next (s.after { d1 with time := { d1.time with dialog := none } }))
    ∧ (d.timeSrc = 1 → d.time.dialog.isSome = true →
      exec .ptmFail s = .next (s.after (((d.setB F.TIME_STATUS_PTM_FAIL true).loseRef).postTime 3)))
    ∧ (∀ p : Fin 512, d.b F.PORT_STATUS_DL_ACTIVE p = true → d.role p ≤ 1 → d.ptmOn p = true →
      exec (.ptmRequest p) s = .next (s.after (d.emit (.link p (.ptmResponse (
        if d.timeSrc = 0 ∨ d.b F.TIME_STATUS_SYNCED = true then some (BitVec.ofNat 64 d.nowNs) else none))))))

/-! ### The whole machine -/

/-- R337: SIGNALLED of each of the 88 error blocks follows the block's interrupt condition. Every step keeps this. -/
def Obligations.ErrorBlocksStaySettled : Prop :=
  ∀ s t : State, s.dev.settled → step s = .next t → t.dev.settled

/-- It holds right after reset. -/
def Obligations.ResetIsSettled : Prop := State.reset.dev.settled

/-- R399, R401: no step clears a fuse bit or changes a serial number, and outside a burn no step changes a fuse. -/
def Obligations.FusesOnlyBurn : Prop :=
  ∀ s t : State, step s = .next t →
    s.fuses.keeps t.fuses ∧ (s.dev.b F.LC_CTL_BUSY = false → t.fuses = s.fuses)

/-- R386, R381, R363: right after cold reset no command waits, every register and configuration dword holds its reset value, every
switched domain is OFF with its clock enabled, every slot power channel is OFF with EN clear, and no half is in charge. -/
def Obligations.ResetState : Prop :=
  let d := State.reset.dev
  State.reset.pending = [] ∧ d.out = []
    ∧ (∀ (k : RegKind) (i j : Nat), d.reg k i j = RegId.reset ⟨k, i, j⟩)
    ∧ (∀ (f : Fn) (off : Nat), d.cf f off = CfgId.reset ⟨f, off / 4⟩)
    ∧ (∀ n : Nat, n < 206 → d.power n = 0 ∧ d.b F.DOMAIN_CTL_PWR_EN n = false ∧ d.b F.DOMAIN_CTL_CLK_EN n = true)
    ∧ (∀ n : Nat, n < 32 → d.spcState n = 0 ∧ d.b F.SPC_CFG_EN n = false)
    ∧ d.served = false ∧ d.canonical = true

/-- R386, R387: a long low of PERST_IN_N is a cold reset. Every register is at its reset value, and of the rest of the device there
stay the outputs handed out, the levels of the pins, the TAPs and the model's own counts (log 105); outside a burn the fuses stay too. -/
def Obligations.ColdResetResetsEverything : Prop :=
  ∀ s : State, s.dev.rst.perstLow = false → ∃ t : State, exec (.perstInAssert .long) s = .next t
    ∧ t.pending = s.pending
    ∧ (∀ (k : RegKind) (i j : Nat), t.dev.reg k i j = RegId.reset ⟨k, i, j⟩)
    ∧ t.dev.rst = { perstLow := true, supplies := s.dev.rst.supplies, vddIo := s.dev.rst.vddIo, testMode := s.dev.rst.testMode }
    ∧ t.dev.jtag = s.dev.jtag
    ∧ ({ t.dev with out := [], free := 0, bindCount := 0, rst := {}, jtag := State.reset.dev.jtag } : Dev) = State.reset.dev
    ∧ (s.dev.b F.LC_CTL_BUSY = false → t.fuses = s.fuses)
    ∧ t.dev.fltPins = (false, false)

/-! ### Registers -/

/-- R7, R252: what a write stores by access type, bit by bit, and in no other register. It is what a register without a rule of its own
does with a write that is let through. -/
def Obligations.StoredByAccessType : Prop :=
  ∀ (d : Dev) (r : RegId) (v : Word),
    (∀ n : Nat, n < 64 →
      let a := r.kind.info
      let new := ((d.storeReg r v).reg r.kind r.i r.j).getLsbD n
      let old := (d.reg r.kind r.i r.j).getLsbD n
      (a.rw.getLsbD n = true ∨ a.rws.getLsbD n = true → new = v.getLsbD n)
        ∧ (a.w1c.getLsbD n = true → new = (old && !v.getLsbD n))
        ∧ (a.w1s.getLsbD n = true → new = (old || v.getLsbD n))
        ∧ ((a.rw ||| a.rws ||| a.w1c ||| a.w1s).getLsbD n = false → new = old))
    ∧ (∀ (k : RegKind) (i j : Nat), (⟨k, i, j⟩ : RegId) ≠ r → (d.storeReg r v).reg k i j = d.reg k i j)

/-- R416: a counter raised by `n` saturates at 48 bits. -/
def Obligations.CountersSaturate : Prop :=
  ∀ (d : Dev) (k : RegKind) (n i j : Nat),
    ((d.inc k n i j).reg k i j).toNat = min ((d.reg k i j).toNat % 2 ^ 48 + n) (2 ^ 48 - 1)

/-- R38: a write of a register of an unused port slot is discarded, and such a register reads 0. -/
def Obligations.UnusedPortSlotsIgnoreWrites : Prop :=
  ∀ (s : State) (p : Fin 512), s.dev.isPort p = false →
    (∀ v : BitVec 32, s.dev.gateOf .mgmtPf ⟨.portCtl, p, 0⟩ = .act → s.dev.freeSlot.isSome = true →
      exec (.portEnable p v) s = .next (s.after s.dev.twinUpdate) ∧ exec (.portDisable p v) s = .next (s.after s.dev.twinUpdate))
    ∧ (∀ v : Word, s.dev.gateOf .mgmtPf ⟨.slotCfg, p, 0⟩ = .act → s.dev.freeSlot.isSome = true →
      exec (.slotCfgWrite p v) s = .next (s.after s.dev.twinUpdate))
    ∧ (∀ (off : Nat) (k : RegKind) (hi : Bool), k ∈ .slotCfg :: .slotState :: portSlotKinds → targetMgmt off = .reg ⟨k, p, 0⟩ hi →
      s.dev.readTarget .mgmt off = 0)

/-- R21, R339, R405: a 32-bit write on the register path. To a block in reset it is dropped with an internal error; to a block whose
clock is stopped it takes a request slot and waits; with no slot free it waits for one; to a block in its safe state it is discarded with
an internal error, and a GO of LC_CTL sets LC_ERR too (R401). In the device-wide safe state a write of SOFT or of BLOCK_GO sets BLOCK_ERR too
(R388, R389). -/
def Obligations.RegisterWritesByBlockState : Prop :=
  ∀ (s : State) (off : BitVec 26) (v : Word), off.toNat % 4 = 0 →
    let d := s.dev
    let g := d.gateAt .mgmtPf .mgmt off.toNat
    let a : Access := { door := .mgmtPf, bar := .mgmt, off := off.toNat, write := true, wide := false, v := v }
    (g.1 = .inReset → d.freeSlot.isSome = true →
      exec (.registerWrite .mgmt off false v) s = .next (s.after (
        if off.toNat = RegId.addr ⟨.resetCtl, 0, 0⟩ ∧ d.rst.deviceSafe = true ∧ (v.getLsbD 0 = true ∨ v.getLsbD 8 = true) then
          (d.intErrOf g.2).setB F.RESET_STATUS_BLOCK_ERR true
        else d.intErrOf g.2).twinUpdate))
    ∧ (∀ k : Nat, g.1 = .wait → d.freeSlot = some k →
      exec (.registerWrite .mgmt off false v) s =
        .next (s.after ({ d with mgmt := { d.mgmt with slots := d.mgmt.slots.put none k (some a) } } : Dev).twinUpdate))
    ∧ (g.1 ≠ .gone → d.freeSlot = none →
      exec (.registerWrite .mgmt off false v) s =
        .next (s.after ({ d with mgmt := { d.mgmt with waiting := d.mgmt.waiting ++ [a] } } : Dev).twinUpdate))
    ∧ (∀ r : RegId, g.1 = .safe → d.freeSlot.isSome = true → targetMgmt off.toNat = .reg r false → d.regSafe r = true →
      r.kind.isErrReg = false → d.noPort r = false → r.kind ≠ .resetCtl → r.kind ≠ .tallyCtl →
      v &&& 0xFFFFFFFF &&& r.kind.info.rsv = 0 →
      exec (.registerWrite .mgmt off false v) s = .next (s.after (
        if r.kind = .lcCtl ∧ v.getLsbD 3 = true then (d.intErr (d.blockOf r)).setB F.LC_CTL_LC_ERR true
        else d.intErr (d.blockOf r)).twinUpdate))

/-- R252: PITCH_SEAL and WIN_SEAL are W1S: a write sets the bits it gives as 1 and clears none. -/
def Obligations.SealsAreOnlySet : Prop :=
  ∀ (s : State) (v : Word),
    (s.dev.takes ⟨.pitchSeal, 0, 0⟩ → v &&& RegKind.pitchSeal.info.rsv = 0 → ∃ t : State, exec (.sealWrite 0 v) s = .next t
      ∧ t.dev.reg .pitchSeal = s.dev.reg .pitchSeal ||| v
      ∧ ∀ (k : RegKind) (i j : Nat), k ≠ .pitchSeal → k.reports = false → t.dev.reg k i j = s.dev.reg k i j)
    ∧ (∀ k : Fin 2, s.dev.takes ⟨.winSeal, k, 0⟩ → v &&& RegKind.winSeal.info.rsv = 0 →
      ∃ t : State, exec (.sealWrite k.succ v) s = .next t
        ∧ t.dev.reg .winSeal k = s.dev.reg .winSeal k ||| v
        ∧ ∀ (k' : RegKind) (i j : Nat), k' ≠ .winSeal ∨ i ≠ k → k'.reports = false → t.dev.reg k' i j = s.dev.reg k' i j)

/-! ### Rows, slots -/

/-- R70: TX_EN or RX_EN is set only on a lane of a disabled port, or on the spare lane of a Row with SPARE_EN clear. On any other lane
the write is discarded and sets the Row's internal error bit. -/
def Obligations.PrbsOnlyOnIdleLanes : Prop :=
  ∀ (s : State) (r : Fin 32) (m : Fin 17) (v : BitVec 32), s.dev.takes ⟨.lanePrbsCtl, r, m⟩ →
    v.zeroExtend 64 &&& RegKind.lanePrbsCtl.info.rsv = 0 → v.getLsbD 0 = true ∨ v.getLsbD 1 = true →
    ((if m.val = 16 then s.dev.b F.ROW_SPARE_CTL_SPARE_EN r = true else s.dev.b F.PORT_CTL_EN (s.dev.portOfLane r m) = true) →
      ∃ t : State, exec (.lanePrbsCtlWrite r m v) s = .next t ∧ t.dev.b F.ERR_STATUS_INT_ERR r = true
        ∧ ∀ (k : RegKind) (i j : Nat), k.reports = false → t.dev.reg k i j = s.dev.reg k i j)
    ∧ ((if m.val = 16 then s.dev.b F.ROW_SPARE_CTL_SPARE_EN r = false else s.dev.b F.PORT_CTL_EN (s.dev.portOfLane r m) = false) →
      ∃ t : State, exec (.lanePrbsCtlWrite r m v) s = .next t
        ∧ t.dev.b F.LANE_PRBS_CTL_TX_EN r m = v.getLsbD 0 ∧ t.dev.b F.LANE_PRBS_CTL_RX_EN r m = v.getLsbD 1
        ∧ ∀ (k : RegKind) (i j : Nat), k ≠ .lanePrbsCtl → k ≠ .lanePrbsErr → k.reports = false → t.dev.reg k i j = s.dev.reg k i j)

/-- R66: a spare transmitter that is not in shadow training, or mirrors another lane, answers SPARE_REQ with SPARE_NAK. The receiver
that has the answer sets PARTNER_NAK and SPARE_MISSED, and the lane stays in use. -/
def Obligations.SpareNakKeepsTheLane : Prop :=
  ∀ (s : State) (r : Fin 32) (lane : Fin 16),
    (∀ flit : BitVec 10, s.dev.spareAvail r = true → (s.dev.laneFor (s.dev.spareOwner r) lane).isSome = true → s.dev.txSpare r ≠ 2 →
      exec (.spareReq r lane flit) s = .next (s.after ((s.dev.spareIn r).sendSpare r (.nak lane)))
        ∧ (s.dev.role (s.dev.spareOwner r) ≠ 2 → (s.dev.spareIn r).sendSpare r (.nak lane) = s.dev.emit (.spare r (.nak lane))))
    ∧ (s.dev.rxSpare r = 4 → s.dev.f F.ROW_SPARE_STATUS_RX_SUBST_LANE r = lane →
      ∃ t : State, exec (.spareNak r lane) s = .next t
        ∧ t.dev.b F.ROW_SPARE_STATUS_PARTNER_NAK r = true ∧ t.dev.b F.ROW_SPARE_STATUS_SPARE_MISSED r = true
        ∧ t.dev.rxSpare r = 3
        ∧ ∀ (k : RegKind) (i j : Nat), k ≠ .rowSpareStatus ∨ i ≠ r → k.reports = false → t.dev.reg k i j = s.dev.reg k i j)

/-- R97: a write of SB_CTL that changes EN, DIV or LENGTH while a port of the half has SLOT_EN set is discarded and sets
SB_CFG_ERR. -/
def Obligations.SbCtlHoldsWhileSlotsAreEnabled : Prop :=
  ∀ (s : State) (h : Fin 2) (v : BitVec 32) (p : Nat), s.dev.takes ⟨.sbCtl, h, 0⟩ →
    v.zeroExtend 64 &&& RegKind.sbCtl.info.rsv = 0 → p / 256 = h.val → s.dev.slotEn p = true →
    getBits (v.zeroExtend 64) 0 14 ≠ getBits (s.dev.reg .sbCtl h) 0 14 →
    exec (.sbCtlWrite h v) s = .next (s.after (s.dev.setB F.SB_CTL_SB_CFG_ERR true h).twinUpdate)

/-- R359: a breaker trip, a fast trip or a VIN undervoltage while the gate is driven discharges it: DISCHARGE, SLOT_PG and the gate low,
the cause's bit set. -/
def Obligations.ChannelFaultsDischarge : Prop :=
  ∀ (s : State) (n : Fin 32), s.dev.spcState n = 1 ∨ s.dev.spcState n = 2 →
    ∀ x ∈ [(Instr.breaker n, F.SPC_STATUS_BREAKER), (.fastTrip n, F.SPC_STATUS_FAST_TRIP), (.vinUv n, F.SPC_STATUS_VIN_UV)],
      ∃ t : State, exec x.1 s = .next t ∧ t.dev.spcState n = 3 ∧ t.dev.b F.SPC_STATUS_PG n = false ∧ t.dev.b x.2 n = true
        ∧ Out.gate n false ∈ t.dev.out

/-! ### Forwarding, Floor, checkers -/

/-- R118: two valid windows of one partition that match an address have an unpredictable result: the arrival of a TLP, no part of which is
on its way out already, stops with a fault of that name, once it is let in. -/
def Obligations.TwoWindowsStop : Prop :=
  ∀ (s : State) (p : Fin 512) (t : Tlp) (shared : Bool) (rx : RxErr), let d := s.dev.rxErrors p rx
    rx.badEnd = none → t.kind = .mrd ∨ t.kind = .mwr → d.b F.PORT_CTL_EN p = true → d.role p < 2 → d.b F.PORT_STATUS_DL_ACTIVE p = true →
    d.f F.PORT_STATUS_LTSSM p = 3 ∨ d.f F.PORT_STATUS_LTSSM p = 5 → t.ep = false → d.malformed p t = false → d.openedFrom p = none →
    d.outOf (66 + d.ingressHalf p) = false → (d.pool p 0).covers (creditOf (clsOf t.kind) (b2n (shared && d.b F.PORT_STATUS_FLIT p))) (dataCredits t) = true →
    2 ≤ (d.windowsAt (d.partOf p) (t.addr.toNat / 4096)).length → exec (.tlpIngress p t shared rx) s = .fault .twoWindows

/-- R133: a bucket changes its EFF_PATH and clears OLD_LIST only while nothing of it is in flight. PATH may be written at any time. -/
def Obligations.BucketsMoveOnlyWhenDrained : Prop :=
  ∀ (s : State) (b : Fin 4096), let d := s.dev
    (d.f F.BUCKET_INFLIGHT b ≠ 0 → exec (.bucketRepin b) s = .next (s.after d))
    ∧ (d.f F.BUCKET_INFLIGHT b = 0 → ∃ t : State, exec (.bucketRepin b) s = .next t
      ∧ t.dev.f F.BUCKET_EFF_PATH b = d.f F.BUCKET_PATH b ∧ t.dev.b F.BUCKET_OLD_LIST b = false
      ∧ t.dev.b F.BUCKET_PENDING b = false ∧ t.dev.f F.BUCKET_PATH b = d.f F.BUCKET_PATH b
      ∧ ∀ (k : RegKind) (i j : Nat), k ≠ .bucket ∨ i ≠ b → k.reports = false → t.dev.reg k i j = d.reg k i j)
    ∧ (∀ path : Fin 16, d.takes ⟨.bucket, b, 0⟩ → ∃ t : State, exec (.bucketPathWrite b path) s = .next t
      ∧ t.dev.f F.BUCKET_PATH b = path ∧ t.dev.f F.BUCKET_EFF_PATH b = d.f F.BUCKET_EFF_PATH b
      ∧ t.dev.b F.BUCKET_OLD_LIST b = d.b F.BUCKET_OLD_LIST b ∧ t.dev.f F.BUCKET_INFLIGHT b = d.f F.BUCKET_INFLIGHT b
      ∧ (t.dev.b F.BUCKET_PENDING b = true ↔ path.val ≠ d.f F.BUCKET_EFF_PATH b))

/-- R139: half, bank group, bank and row of a cell, with the scrub's own place of each bank row; the cells of a bank are its rows, and
16 cells in a row of one group lie in 16 banks. -/
def Obligations.FloorCellLayout : Prop :=
  (∀ c : Nat, c < 393216 →
    let l := c % 196608
    cellHalf c = c / 196608 ∧ cellGroup c = 16 * (c / 196608) + l / 12288 ∧ cellBank c = 16 * cellGroup c + l % 16
      ∧ cellBank c < 512 ∧ l % 12288 / 16 < 768 ∧ bankCell (cellBank c) (l % 12288 / 16) = c)
    ∧ (∀ b r : Nat, b < 512 → r < 768 → bankCell b r < 393216 ∧ cellBank (bankCell b r) = b ∧ bankCell b r % 196608 % 12288 / 16 = r)
    ∧ (∀ c n : Nat, 0 < n → n < 16 → cellGroup c = cellGroup (c + n) → cellBank c ≠ cellBank (c + n))

/-- R247, R248: what checker `c` decides on a request with Pitch index `k`: with CHECK_EN clear it passes; a valid Pitch decides alone; an
unprivileged miss faults; a privileged miss passes on the default map or faults. -/
def Obligations.PitchVerdicts : Prop :=
  ∀ (d : Dev) (c q k : Nat) (t : Tlp),
    let p := d.reg .pitch (d.f F.PITCH_CHK_TABLE c) k
    let m := d.reg .partDefmap q
    (d.b F.PITCH_CHK_CHECK_EN c = false → d.verdict c q k t = (0, 0))
    ∧ (d.b F.PITCH_CHK_CHECK_EN c = true → d.outOf (76 + ingHalf c) = false →
      (p.getLsbD 0 = true → pitchAllows p t = false → d.verdict c q k t = (2, 1))
      ∧ (p.getLsbD 0 = true → pitchAllows p t = true → p.getLsbD 9 = true → privileged t = false → d.verdict c q k t = (2, 3))
      ∧ (p.getLsbD 0 = true → pitchAllows p t = true → p.getLsbD 9 = false ∨ privileged t = true → d.verdict c q k t = (0, 0))
      ∧ (p.getLsbD 0 = false → privileged t = false → d.verdict c q k t = (2, 0))
      ∧ (p.getLsbD 0 = false → privileged t = true → m.getLsbD 0 = true → pitchAllows m t = true → d.verdict c q k t = (1, 0))
      ∧ (p.getLsbD 0 = false → privileged t = true → m.getLsbD 0 = false ∨ pitchAllows m t = false → d.verdict c q k t = (2, 2)))
    ∧ (isMemReq t.kind = true ∨ t.kind = .xlatReq → t.atype = 3 → pitchAllows p t = false)
    ∧ (t.kind = .mwr → pitchAllows p t = (p.getLsbD 2 && t.atype != 3 && (t.atype != 2 || p.getLsbD 8)))
    ∧ (t.kind = .msg → t.route = .toRoot ∨ t.route = .byId ∨ t.route = .byAddr → pitchAllows p t = p.getLsbD 7)
    ∧ (t.kind = .msg → t.route = .terminate ∨ t.route = .broadcast → pitchAllows p t = false)

/-- R145: a write of GROUP_CTL or FLOOR_RSV_GROUPS that would leave a half's free cells short of its unspent reservations is discarded and
sets FLOOR_CFG_ERR; another is stored. -/
def Obligations.GroupWritesKeepReservationsBacked : Prop :=
  ∀ (s : State) (v : BitVec 32),
    (∀ g : Fin 32, s.dev.takes ⟨.groupCtl, g, 0⟩ → v.zeroExtend 64 &&& RegKind.groupCtl.info.rsv = 0 →
      let n := s.dev.storeReg ⟨.groupCtl, g, 0⟩ (v.zeroExtend 64)
      ((∃ h : Nat, h < 2 ∧ n.freeRsv h < n.unspent h ∧ s.dev.unspent h ≤ s.dev.freeRsv h) →
        exec (.groupCtlWrite (some g) v) s = .next (s.after (s.dev.setB F.FLOOR_STATUS_FLOOR_CFG_ERR true).twinUpdate))
      ∧ ((∀ h : Nat, h < 2 → n.unspent h ≤ n.freeRsv h) → exec (.groupCtlWrite (some g) v) s = .next (s.after n.twinUpdate)))
    ∧ (s.dev.takes ⟨.floorRsvGroups, 0, 0⟩ → v.zeroExtend 64 &&& RegKind.floorRsvGroups.info.rsv = 0 →
      let n := s.dev.storeReg ⟨.floorRsvGroups, 0, 0⟩ (v.zeroExtend 64)
      ((∃ h : Nat, h < 2 ∧ n.freeRsv h < n.unspent h ∧ s.dev.unspent h ≤ s.dev.freeRsv h) →
        exec (.groupCtlWrite none v) s = .next (s.after (s.dev.setB F.FLOOR_STATUS_FLOOR_CFG_ERR true).twinUpdate))
      ∧ ((∀ h : Nat, h < 2 → n.unspent h ≤ n.freeRsv h) → exec (.groupCtlWrite none v) s = .next (s.after n.twinUpdate)))

/-! ### Errors, roles, lifecycle -/

/-- R350, R338: a SAFE injection acts in MANUFACTURE with TEST_MODE asserted, and in no other state. It sends the block to its safe state
with SAFE_CAUSE 4, and the first such block is noted. The blocks named are those whose safe state asks nothing of their logic. -/
def Obligations.SafeInjections : Prop :=
  ∀ (s : State) (b : Fin 88), let d := s.dev
    d.takes ⟨.errInject, b, 0⟩ →
    (d.lifecycle ≠ 0 ∨ d.rst.testMode = false → exec (.injectSafe b) s = .next (s.after (d.intErr b).twinUpdate))
    ∧ (b.val ∈ [32, 33, 66, 67, 70, 71, 76, 77, 87] → d.lifecycle = 0 → d.rst.testMode = true → d.safe b = false →
      ∃ t : State, exec (.injectSafe b) s = .next t ∧ t.dev.safe b = true ∧ t.dev.f F.ERR_STATUS_SAFE_CAUSE b = 4
        ∧ t.dev.b F.FLT_STATUS_FIRST_VALID = true
        ∧ t.dev.f F.FLT_STATUS_FIRST_BLOCK = (if d.b F.FLT_STATUS_FIRST_VALID = true then d.f F.FLT_STATUS_FIRST_BLOCK else b)
        ∧ ∀ (k : RegKind) (i j : Nat), k ≠ .fltStatus → k.reports = false → t.dev.reg k i j = d.reg k i j)

/-- R394: 100 µs without a heartbeat. The standby takes charge, unless the other half disputes its claim: then the device is in
STANDOFF. A standby whose controller is stopped or in reset claims nothing (R402). -/
def Obligations.HeartbeatLossMovesTheRole : Prop :=
  ∀ s : State, let d := s.dev
    (d.rst.elected = true → d.b F.ROLE_STATUS_STANDOFF = false → d.rst.deviceSafe = false → d.safe (83 - d.ic) = false →
      d.rst.blockBusy ≠ some (83 - d.ic) →
      (∃ t : State, exec (.halfHeartbeatLoss true) s = .next t ∧ t.dev.b F.ROLE_STATUS_STANDOFF = true ∧ t.dev.ic = d.ic)
      ∧ (d.b F.TALLY_CTL_BUSY = false → ∃ t : State, exec (.halfHeartbeatLoss false) s = .next t ∧ t.dev.ic = 1 - d.ic
        ∧ t.dev.b F.ROLE_STATUS_TAKEOVER = true ∧ t.dev.b F.ROLE_STATUS_STANDBY_OK = false
        ∧ t.dev.b F.ROLE_STATUS_STANDOFF = false))
    ∧ (∀ disputed : Bool, d.safe (83 - d.ic) = true ∨ d.rst.blockBusy = some (83 - d.ic) →
      exec (.halfHeartbeatLoss disputed) s = .next (s.after d.twinUpdate))

/-- R393: a serial-number vote in STANDOFF. It succeeds with both numbers sent and answered and unequal, and the lower one's half is in
charge; else it fails, and the third failure is the device-wide safe state. -/
def Obligations.SerialVotesDecideStandoff : Prop :=
  ∀ (s : State) (w e a : Bool), let d := s.dev
    d.b F.ROLE_STATUS_STANDOFF = true → d.rst.deviceSafe = false →
    (w = true → e = true → a = true → d.rst.shadowW = some true → d.rst.shadowE = some true → d.reg .dieSerial 0 ≠ d.reg .dieSerial 1 →
      d.rst.elected = false ∨ d.b F.TALLY_CTL_BUSY = false → ∃ t : State, exec (.standoffVote w e a) s = .next t
        ∧ t.dev.ic = (if (d.reg .dieSerial 0).toNat < (d.reg .dieSerial 1).toNat then 0 else 1)
        ∧ t.dev.f F.ROLE_STATUS_VOTE_BY = 1 ∧ t.dev.b F.ROLE_STATUS_STANDOFF = false ∧ t.dev.rst.elected = true)
    ∧ (w = false ∨ e = false ∨ a = false ∨ d.reg .dieSerial 0 = d.reg .dieSerial 1 →
      (d.f F.ROLE_STATUS_VOTES_FAILED < 2 → ∃ t : State, exec (.standoffVote w e a) s = .next t
        ∧ t.dev.f F.ROLE_STATUS_VOTES_FAILED = d.f F.ROLE_STATUS_VOTES_FAILED + 1 ∧ t.dev.b F.ROLE_STATUS_STANDOFF = true
        ∧ t.dev.ic = d.ic ∧ t.dev.rst = d.rst)
      ∧ (2 ≤ d.f F.ROLE_STATUS_VOTES_FAILED → exec (.standoffVote w e a) s = .next (s.after
          ((d.setF F.ROLE_STATUS_VOTES_FAILED 3).setB F.ROLE_STATUS_STANDOFF true).deviceWideSafe.twinUpdate)))

/-- R348: the levels of FLT_P and FLT_N. Both at 1 is never driven; both at 0 is PERST_IN_N asserted or VDD_IO absent; else they tell a
fault from none. -/
def Obligations.FaultPinStates : Prop :=
  ∀ d : Dev, d.fltPins ≠ (true, true)
    ∧ (d.fltPins = (false, false) ↔ d.rst.perstLow = true ∨ d.rst.vddIo = false)
    ∧ (d.fltPins = (true, false) ↔ d.rst.perstLow = false ∧ d.rst.vddIo = true ∧ d.fltAsserted = true)
    ∧ (d.fltPins = (false, true) ↔ d.rst.perstLow = false ∧ d.rst.vddIo = true ∧ d.fltAsserted = false)

/-- R400, R401: ARM and GO by the management PF in a lifecycle state that accepts requests from it. GO begins the burn of an allowed
TARGET that the last ARM named, with no TEST_MODE, reset, wipe, burn or STANDOFF; else it sets LC_ERR. No fuse changes yet. -/
def Obligations.LifecycleGo : Prop :=
  ∀ (s : State) (t : BitVec 2), let d := s.dev
    d.gateAt .mgmtPf .mgmt 0x3200108 = (.act, some 87) → d.freeSlot.isSome = true → d.regSafe ⟨.lcCtl, 0, 0⟩ = false → (d.errs.look {} 87).parity = [] →
    d.lifecycle < 3 →
    let go := d.b F.LC_CTL_ARMED = true ∧ d.rst.armTarget = t.toNat
      ∧ (t.toNat = d.lifecycle + 1 ∨ ((d.burnPartial = true ∨ d.lcSplit = true) ∧ t.toNat = d.lifecycle))
      ∧ d.rst.testMode = false ∧ d.rst.wipe = false ∧ d.rst.blockBusy = none ∧ d.b F.LC_CTL_BUSY = false
      ∧ d.b F.ROLE_STATUS_STANDOFF = false ∧ d.safe 87 = false ∧ d.rst.deviceSafe = false
    (go → ∃ u : State, exec (.lcGo .mgmtPf t) s = .next u ∧ u.dev.b F.LC_CTL_BUSY = true ∧ u.dev.b F.LC_CTL_ARMED = false
      ∧ u.dev.b F.LC_CTL_LC_ERR = d.b F.LC_CTL_LC_ERR ∧ u.dev.rst.burnTarget = t.toNat ∧ u.fuses = s.fuses)
    ∧ (¬ go → ∃ u : State, exec (.lcGo .mgmtPf t) s = .next u ∧ u.dev.b F.LC_CTL_LC_ERR = true
      ∧ u.dev.b F.LC_CTL_BUSY = d.b F.LC_CTL_BUSY ∧ u.dev.rst = d.rst ∧ u.fuses = s.fuses)

/-- R378: a domain other than an Aisle end is powered on only while what it depends on has PWR_EN set and no thermal trip has occurred:
else the write is discarded and sets DOMAIN_CFG_ERR. An OFF domain that is powered on waits, WAKING and QUEUED. -/
def Obligations.DomainPowerOn : Prop :=
  ∀ (s : State) (n : Fin 208), let d := s.dev
    n.val < 204 → d.takes ⟨.domainCtl, n, 0⟩ → d.safe (84 + domHalf n) = false → d.b F.DOMAIN_CTL_PWR_EN n = false →
    ((∃ e : Nat, dependsOn n = some e ∧ d.b F.DOMAIN_CTL_PWR_EN e = false) ∨ d.rst.tripped = true →
      exec (.domainPowerOn n) s = .next (s.after (d.setB F.PWR_STATUS_DOMAIN_CFG_ERR true).twinUpdate))
    ∧ ((∀ e : Nat, dependsOn n = some e → d.b F.DOMAIN_CTL_PWR_EN e = true) → d.rst.tripped = false → d.power n = 0 →
      ∃ t : State, exec (.domainPowerOn n) s = .next t ∧ t.dev.b F.DOMAIN_CTL_PWR_EN n = true ∧ t.dev.power n = 1
        ∧ t.dev.b F.DOMAIN_STATE_QUEUED n = true ∧ t.dev.b F.DOMAIN_STATE_IN_RESET n = true
        ∧ ∀ (k : RegKind) (i j : Nat), (k ≠ .domainCtl ∧ k ≠ .domainState) ∨ i ≠ n → k.reports = false →
          t.dev.reg k i j = d.reg k i j)

/-! ### Event queue, boot, time, rings, mailboxes, Halls -/

/-- R412: a read of EVQ_DATA. With the chain empty it returns 0 and removes nothing; within a record it returns the record's next word;
else it begins the oldest record of lowest PRIO: every record before it in the chain has a higher PRIO. -/
def Obligations.EventQueueReads : Prop :=
  ∀ s : State, let d := s.dev
    d.i3cAlive = true → d.served = true →
    (d.evq.current = [] → d.evq.chain = [] → exec .evqDataRead s = .next (s.after (d.emit (.i3cData [0, 0, 0, 0]))))
    ∧ (∀ (w : BitVec 32) (l : List (BitVec 32)), d.evq.current = w :: l → ∃ t : State, exec .evqDataRead s = .next t
      ∧ t.dev.evq.current = l ∧ Out.i3cData (leBytes w.toNat 4) ∈ t.dev.out)
    ∧ (∀ (i : Nat) (w : BitVec 32) (l : List (BitVec 32)), (d.errs.look {} (82 + d.ic)).bad = [] → d.evq.current = [] →
      firstPrio d.evq.chain = some i →
      d.evq.chain.getD i [] = w :: l → ∃ t : State, exec .evqDataRead s = .next t
        ∧ t.dev.evq.current = l ∧ Out.i3cData (leBytes w.toNat 4) ∈ t.dev.out)
    ∧ (∀ (l : List (List (BitVec 32))) (i : Nat), firstPrio l = some i →
      i < l.length ∧ (∀ k : Nat, k < l.length → recPrio (l.getD i []) ≤ recPrio (l.getD k []))
        ∧ (∀ k : Nat, k < i → recPrio (l.getD i []) < recPrio (l.getD k [])))

/-- R396: of two valid copies the one with the higher SEQ boots, copy A at equal SEQ; of one valid copy that one; of none none. -/
def Obligations.ImageChoice : Prop :=
  ∀ a b : List Byte,
    (imgValid a = true → imgValid b = true → leAt a 0xC 4 < leAt b 0xC 4 → imgChoose (some a) (some b) = some (b, true))
    ∧ (imgValid a = true → imgValid b = true → leAt b 0xC 4 ≤ leAt a 0xC 4 → imgChoose (some a) (some b) = some (a, false))
    ∧ (imgValid a = true → imgValid b = false → imgChoose (some a) (some b) = some (a, false))
    ∧ (imgValid a = false → imgValid b = true → imgChoose (some a) (some b) = some (b, true))
    ∧ (imgValid a = false → imgValid b = false → imgChoose (some a) (some b) = none)
    ∧ (∀ l : List Byte, imgValid l = true → leAt l 0 4 = 0x4C445241 ∧ leAt l 0x10 2 = 0x5120
      ∧ leAt l 0x3C 4 = (crc32c (l.take 0x3C)).toNat ∧ ((imgSections l).filter (fun x => x.type == 1)).length = 1)

/-- R421: TIME_SET steps both halves' device time to the value written and sets STEPPED; on an empty queue an edge of TCLK adds TIME_INCR
to the count of each half whose root PLL is locked (log 2), and with no port gated it changes no register but the counts of divided CCLK and
those that report errors. -/
def Obligations.DeviceTime : Prop :=
  ∀ s : State, let d := s.dev
    (∀ v : Word, d.takes ⟨.timeSetReg, 0, 0⟩ → v &&& RegKind.timeSetReg.info.rsv = 0 → ∃ t : State, exec (.timeSet v) s = .next t
      ∧ t.dev.time.tw = v.toNat * 2 ^ 32 ∧ t.dev.time.te = v.toNat * 2 ^ 32 ∧ t.dev.b F.TIME_STATUS_STEPPED = true)
    ∧ (s.pending = [] → d.own = [] → d.mgmtQ = [] → ∃ t : State, step s = .next t ∧ t.pending = []
      ∧ t.dev.time.tw = (if d.b F.CLK_STATUS_PLL_LOCK 0 = true then (d.time.tw + (d.reg .timeIncr).toNat) % 2 ^ 96 else d.time.tw)
      ∧ t.dev.time.te = (if d.b F.CLK_STATUS_PLL_LOCK 1 = true then (d.time.te + (d.reg .timeIncr).toNat) % 2 ^ 96 else d.time.te)
      ∧ ((∀ p : Nat, d.b F.GATE_CTL_EN p = false) → ∀ (k : RegKind) (i j : Nat), k ≠ .cclkDiv5Cyc → k ≠ .cclkDiv6Cyc → k.reports = false →
        t.dev.reg k i j = d.reg k i j))

/-- R280: EN set on a DISABLED ring loads CI from RING_START, sets PHASE and makes the ring IDLE; EN cleared on a HALTED ring makes it
DISABLED at once. -/
def Obligations.RingEnableAndHaltedDisable : Prop :=
  ∀ (s : State) (st : Fin 1024) (r : Fin 8), let d := s.dev
    d.takesStall st ⟨.ringCtl, st, r⟩ →
    (d.rstate (8 * st + r) = 0 → d.b F.RING_CTL_EN st r = false → ∃ t : State, exec (.ringEnable st r) s = .next t
      ∧ t.dev.b F.RING_CTL_EN st r = true ∧ t.dev.rstate (8 * st + r) = 1
      ∧ t.dev.rci (8 * st + r) = d.f F.RING_START_CI st r ∧ t.dev.rphase (8 * st + r) = true
      ∧ (t.dev.ring (8 * st + r)).fetch = d.f F.RING_START_CI st r)
    ∧ (d.rstate (8 * st + r) = 4 → d.b F.RING_CTL_EN st r = true → ∃ t : State, exec (.ringDisable st r) s = .next t
      ∧ t.dev.b F.RING_CTL_EN st r = false ∧ t.dev.rstate (8 * st + r) = 0 ∧ t.dev.ring (8 * st + r) = {})

/-- R315: SEND of a Stall. With OUT_BUSY set it is discarded and sets CFG_ERR; else it sets OUT_BUSY, OUT_PEND and the Stall's bit of
MB_PENDING. The manager's ACK clears OUT_BUSY and OUT_PEND. -/
def Obligations.MailboxOut : Prop :=
  ∀ (s : State) (st : Fin 1024), let d := s.dev
    (∀ len : BitVec 7, d.takesStall st ⟨.mbCtl, st, 0⟩ → d.b F.MB_CTL_OUT_BUSY st = true →
      ∃ t : State, exec (.mailboxSend st len) s = .next t ∧ t.dev.b F.STALL_STATUS_CFG_ERR st = true
        ∧ t.dev.b F.MB_CTL_OUT_BUSY st = true ∧ t.dev.reg .mbMgrCtl st = d.reg .mbMgrCtl st
        ∧ ∀ i : Nat, t.dev.reg .mbPending i = d.reg .mbPending i)
    ∧ (∀ len : BitVec 7, d.takesStall st ⟨.mbCtl, st, 0⟩ → d.b F.MB_CTL_OUT_BUSY st = false →
      ∃ t : State, exec (.mailboxSend st len) s = .next t ∧ t.dev.b F.MB_CTL_OUT_BUSY st = true
        ∧ t.dev.b F.MB_MGR_CTL_OUT_PEND st = true ∧ (t.dev.reg .mbPending (st / 64)).getLsbD (st % 64) = true)
    ∧ (d.takes ⟨.mbMgrCtl, st, 0⟩ → ∃ t : State, exec (.mailboxMgrAck st) s = .next t
        ∧ t.dev.b F.MB_CTL_OUT_BUSY st = false ∧ t.dev.b F.MB_MGR_CTL_OUT_PEND st = false)

/-- R399: a die's state by the consecutive ones of the AND of its two copies; the device's is the lower of the two; LC_SPLIT and
BURN_PARTIAL. -/
def Obligations.LifecycleStates : Prop :=
  (dieStateOf 0 0 = 0 ∧ dieStateOf 1 1 = 1 ∧ dieStateOf 3 3 = 2 ∧ dieStateOf 7 7 = 3)
    ∧ (∀ a b : BitVec 3, dieStateOf a b = dieStateOf (a &&& b) (a &&& b) ∧ dieStateOf a b ≤ 3
      ∧ ∀ n : Nat, n < 3 → (n < dieStateOf a b ↔ ∀ k : Nat, k ≤ n → (a &&& b).getLsbD k = true))
    ∧ (∀ d : Dev, d.lifecycle = min (d.dieState 0) (d.dieState 1) ∧ (d.lcSplit = true ↔ d.dieState 0 ≠ d.dieState 1)
      ∧ (d.burnPartial = true ↔ ∃ h : Nat, h < 2 ∧ d.f F.LC_FUSE_COPY0 h ≠ d.f F.LC_FUSE_COPY1 h))
end

