-- ==== Sys2Proof/Laws/Store.lean ====
section
/-! SUPPORT. Sparse tables: a read after a write, and that writing keeps the canonical form. -/

namespace Sys2Proof.Machine

variable {κ α : Type} [DecidableEq κ] [DecidableEq α]

omit [DecidableEq α] in
theorem Store.get_erase_same (d : κ → α) (t : Store κ α) (k : κ) : Store.get d (t.erase k) k = d k := by
  induction t with
  | nil => rfl
  | cons e t ih =>
    obtain ⟨k', v⟩ := e
    by_cases h : k' = k <;> simp [Store.erase, Store.get, h, ih]

omit [DecidableEq α] in
theorem Store.get_erase_ne (d : κ → α) (t : Store κ α) (k k' : κ) (h : k' ≠ k) :
    Store.get d (t.erase k) k' = Store.get d t k' := by
  induction t with
  | nil => rfl
  | cons e t ih =>
    obtain ⟨a, v⟩ := e
    by_cases h1 : a = k
    · subst h1; simp [Store.erase, Store.get, ih, Ne.symm h]
    · by_cases h2 : a = k'
      · subst h2; simp [Store.erase, Store.get, h]
      · simp [Store.erase, Store.get, h1, h2, ih]

omit [DecidableEq α] in
theorem Store.erase_keys (t : Store κ α) (k : κ) (e : κ × α) (h : e ∈ t.erase k) : e ∈ t ∧ e.1 ≠ k := by
  induction t with
  | nil => cases h
  | cons a t ih =>
    obtain ⟨k', v⟩ := a
    by_cases h1 : k' = k
    · simp only [Store.erase, h1, if_true] at h
      exact ⟨List.mem_cons_of_mem _ (ih h).1, (ih h).2⟩
    · simp only [Store.erase, h1, if_false, List.mem_cons] at h
      rcases h with rfl | h
      · exact ⟨List.mem_cons_self, h1⟩
      · exact ⟨List.mem_cons_of_mem _ (ih h).1, (ih h).2⟩

omit [DecidableEq α] in
theorem Store.get_insert_ne (ord : κ → Nat) (d : κ → α) (t : Store κ α) (k k' : κ) (v : α) (h : k' ≠ k) :
    Store.get d (t.insert ord k v) k' = Store.get d t k' := by
  induction t with
  | nil => simp [Store.insert, Store.get, Ne.symm h]
  | cons a t ih =>
    obtain ⟨a, w⟩ := a
    by_cases h1 : ord k < ord a
    · simp [Store.insert, Store.get, h1, Ne.symm h]
    · by_cases h2 : a = k'
      · subst h2; simp [Store.insert, Store.get, h1]
      · simp [Store.insert, Store.get, h1, h2, ih]

omit [DecidableEq α] in
theorem Store.get_insert_same (ord : κ → Nat) (d : κ → α) (t : Store κ α) (k : κ) (v : α) (h : ∀ e ∈ t, e.1 ≠ k) :
    Store.get d (t.insert ord k v) k = v := by
  induction t with
  | nil => simp [Store.insert, Store.get]
  | cons a t ih =>
    obtain ⟨a, w⟩ := a
    have h0 : a ≠ k := h (a, w) List.mem_cons_self
    by_cases h1 : ord k < ord a
    · simp [Store.insert, Store.get, h1]
    · simp [Store.insert, Store.get, h1, h0, ih (fun e he => h e (List.mem_cons_of_mem _ he))]

/-- A read of the key just written. -/
theorem Store.get_set_same (ord : κ → Nat) (d : κ → α) (t : Store κ α) (k : κ) (v : α) :
    Store.get d (Store.set ord d t k v) k = v := by
  unfold Store.set
  split
  · next h => rw [Store.get_erase_same, h]
  · exact Store.get_insert_same ord d _ k v (fun e he => (Store.erase_keys t k e he).2)

/-- A read of another key. -/
theorem Store.get_set_ne (ord : κ → Nat) (d : κ → α) (t : Store κ α) (k k' : κ) (v : α) (h : k' ≠ k) :
    Store.get d (Store.set ord d t k v) k' = Store.get d t k' := by
  unfold Store.set
  split
  · exact Store.get_erase_ne d t k k' h
  · rw [Store.get_insert_ne ord d _ k k' v h, Store.get_erase_ne d t k k' h]

/-- The entries of a written table are the new one and old ones of other keys. -/
theorem Store.mem_set (ord : κ → Nat) (d : κ → α) (t : Store κ α) (k : κ) (v : α) (e : κ × α)
    (h : e ∈ Store.set ord d t k v) : e = (k, v) ∨ (e ∈ t ∧ e.1 ≠ k) := by
  have key : ∀ t : Store κ α, e ∈ t.insert ord k v → e = (k, v) ∨ e ∈ t := by
    intro t
    induction t with
    | nil => intro h; simpa [Store.insert] using h
    | cons a t ih =>
      obtain ⟨a, w⟩ := a
      intro h
      by_cases h1 : ord k < ord a
      · simp only [Store.insert, h1, if_true, List.mem_cons] at h
        rcases h with h | h
        · exact .inl h
        · exact .inr (List.mem_cons.2 h)
      · simp only [Store.insert, h1, if_false, List.mem_cons] at h
        rcases h with h | h
        · exact .inr (List.mem_cons.2 (.inl h))
        · exact (ih h).imp id (List.mem_cons_of_mem _)
  unfold Store.set at h
  split at h
  · exact .inr (Store.erase_keys t k e h)
  · exact (key _ h).imp id (Store.erase_keys t k e)

/-- The entries of other keys stay. -/
theorem Store.mem_set_of_mem (ord : κ → Nat) (d : κ → α) (t : Store κ α) (k : κ) (v : α) (e : κ × α) (h : e ∈ t)
    (hk : e.1 ≠ k) : e ∈ Store.set ord d t k v := by
  have he : ∀ t : Store κ α, e ∈ t → e ∈ t.erase k := by
    intro t
    induction t with
    | nil => intro h; cases h
    | cons a t ih =>
      obtain ⟨a, w⟩ := a
      intro h
      rcases List.mem_cons.1 h with rfl | h
      · have h1 : a ≠ k := hk
        simp [Store.erase, h1]
      · by_cases h1 : a = k <;> simp [Store.erase, h1, ih h]
  have hi : ∀ t : Store κ α, e ∈ t → e ∈ t.insert ord k v := by
    intro t
    induction t with
    | nil => intro h; cases h
    | cons a t ih =>
      obtain ⟨a, w⟩ := a
      intro h
      by_cases h1 : ord k < ord a
      · simp only [Store.insert, h1, if_true]
        exact List.mem_cons_of_mem _ h
      · simp only [Store.insert, h1, if_false]
        rcases List.mem_cons.1 h with rfl | h
        · exact List.mem_cons_self
        · exact List.mem_cons_of_mem _ (ih h)
  unfold Store.set
  split
  · exact he t h
  · exact hi _ (he t h)

theorem Store.wf_erase (ord : κ → Nat) (d : κ → α) (t : Store κ α) (k : κ) (h : Store.wf ord d t = true) :
    Store.wf ord d (t.erase k) = true := by
  induction t with
  | nil => rfl
  | cons a t ih =>
    obtain ⟨a, w⟩ := a
    simp only [Store.wf, Bool.and_eq_true, decide_eq_true_eq, List.all_eq_true] at h
    by_cases h1 : a = k
    · simpa [Store.erase, h1] using ih h.2
    · simp only [Store.erase, h1, if_false, Store.wf, Bool.and_eq_true, decide_eq_true_eq, List.all_eq_true]
      exact ⟨⟨h.1.1, fun e he => h.1.2 e (Store.erase_keys t k e he).1⟩, ih h.2⟩

theorem Store.wf_insert (ord : κ → Nat) (d : κ → α) (t : Store κ α) (k : κ) (v : α) (hv : v ≠ d k)
    (hk : ∀ e ∈ t, e.1 ≠ k) (h : Store.wf ord d t = true) : Store.wf ord d (t.insert ord k v) = true := by
  induction t with
  | nil => simp [Store.insert, Store.wf, hv]
  | cons a t ih =>
    obtain ⟨a, w⟩ := a
    have hw := h
    simp only [Store.wf, Bool.and_eq_true, decide_eq_true_eq, List.all_eq_true] at h
    by_cases h1 : ord k < ord a
    · simp only [Store.insert, h1, if_true]
      unfold Store.wf
      simp only [Bool.and_eq_true, decide_eq_true_eq, List.all_eq_true]
      refine ⟨⟨hv, ?_⟩, hw⟩
      intro e he
      refine ⟨hk e he, ?_⟩
      rcases List.mem_cons.1 he with rfl | he
      · exact Nat.le_of_lt h1
      · exact Nat.le_trans (Nat.le_of_lt h1) (h.1.2 e he).2
    · simp only [Store.insert, h1, if_false, Store.wf, Bool.and_eq_true, decide_eq_true_eq, List.all_eq_true]
      refine ⟨⟨h.1.1, ?_⟩, ih (fun e he => hk e (List.mem_cons_of_mem _ he)) h.2⟩
      intro e he
      have hmem : e = (k, v) ∨ e ∈ t := by
        clear ih hw h hk
        induction t with
        | nil => simpa [Store.insert] using he
        | cons b t ih2 =>
          obtain ⟨b, x⟩ := b
          by_cases h2 : ord k < ord b
          · simp only [Store.insert, h2, if_true, List.mem_cons] at he
            rcases he with h | h
            · exact .inl h
            · exact .inr (List.mem_cons.2 h)
          · simp only [Store.insert, h2, if_false, List.mem_cons] at he
            rcases he with h | h
            · exact .inr (List.mem_cons.2 (.inl h))
            · exact (ih2 h).imp id (List.mem_cons_of_mem _)
      rcases hmem with rfl | he'
      · exact ⟨Ne.symm (hk (a, w) List.mem_cons_self), Nat.le_of_not_lt h1⟩
      · exact h.1.2 e he'

/-- Writing keeps the canonical form. -/
theorem Store.wf_set (ord : κ → Nat) (d : κ → α) (t : Store κ α) (k : κ) (v : α) (h : Store.wf ord d t = true) :
    Store.wf ord d (Store.set ord d t k v) = true := by
  unfold Store.set
  split
  · exact Store.wf_erase ord d t k h
  · next hv => exact Store.wf_insert ord d _ k v hv (fun e he => (Store.erase_keys t k e he).2) (Store.wf_erase ord d t k h)

omit [DecidableEq α] in
/-- An unlisted key holds its default. -/
@[simp] theorem Store.get_nil (d : κ → α) (k : κ) : Store.get d [] k = d k := rfl

@[simp] theorem Tbl.look_put_same (d : α) (t : Tbl α) (k : Nat) (v : α) : Tbl.look d (Tbl.put d t k v) k = v :=
  Store.get_set_same id (fun _ => d) t k v

theorem Tbl.look_put_ne (d : α) (t : Tbl α) (k k' : Nat) (v : α) (h : k' ≠ k) :
    Tbl.look d (Tbl.put d t k v) k' = Tbl.look d t k' :=
  Store.get_set_ne id (fun _ => d) t k k' v h

end Sys2Proof.Machine
end

