-- ==== Sys2Proof/Laws/Word.lean ====
section
/-! SUPPORT. Bit fields: what a replaced field reads, and that other fields do not change. -/

namespace Sys2Proof

/-- A mask's bits. -/
theorem testBit_mask (lo w k : Nat) : ((2 ^ w - 1) <<< lo).testBit k = decide (lo ≤ k ∧ k < lo + w) := by
  rw [Nat.testBit_shiftLeft, Nat.testBit_two_pow_sub_one, Bool.eq_iff_iff]
  simp only [Bool.and_eq_true, decide_eq_true_eq]
  omega

/-- A field's bit. -/
theorem testBit_getBits (v : Word) (lo w k : Nat) : (getBits v lo w).testBit k = (decide (k < w) && v.getLsbD (lo + k)) := by
  unfold getBits
  rw [Nat.testBit_mod_two_pow, Nat.testBit_shiftRight]
  rfl

/-- A replaced field's bits. -/
theorem getLsbD_putBits (v : Word) (lo w x k : Nat) :
    (putBits v lo w x).getLsbD k =
      (decide (k < 64) && (if lo ≤ k ∧ k < lo + w then x.testBit (k - lo) else v.getLsbD k)) := by
  unfold putBits
  simp only [BitVec.getLsbD_or, BitVec.getLsbD_and, BitVec.getLsbD_not, BitVec.getLsbD_ofNat,
    Nat.testBit_shiftLeft, Nat.testBit_mod_two_pow]
  by_cases hk : k < 64
  · by_cases h : lo ≤ k ∧ k < lo + w
    · have h1 : k - lo < w := by omega
      simp [hk, h, h1]
    · by_cases h2 : lo ≤ k
      · have h1 : ¬ k - lo < w := by omega
        have h3 : ¬ k < lo + w := by omega
        simp [hk, h1, h2, h3]
      · simp [hk, h2]
  · have : v.getLsbD k = false := BitVec.getLsbD_of_ge v k (by omega)
    simp [hk]

/-- A replaced field reads what was put there. -/
theorem getBits_putBits_same (v : Word) (lo w x : Nat) (h : lo + w ≤ 64) : getBits (putBits v lo w x) lo w = x % 2 ^ w := by
  apply Nat.eq_of_testBit_eq
  intro k
  rw [testBit_getBits, getLsbD_putBits, Nat.testBit_mod_two_pow]
  by_cases hk : k < w
  · have h1 : lo + k < 64 := by omega
    have h2 : lo + k < lo + w := by omega
    simp [hk, h1]
  · simp [hk]

/-- A replaced field leaves the others alone. -/
theorem getBits_putBits_ne (v : Word) (lo w x lo' w' : Nat) (h : lo' + w' ≤ lo ∨ lo + w ≤ lo') (h64 : lo' + w' ≤ 64) :
    getBits (putBits v lo w x) lo' w' = getBits v lo' w' := by
  apply Nat.eq_of_testBit_eq
  intro k
  rw [testBit_getBits, testBit_getBits, getLsbD_putBits]
  by_cases hk : k < w'
  · have h1 : lo' + k < 64 := by omega
    have h2 : ¬ (lo ≤ lo' + k ∧ lo' + k < lo + w) := by omega
    simp [hk, h1, h2]
  · simp [hk]

end Sys2Proof
end

