-- ==== Sys2Proof/Laws/State.lean ====
section
/-! SUPPORT. What each named update of the device changes and what it leaves: one lemma per field and update, and reads after
writes of registers, fields and configuration dwords. -/

namespace Sys2Proof.Machine

variable (d : Dev)

@[simp] theorem Dev.setReg_out (k : RegKind) (v : Word) (i j : Nat) : (d.setReg k v i j).out = d.out := rfl
@[simp] theorem Dev.setReg_free (k : RegKind) (v : Word) (i j : Nat) : (d.setReg k v i j).free = d.free := rfl
@[simp] theorem Dev.setReg_bindCount (k : RegKind) (v : Word) (i j : Nat) : (d.setReg k v i j).bindCount = d.bindCount := rfl
@[simp] theorem Dev.setReg_own (k : RegKind) (v : Word) (i j : Nat) : (d.setReg k v i j).own = d.own := rfl
@[simp] theorem Dev.setReg_cfg (k : RegKind) (v : Word) (i j : Nat) : (d.setReg k v i j).cfg = d.cfg := rfl
@[simp] theorem Dev.setReg_msix (k : RegKind) (v : Word) (i j : Nat) : (d.setReg k v i j).msix = d.msix := rfl
@[simp] theorem Dev.setReg_pba (k : RegKind) (v : Word) (i j : Nat) : (d.setReg k v i j).pba = d.pba := rfl
@[simp] theorem Dev.setReg_shadow (k : RegKind) (v : Word) (i j : Nat) : (d.setReg k v i j).shadow = d.shadow := rfl
@[simp] theorem Dev.setReg_active (k : RegKind) (v : Word) (i j : Nat) : (d.setReg k v i j).active = d.active := rfl
@[simp] theorem Dev.setReg_fwd (k : RegKind) (v : Word) (i j : Nat) : (d.setReg k v i j).fwd = d.fwd := rfl
@[simp] theorem Dev.setReg_floor (k : RegKind) (v : Word) (i j : Nat) : (d.setReg k v i j).floor = d.floor := rfl
@[simp] theorem Dev.setReg_aisle (k : RegKind) (v : Word) (i j : Nat) : (d.setReg k v i j).aisle = d.aisle := rfl
@[simp] theorem Dev.setReg_mgmtQ (k : RegKind) (v : Word) (i j : Nat) : (d.setReg k v i j).mgmtQ = d.mgmtQ := rfl
@[simp] theorem Dev.setReg_arbs (k : RegKind) (v : Word) (i j : Nat) : (d.setReg k v i j).arbs = d.arbs := rfl
@[simp] theorem Dev.setReg_scheds (k : RegKind) (v : Word) (i j : Nat) : (d.setReg k v i j).scheds = d.scheds := rfl
@[simp] theorem Dev.setReg_fences (k : RegKind) (v : Word) (i j : Nat) : (d.setReg k v i j).fences = d.fences := rfl
@[simp] theorem Dev.setReg_nerup (k : RegKind) (v : Word) (i j : Nat) : (d.setReg k v i j).nerup = d.nerup := rfl
@[simp] theorem Dev.setReg_hall (k : RegKind) (v : Word) (i j : Nat) : (d.setReg k v i j).hall = d.hall := rfl
@[simp] theorem Dev.setReg_twin (k : RegKind) (v : Word) (i j : Nat) : (d.setReg k v i j).twin = d.twin := rfl
@[simp] theorem Dev.setReg_rings (k : RegKind) (v : Word) (i j : Nat) : (d.setReg k v i j).rings = d.rings := rfl
@[simp] theorem Dev.setReg_stalls (k : RegKind) (v : Word) (i j : Nat) : (d.setReg k v i j).stalls = d.stalls := rfl
@[simp] theorem Dev.setReg_porters (k : RegKind) (v : Word) (i j : Nat) : (d.setReg k v i j).porters = d.porters := rfl
@[simp] theorem Dev.setReg_xlat (k : RegKind) (v : Word) (i j : Nat) : (d.setReg k v i j).xlat = d.xlat := rfl
@[simp] theorem Dev.setReg_invs (k : RegKind) (v : Word) (i j : Nat) : (d.setReg k v i j).invs = d.invs := rfl
@[simp] theorem Dev.setReg_ledger (k : RegKind) (v : Word) (i j : Nat) : (d.setReg k v i j).ledger = d.ledger := rfl
@[simp] theorem Dev.setReg_links (k : RegKind) (v : Word) (i j : Nat) : (d.setReg k v i j).links = d.links := rfl
@[simp] theorem Dev.setReg_lanes (k : RegKind) (v : Word) (i j : Nat) : (d.setReg k v i j).lanes = d.lanes := rfl
@[simp] theorem Dev.setReg_rows (k : RegKind) (v : Word) (i j : Nat) : (d.setReg k v i j).rows = d.rows := rfl
@[simp] theorem Dev.setReg_slots (k : RegKind) (v : Word) (i j : Nat) : (d.setReg k v i j).slots = d.slots := rfl
@[simp] theorem Dev.setReg_chains (k : RegKind) (v : Word) (i j : Nat) : (d.setReg k v i j).chains = d.chains := rfl
@[simp] theorem Dev.setReg_spcs (k : RegKind) (v : Word) (i j : Nat) : (d.setReg k v i j).spcs = d.spcs := rfl
@[simp] theorem Dev.setReg_domains (k : RegKind) (v : Word) (i j : Nat) : (d.setReg k v i j).domains = d.domains := rfl
@[simp] theorem Dev.setReg_pulses (k : RegKind) (v : Word) (i j : Nat) : (d.setReg k v i j).pulses = d.pulses := rfl
@[simp] theorem Dev.setReg_jtag (k : RegKind) (v : Word) (i j : Nat) : (d.setReg k v i j).jtag = d.jtag := rfl
@[simp] theorem Dev.setReg_clocks (k : RegKind) (v : Word) (i j : Nat) : (d.setReg k v i j).clocks = d.clocks := rfl
@[simp] theorem Dev.setReg_rst (k : RegKind) (v : Word) (i j : Nat) : (d.setReg k v i j).rst = d.rst := rfl
@[simp] theorem Dev.setReg_mgmt (k : RegKind) (v : Word) (i j : Nat) : (d.setReg k v i j).mgmt = d.mgmt := rfl
@[simp] theorem Dev.setReg_evq (k : RegKind) (v : Word) (i j : Nat) : (d.setReg k v i j).evq = d.evq := rfl
@[simp] theorem Dev.setReg_tally (k : RegKind) (v : Word) (i j : Nat) : (d.setReg k v i j).tally = d.tally := rfl
@[simp] theorem Dev.setReg_time (k : RegKind) (v : Word) (i j : Nat) : (d.setReg k v i j).time = d.time := rfl
@[simp] theorem Dev.setReg_errs (k : RegKind) (v : Word) (i j : Nat) : (d.setReg k v i j).errs = d.errs := rfl
@[simp] theorem Dev.setReg_raised (k : RegKind) (v : Word) (i j : Nat) : (d.setReg k v i j).raised = d.raised := rfl

@[simp] theorem Dev.setF_out (f : Fld) (v i j : Nat) : (d.setF f v i j).out = d.out := rfl
@[simp] theorem Dev.setF_free (f : Fld) (v i j : Nat) : (d.setF f v i j).free = d.free := rfl
@[simp] theorem Dev.setF_bindCount (f : Fld) (v i j : Nat) : (d.setF f v i j).bindCount = d.bindCount := rfl
@[simp] theorem Dev.setF_own (f : Fld) (v i j : Nat) : (d.setF f v i j).own = d.own := rfl
@[simp] theorem Dev.setF_cfg (f : Fld) (v i j : Nat) : (d.setF f v i j).cfg = d.cfg := rfl
@[simp] theorem Dev.setF_msix (f : Fld) (v i j : Nat) : (d.setF f v i j).msix = d.msix := rfl
@[simp] theorem Dev.setF_pba (f : Fld) (v i j : Nat) : (d.setF f v i j).pba = d.pba := rfl
@[simp] theorem Dev.setF_shadow (f : Fld) (v i j : Nat) : (d.setF f v i j).shadow = d.shadow := rfl
@[simp] theorem Dev.setF_active (f : Fld) (v i j : Nat) : (d.setF f v i j).active = d.active := rfl
@[simp] theorem Dev.setF_fwd (f : Fld) (v i j : Nat) : (d.setF f v i j).fwd = d.fwd := rfl
@[simp] theorem Dev.setF_floor (f : Fld) (v i j : Nat) : (d.setF f v i j).floor = d.floor := rfl
@[simp] theorem Dev.setF_aisle (f : Fld) (v i j : Nat) : (d.setF f v i j).aisle = d.aisle := rfl
@[simp] theorem Dev.setF_mgmtQ (f : Fld) (v i j : Nat) : (d.setF f v i j).mgmtQ = d.mgmtQ := rfl
@[simp] theorem Dev.setF_arbs (f : Fld) (v i j : Nat) : (d.setF f v i j).arbs = d.arbs := rfl
@[simp] theorem Dev.setF_scheds (f : Fld) (v i j : Nat) : (d.setF f v i j).scheds = d.scheds := rfl
@[simp] theorem Dev.setF_fences (f : Fld) (v i j : Nat) : (d.setF f v i j).fences = d.fences := rfl
@[simp] theorem Dev.setF_nerup (f : Fld) (v i j : Nat) : (d.setF f v i j).nerup = d.nerup := rfl
@[simp] theorem Dev.setF_hall (f : Fld) (v i j : Nat) : (d.setF f v i j).hall = d.hall := rfl
@[simp] theorem Dev.setF_twin (f : Fld) (v i j : Nat) : (d.setF f v i j).twin = d.twin := rfl
@[simp] theorem Dev.setF_rings (f : Fld) (v i j : Nat) : (d.setF f v i j).rings = d.rings := rfl
@[simp] theorem Dev.setF_stalls (f : Fld) (v i j : Nat) : (d.setF f v i j).stalls = d.stalls := rfl
@[simp] theorem Dev.setF_porters (f : Fld) (v i j : Nat) : (d.setF f v i j).porters = d.porters := rfl
@[simp] theorem Dev.setF_xlat (f : Fld) (v i j : Nat) : (d.setF f v i j).xlat = d.xlat := rfl
@[simp] theorem Dev.setF_invs (f : Fld) (v i j : Nat) : (d.setF f v i j).invs = d.invs := rfl
@[simp] theorem Dev.setF_ledger (f : Fld) (v i j : Nat) : (d.setF f v i j).ledger = d.ledger := rfl
@[simp] theorem Dev.setF_links (f : Fld) (v i j : Nat) : (d.setF f v i j).links = d.links := rfl
@[simp] theorem Dev.setF_lanes (f : Fld) (v i j : Nat) : (d.setF f v i j).lanes = d.lanes := rfl
@[simp] theorem Dev.setF_rows (f : Fld) (v i j : Nat) : (d.setF f v i j).rows = d.rows := rfl
@[simp] theorem Dev.setF_slots (f : Fld) (v i j : Nat) : (d.setF f v i j).slots = d.slots := rfl
@[simp] theorem Dev.setF_chains (f : Fld) (v i j : Nat) : (d.setF f v i j).chains = d.chains := rfl
@[simp] theorem Dev.setF_spcs (f : Fld) (v i j : Nat) : (d.setF f v i j).spcs = d.spcs := rfl
@[simp] theorem Dev.setF_domains (f : Fld) (v i j : Nat) : (d.setF f v i j).domains = d.domains := rfl
@[simp] theorem Dev.setF_pulses (f : Fld) (v i j : Nat) : (d.setF f v i j).pulses = d.pulses := rfl
@[simp] theorem Dev.setF_jtag (f : Fld) (v i j : Nat) : (d.setF f v i j).jtag = d.jtag := rfl
@[simp] theorem Dev.setF_clocks (f : Fld) (v i j : Nat) : (d.setF f v i j).clocks = d.clocks := rfl
@[simp] theorem Dev.setF_rst (f : Fld) (v i j : Nat) : (d.setF f v i j).rst = d.rst := rfl
@[simp] theorem Dev.setF_mgmt (f : Fld) (v i j : Nat) : (d.setF f v i j).mgmt = d.mgmt := rfl
@[simp] theorem Dev.setF_evq (f : Fld) (v i j : Nat) : (d.setF f v i j).evq = d.evq := rfl
@[simp] theorem Dev.setF_tally (f : Fld) (v i j : Nat) : (d.setF f v i j).tally = d.tally := rfl
@[simp] theorem Dev.setF_time (f : Fld) (v i j : Nat) : (d.setF f v i j).time = d.time := rfl
@[simp] theorem Dev.setF_errs (f : Fld) (v i j : Nat) : (d.setF f v i j).errs = d.errs := rfl
@[simp] theorem Dev.setF_raised (f : Fld) (v i j : Nat) : (d.setF f v i j).raised = d.raised := rfl

@[simp] theorem Dev.setB_out (f : Fld) (v : Bool) (i j : Nat) : (d.setB f v i j).out = d.out := rfl
@[simp] theorem Dev.setB_free (f : Fld) (v : Bool) (i j : Nat) : (d.setB f v i j).free = d.free := rfl
@[simp] theorem Dev.setB_bindCount (f : Fld) (v : Bool) (i j : Nat) : (d.setB f v i j).bindCount = d.bindCount := rfl
@[simp] theorem Dev.setB_own (f : Fld) (v : Bool) (i j : Nat) : (d.setB f v i j).own = d.own := rfl
@[simp] theorem Dev.setB_cfg (f : Fld) (v : Bool) (i j : Nat) : (d.setB f v i j).cfg = d.cfg := rfl
@[simp] theorem Dev.setB_msix (f : Fld) (v : Bool) (i j : Nat) : (d.setB f v i j).msix = d.msix := rfl
@[simp] theorem Dev.setB_pba (f : Fld) (v : Bool) (i j : Nat) : (d.setB f v i j).pba = d.pba := rfl
@[simp] theorem Dev.setB_shadow (f : Fld) (v : Bool) (i j : Nat) : (d.setB f v i j).shadow = d.shadow := rfl
@[simp] theorem Dev.setB_active (f : Fld) (v : Bool) (i j : Nat) : (d.setB f v i j).active = d.active := rfl
@[simp] theorem Dev.setB_fwd (f : Fld) (v : Bool) (i j : Nat) : (d.setB f v i j).fwd = d.fwd := rfl
@[simp] theorem Dev.setB_floor (f : Fld) (v : Bool) (i j : Nat) : (d.setB f v i j).floor = d.floor := rfl
@[simp] theorem Dev.setB_aisle (f : Fld) (v : Bool) (i j : Nat) : (d.setB f v i j).aisle = d.aisle := rfl
@[simp] theorem Dev.setB_mgmtQ (f : Fld) (v : Bool) (i j : Nat) : (d.setB f v i j).mgmtQ = d.mgmtQ := rfl
@[simp] theorem Dev.setB_arbs (f : Fld) (v : Bool) (i j : Nat) : (d.setB f v i j).arbs = d.arbs := rfl
@[simp] theorem Dev.setB_scheds (f : Fld) (v : Bool) (i j : Nat) : (d.setB f v i j).scheds = d.scheds := rfl
@[simp] theorem Dev.setB_fences (f : Fld) (v : Bool) (i j : Nat) : (d.setB f v i j).fences = d.fences := rfl
@[simp] theorem Dev.setB_nerup (f : Fld) (v : Bool) (i j : Nat) : (d.setB f v i j).nerup = d.nerup := rfl
@[simp] theorem Dev.setB_hall (f : Fld) (v : Bool) (i j : Nat) : (d.setB f v i j).hall = d.hall := rfl
@[simp] theorem Dev.setB_twin (f : Fld) (v : Bool) (i j : Nat) : (d.setB f v i j).twin = d.twin := rfl
@[simp] theorem Dev.setB_rings (f : Fld) (v : Bool) (i j : Nat) : (d.setB f v i j).rings = d.rings := rfl
@[simp] theorem Dev.setB_stalls (f : Fld) (v : Bool) (i j : Nat) : (d.setB f v i j).stalls = d.stalls := rfl
@[simp] theorem Dev.setB_porters (f : Fld) (v : Bool) (i j : Nat) : (d.setB f v i j).porters = d.porters := rfl
@[simp] theorem Dev.setB_xlat (f : Fld) (v : Bool) (i j : Nat) : (d.setB f v i j).xlat = d.xlat := rfl
@[simp] theorem Dev.setB_invs (f : Fld) (v : Bool) (i j : Nat) : (d.setB f v i j).invs = d.invs := rfl
@[simp] theorem Dev.setB_ledger (f : Fld) (v : Bool) (i j : Nat) : (d.setB f v i j).ledger = d.ledger := rfl
@[simp] theorem Dev.setB_links (f : Fld) (v : Bool) (i j : Nat) : (d.setB f v i j).links = d.links := rfl
@[simp] theorem Dev.setB_lanes (f : Fld) (v : Bool) (i j : Nat) : (d.setB f v i j).lanes = d.lanes := rfl
@[simp] theorem Dev.setB_rows (f : Fld) (v : Bool) (i j : Nat) : (d.setB f v i j).rows = d.rows := rfl
@[simp] theorem Dev.setB_slots (f : Fld) (v : Bool) (i j : Nat) : (d.setB f v i j).slots = d.slots := rfl
@[simp] theorem Dev.setB_chains (f : Fld) (v : Bool) (i j : Nat) : (d.setB f v i j).chains = d.chains := rfl
@[simp] theorem Dev.setB_spcs (f : Fld) (v : Bool) (i j : Nat) : (d.setB f v i j).spcs = d.spcs := rfl
@[simp] theorem Dev.setB_domains (f : Fld) (v : Bool) (i j : Nat) : (d.setB f v i j).domains = d.domains := rfl
@[simp] theorem Dev.setB_pulses (f : Fld) (v : Bool) (i j : Nat) : (d.setB f v i j).pulses = d.pulses := rfl
@[simp] theorem Dev.setB_jtag (f : Fld) (v : Bool) (i j : Nat) : (d.setB f v i j).jtag = d.jtag := rfl
@[simp] theorem Dev.setB_clocks (f : Fld) (v : Bool) (i j : Nat) : (d.setB f v i j).clocks = d.clocks := rfl
@[simp] theorem Dev.setB_rst (f : Fld) (v : Bool) (i j : Nat) : (d.setB f v i j).rst = d.rst := rfl
@[simp] theorem Dev.setB_mgmt (f : Fld) (v : Bool) (i j : Nat) : (d.setB f v i j).mgmt = d.mgmt := rfl
@[simp] theorem Dev.setB_evq (f : Fld) (v : Bool) (i j : Nat) : (d.setB f v i j).evq = d.evq := rfl
@[simp] theorem Dev.setB_tally (f : Fld) (v : Bool) (i j : Nat) : (d.setB f v i j).tally = d.tally := rfl
@[simp] theorem Dev.setB_time (f : Fld) (v : Bool) (i j : Nat) : (d.setB f v i j).time = d.time := rfl
@[simp] theorem Dev.setB_errs (f : Fld) (v : Bool) (i j : Nat) : (d.setB f v i j).errs = d.errs := rfl
@[simp] theorem Dev.setB_raised (f : Fld) (v : Bool) (i j : Nat) : (d.setB f v i j).raised = d.raised := rfl

@[simp] theorem Dev.inc_out (k : RegKind) (n i j : Nat) : (d.inc k n i j).out = d.out := rfl
@[simp] theorem Dev.inc_free (k : RegKind) (n i j : Nat) : (d.inc k n i j).free = d.free := rfl
@[simp] theorem Dev.inc_bindCount (k : RegKind) (n i j : Nat) : (d.inc k n i j).bindCount = d.bindCount := rfl
@[simp] theorem Dev.inc_own (k : RegKind) (n i j : Nat) : (d.inc k n i j).own = d.own := rfl
@[simp] theorem Dev.inc_cfg (k : RegKind) (n i j : Nat) : (d.inc k n i j).cfg = d.cfg := rfl
@[simp] theorem Dev.inc_msix (k : RegKind) (n i j : Nat) : (d.inc k n i j).msix = d.msix := rfl
@[simp] theorem Dev.inc_pba (k : RegKind) (n i j : Nat) : (d.inc k n i j).pba = d.pba := rfl
@[simp] theorem Dev.inc_shadow (k : RegKind) (n i j : Nat) : (d.inc k n i j).shadow = d.shadow := rfl
@[simp] theorem Dev.inc_active (k : RegKind) (n i j : Nat) : (d.inc k n i j).active = d.active := rfl
@[simp] theorem Dev.inc_fwd (k : RegKind) (n i j : Nat) : (d.inc k n i j).fwd = d.fwd := rfl
@[simp] theorem Dev.inc_floor (k : RegKind) (n i j : Nat) : (d.inc k n i j).floor = d.floor := rfl
@[simp] theorem Dev.inc_aisle (k : RegKind) (n i j : Nat) : (d.inc k n i j).aisle = d.aisle := rfl
@[simp] theorem Dev.inc_mgmtQ (k : RegKind) (n i j : Nat) : (d.inc k n i j).mgmtQ = d.mgmtQ := rfl
@[simp] theorem Dev.inc_arbs (k : RegKind) (n i j : Nat) : (d.inc k n i j).arbs = d.arbs := rfl
@[simp] theorem Dev.inc_scheds (k : RegKind) (n i j : Nat) : (d.inc k n i j).scheds = d.scheds := rfl
@[simp] theorem Dev.inc_fences (k : RegKind) (n i j : Nat) : (d.inc k n i j).fences = d.fences := rfl
@[simp] theorem Dev.inc_nerup (k : RegKind) (n i j : Nat) : (d.inc k n i j).nerup = d.nerup := rfl
@[simp] theorem Dev.inc_hall (k : RegKind) (n i j : Nat) : (d.inc k n i j).hall = d.hall := rfl
@[simp] theorem Dev.inc_twin (k : RegKind) (n i j : Nat) : (d.inc k n i j).twin = d.twin := rfl
@[simp] theorem Dev.inc_rings (k : RegKind) (n i j : Nat) : (d.inc k n i j).rings = d.rings := rfl
@[simp] theorem Dev.inc_stalls (k : RegKind) (n i j : Nat) : (d.inc k n i j).stalls = d.stalls := rfl
@[simp] theorem Dev.inc_porters (k : RegKind) (n i j : Nat) : (d.inc k n i j).porters = d.porters := rfl
@[simp] theorem Dev.inc_xlat (k : RegKind) (n i j : Nat) : (d.inc k n i j).xlat = d.xlat := rfl
@[simp] theorem Dev.inc_invs (k : RegKind) (n i j : Nat) : (d.inc k n i j).invs = d.invs := rfl
@[simp] theorem Dev.inc_ledger (k : RegKind) (n i j : Nat) : (d.inc k n i j).ledger = d.ledger := rfl
@[simp] theorem Dev.inc_links (k : RegKind) (n i j : Nat) : (d.inc k n i j).links = d.links := rfl
@[simp] theorem Dev.inc_lanes (k : RegKind) (n i j : Nat) : (d.inc k n i j).lanes = d.lanes := rfl
@[simp] theorem Dev.inc_rows (k : RegKind) (n i j : Nat) : (d.inc k n i j).rows = d.rows := rfl
@[simp] theorem Dev.inc_slots (k : RegKind) (n i j : Nat) : (d.inc k n i j).slots = d.slots := rfl
@[simp] theorem Dev.inc_chains (k : RegKind) (n i j : Nat) : (d.inc k n i j).chains = d.chains := rfl
@[simp] theorem Dev.inc_spcs (k : RegKind) (n i j : Nat) : (d.inc k n i j).spcs = d.spcs := rfl
@[simp] theorem Dev.inc_domains (k : RegKind) (n i j : Nat) : (d.inc k n i j).domains = d.domains := rfl
@[simp] theorem Dev.inc_pulses (k : RegKind) (n i j : Nat) : (d.inc k n i j).pulses = d.pulses := rfl
@[simp] theorem Dev.inc_jtag (k : RegKind) (n i j : Nat) : (d.inc k n i j).jtag = d.jtag := rfl
@[simp] theorem Dev.inc_clocks (k : RegKind) (n i j : Nat) : (d.inc k n i j).clocks = d.clocks := rfl
@[simp] theorem Dev.inc_rst (k : RegKind) (n i j : Nat) : (d.inc k n i j).rst = d.rst := rfl
@[simp] theorem Dev.inc_mgmt (k : RegKind) (n i j : Nat) : (d.inc k n i j).mgmt = d.mgmt := rfl
@[simp] theorem Dev.inc_evq (k : RegKind) (n i j : Nat) : (d.inc k n i j).evq = d.evq := rfl
@[simp] theorem Dev.inc_tally (k : RegKind) (n i j : Nat) : (d.inc k n i j).tally = d.tally := rfl
@[simp] theorem Dev.inc_time (k : RegKind) (n i j : Nat) : (d.inc k n i j).time = d.time := rfl
@[simp] theorem Dev.inc_errs (k : RegKind) (n i j : Nat) : (d.inc k n i j).errs = d.errs := rfl
@[simp] theorem Dev.inc_raised (k : RegKind) (n i j : Nat) : (d.inc k n i j).raised = d.raised := rfl

@[simp] theorem Dev.emit_free (o : Out) : (d.emit o).free = d.free := rfl
@[simp] theorem Dev.emit_bindCount (o : Out) : (d.emit o).bindCount = d.bindCount := rfl
@[simp] theorem Dev.emit_own (o : Out) : (d.emit o).own = d.own := rfl
@[simp] theorem Dev.emit_regs (o : Out) : (d.emit o).regs = d.regs := rfl
@[simp] theorem Dev.emit_cfg (o : Out) : (d.emit o).cfg = d.cfg := rfl
@[simp] theorem Dev.emit_msix (o : Out) : (d.emit o).msix = d.msix := rfl
@[simp] theorem Dev.emit_pba (o : Out) : (d.emit o).pba = d.pba := rfl
@[simp] theorem Dev.emit_shadow (o : Out) : (d.emit o).shadow = d.shadow := rfl
@[simp] theorem Dev.emit_active (o : Out) : (d.emit o).active = d.active := rfl
@[simp] theorem Dev.emit_fwd (o : Out) : (d.emit o).fwd = d.fwd := rfl
@[simp] theorem Dev.emit_floor (o : Out) : (d.emit o).floor = d.floor := rfl
@[simp] theorem Dev.emit_aisle (o : Out) : (d.emit o).aisle = d.aisle := rfl
@[simp] theorem Dev.emit_mgmtQ (o : Out) : (d.emit o).mgmtQ = d.mgmtQ := rfl
@[simp] theorem Dev.emit_arbs (o : Out) : (d.emit o).arbs = d.arbs := rfl
@[simp] theorem Dev.emit_scheds (o : Out) : (d.emit o).scheds = d.scheds := rfl
@[simp] theorem Dev.emit_fences (o : Out) : (d.emit o).fences = d.fences := rfl
@[simp] theorem Dev.emit_nerup (o : Out) : (d.emit o).nerup = d.nerup := rfl
@[simp] theorem Dev.emit_hall (o : Out) : (d.emit o).hall = d.hall := rfl
@[simp] theorem Dev.emit_twin (o : Out) : (d.emit o).twin = d.twin := rfl
@[simp] theorem Dev.emit_rings (o : Out) : (d.emit o).rings = d.rings := rfl
@[simp] theorem Dev.emit_stalls (o : Out) : (d.emit o).stalls = d.stalls := rfl
@[simp] theorem Dev.emit_porters (o : Out) : (d.emit o).porters = d.porters := rfl
@[simp] theorem Dev.emit_xlat (o : Out) : (d.emit o).xlat = d.xlat := rfl
@[simp] theorem Dev.emit_invs (o : Out) : (d.emit o).invs = d.invs := rfl
@[simp] theorem Dev.emit_ledger (o : Out) : (d.emit o).ledger = d.ledger := rfl
@[simp] theorem Dev.emit_links (o : Out) : (d.emit o).links = d.links := rfl
@[simp] theorem Dev.emit_lanes (o : Out) : (d.emit o).lanes = d.lanes := rfl
@[simp] theorem Dev.emit_rows (o : Out) : (d.emit o).rows = d.rows := rfl
@[simp] theorem Dev.emit_slots (o : Out) : (d.emit o).slots = d.slots := rfl
@[simp] theorem Dev.emit_chains (o : Out) : (d.emit o).chains = d.chains := rfl
@[simp] theorem Dev.emit_spcs (o : Out) : (d.emit o).spcs = d.spcs := rfl
@[simp] theorem Dev.emit_domains (o : Out) : (d.emit o).domains = d.domains := rfl
@[simp] theorem Dev.emit_pulses (o : Out) : (d.emit o).pulses = d.pulses := rfl
@[simp] theorem Dev.emit_jtag (o : Out) : (d.emit o).jtag = d.jtag := rfl
@[simp] theorem Dev.emit_clocks (o : Out) : (d.emit o).clocks = d.clocks := rfl
@[simp] theorem Dev.emit_rst (o : Out) : (d.emit o).rst = d.rst := rfl
@[simp] theorem Dev.emit_mgmt (o : Out) : (d.emit o).mgmt = d.mgmt := rfl
@[simp] theorem Dev.emit_evq (o : Out) : (d.emit o).evq = d.evq := rfl
@[simp] theorem Dev.emit_tally (o : Out) : (d.emit o).tally = d.tally := rfl
@[simp] theorem Dev.emit_time (o : Out) : (d.emit o).time = d.time := rfl
@[simp] theorem Dev.emit_errs (o : Out) : (d.emit o).errs = d.errs := rfl
@[simp] theorem Dev.emit_raised (o : Out) : (d.emit o).raised = d.raised := rfl

@[simp] theorem Dev.useFree_out (n : Nat) : (d.useFree n).out = d.out := rfl
@[simp] theorem Dev.useFree_bindCount (n : Nat) : (d.useFree n).bindCount = d.bindCount := rfl
@[simp] theorem Dev.useFree_own (n : Nat) : (d.useFree n).own = d.own := rfl
@[simp] theorem Dev.useFree_regs (n : Nat) : (d.useFree n).regs = d.regs := rfl
@[simp] theorem Dev.useFree_cfg (n : Nat) : (d.useFree n).cfg = d.cfg := rfl
@[simp] theorem Dev.useFree_msix (n : Nat) : (d.useFree n).msix = d.msix := rfl
@[simp] theorem Dev.useFree_pba (n : Nat) : (d.useFree n).pba = d.pba := rfl
@[simp] theorem Dev.useFree_shadow (n : Nat) : (d.useFree n).shadow = d.shadow := rfl
@[simp] theorem Dev.useFree_active (n : Nat) : (d.useFree n).active = d.active := rfl
@[simp] theorem Dev.useFree_fwd (n : Nat) : (d.useFree n).fwd = d.fwd := rfl
@[simp] theorem Dev.useFree_floor (n : Nat) : (d.useFree n).floor = d.floor := rfl
@[simp] theorem Dev.useFree_aisle (n : Nat) : (d.useFree n).aisle = d.aisle := rfl
@[simp] theorem Dev.useFree_mgmtQ (n : Nat) : (d.useFree n).mgmtQ = d.mgmtQ := rfl
@[simp] theorem Dev.useFree_arbs (n : Nat) : (d.useFree n).arbs = d.arbs := rfl
@[simp] theorem Dev.useFree_scheds (n : Nat) : (d.useFree n).scheds = d.scheds := rfl
@[simp] theorem Dev.useFree_fences (n : Nat) : (d.useFree n).fences = d.fences := rfl
@[simp] theorem Dev.useFree_nerup (n : Nat) : (d.useFree n).nerup = d.nerup := rfl
@[simp] theorem Dev.useFree_hall (n : Nat) : (d.useFree n).hall = d.hall := rfl
@[simp] theorem Dev.useFree_twin (n : Nat) : (d.useFree n).twin = d.twin := rfl
@[simp] theorem Dev.useFree_rings (n : Nat) : (d.useFree n).rings = d.rings := rfl
@[simp] theorem Dev.useFree_stalls (n : Nat) : (d.useFree n).stalls = d.stalls := rfl
@[simp] theorem Dev.useFree_porters (n : Nat) : (d.useFree n).porters = d.porters := rfl
@[simp] theorem Dev.useFree_xlat (n : Nat) : (d.useFree n).xlat = d.xlat := rfl
@[simp] theorem Dev.useFree_invs (n : Nat) : (d.useFree n).invs = d.invs := rfl
@[simp] theorem Dev.useFree_ledger (n : Nat) : (d.useFree n).ledger = d.ledger := rfl
@[simp] theorem Dev.useFree_links (n : Nat) : (d.useFree n).links = d.links := rfl
@[simp] theorem Dev.useFree_lanes (n : Nat) : (d.useFree n).lanes = d.lanes := rfl
@[simp] theorem Dev.useFree_rows (n : Nat) : (d.useFree n).rows = d.rows := rfl
@[simp] theorem Dev.useFree_slots (n : Nat) : (d.useFree n).slots = d.slots := rfl
@[simp] theorem Dev.useFree_chains (n : Nat) : (d.useFree n).chains = d.chains := rfl
@[simp] theorem Dev.useFree_spcs (n : Nat) : (d.useFree n).spcs = d.spcs := rfl
@[simp] theorem Dev.useFree_domains (n : Nat) : (d.useFree n).domains = d.domains := rfl
@[simp] theorem Dev.useFree_pulses (n : Nat) : (d.useFree n).pulses = d.pulses := rfl
@[simp] theorem Dev.useFree_jtag (n : Nat) : (d.useFree n).jtag = d.jtag := rfl
@[simp] theorem Dev.useFree_clocks (n : Nat) : (d.useFree n).clocks = d.clocks := rfl
@[simp] theorem Dev.useFree_rst (n : Nat) : (d.useFree n).rst = d.rst := rfl
@[simp] theorem Dev.useFree_mgmt (n : Nat) : (d.useFree n).mgmt = d.mgmt := rfl
@[simp] theorem Dev.useFree_evq (n : Nat) : (d.useFree n).evq = d.evq := rfl
@[simp] theorem Dev.useFree_tally (n : Nat) : (d.useFree n).tally = d.tally := rfl
@[simp] theorem Dev.useFree_time (n : Nat) : (d.useFree n).time = d.time := rfl
@[simp] theorem Dev.useFree_errs (n : Nat) : (d.useFree n).errs = d.errs := rfl
@[simp] theorem Dev.useFree_raised (n : Nat) : (d.useFree n).raised = d.raised := rfl

@[simp] theorem Dev.setCf_out (f : Fn) (off : Nat) (v : BitVec 32) : (d.setCf f off v).out = d.out := rfl
@[simp] theorem Dev.setCf_free (f : Fn) (off : Nat) (v : BitVec 32) : (d.setCf f off v).free = d.free := rfl
@[simp] theorem Dev.setCf_bindCount (f : Fn) (off : Nat) (v : BitVec 32) : (d.setCf f off v).bindCount = d.bindCount := rfl
@[simp] theorem Dev.setCf_own (f : Fn) (off : Nat) (v : BitVec 32) : (d.setCf f off v).own = d.own := rfl
@[simp] theorem Dev.setCf_regs (f : Fn) (off : Nat) (v : BitVec 32) : (d.setCf f off v).regs = d.regs := rfl
@[simp] theorem Dev.setCf_msix (f : Fn) (off : Nat) (v : BitVec 32) : (d.setCf f off v).msix = d.msix := rfl
@[simp] theorem Dev.setCf_pba (f : Fn) (off : Nat) (v : BitVec 32) : (d.setCf f off v).pba = d.pba := rfl
@[simp] theorem Dev.setCf_shadow (f : Fn) (off : Nat) (v : BitVec 32) : (d.setCf f off v).shadow = d.shadow := rfl
@[simp] theorem Dev.setCf_active (f : Fn) (off : Nat) (v : BitVec 32) : (d.setCf f off v).active = d.active := rfl
@[simp] theorem Dev.setCf_fwd (f : Fn) (off : Nat) (v : BitVec 32) : (d.setCf f off v).fwd = d.fwd := rfl
@[simp] theorem Dev.setCf_floor (f : Fn) (off : Nat) (v : BitVec 32) : (d.setCf f off v).floor = d.floor := rfl
@[simp] theorem Dev.setCf_aisle (f : Fn) (off : Nat) (v : BitVec 32) : (d.setCf f off v).aisle = d.aisle := rfl
@[simp] theorem Dev.setCf_mgmtQ (f : Fn) (off : Nat) (v : BitVec 32) : (d.setCf f off v).mgmtQ = d.mgmtQ := rfl
@[simp] theorem Dev.setCf_arbs (f : Fn) (off : Nat) (v : BitVec 32) : (d.setCf f off v).arbs = d.arbs := rfl
@[simp] theorem Dev.setCf_scheds (f : Fn) (off : Nat) (v : BitVec 32) : (d.setCf f off v).scheds = d.scheds := rfl
@[simp] theorem Dev.setCf_fences (f : Fn) (off : Nat) (v : BitVec 32) : (d.setCf f off v).fences = d.fences := rfl
@[simp] theorem Dev.setCf_nerup (f : Fn) (off : Nat) (v : BitVec 32) : (d.setCf f off v).nerup = d.nerup := rfl
@[simp] theorem Dev.setCf_hall (f : Fn) (off : Nat) (v : BitVec 32) : (d.setCf f off v).hall = d.hall := rfl
@[simp] theorem Dev.setCf_twin (f : Fn) (off : Nat) (v : BitVec 32) : (d.setCf f off v).twin = d.twin := rfl
@[simp] theorem Dev.setCf_rings (f : Fn) (off : Nat) (v : BitVec 32) : (d.setCf f off v).rings = d.rings := rfl
@[simp] theorem Dev.setCf_stalls (f : Fn) (off : Nat) (v : BitVec 32) : (d.setCf f off v).stalls = d.stalls := rfl
@[simp] theorem Dev.setCf_porters (f : Fn) (off : Nat) (v : BitVec 32) : (d.setCf f off v).porters = d.porters := rfl
@[simp] theorem Dev.setCf_xlat (f : Fn) (off : Nat) (v : BitVec 32) : (d.setCf f off v).xlat = d.xlat := rfl
@[simp] theorem Dev.setCf_invs (f : Fn) (off : Nat) (v : BitVec 32) : (d.setCf f off v).invs = d.invs := rfl
@[simp] theorem Dev.setCf_ledger (f : Fn) (off : Nat) (v : BitVec 32) : (d.setCf f off v).ledger = d.ledger := rfl
@[simp] theorem Dev.setCf_links (f : Fn) (off : Nat) (v : BitVec 32) : (d.setCf f off v).links = d.links := rfl
@[simp] theorem Dev.setCf_lanes (f : Fn) (off : Nat) (v : BitVec 32) : (d.setCf f off v).lanes = d.lanes := rfl
@[simp] theorem Dev.setCf_rows (f : Fn) (off : Nat) (v : BitVec 32) : (d.setCf f off v).rows = d.rows := rfl
@[simp] theorem Dev.setCf_slots (f : Fn) (off : Nat) (v : BitVec 32) : (d.setCf f off v).slots = d.slots := rfl
@[simp] theorem Dev.setCf_chains (f : Fn) (off : Nat) (v : BitVec 32) : (d.setCf f off v).chains = d.chains := rfl
@[simp] theorem Dev.setCf_spcs (f : Fn) (off : Nat) (v : BitVec 32) : (d.setCf f off v).spcs = d.spcs := rfl
@[simp] theorem Dev.setCf_domains (f : Fn) (off : Nat) (v : BitVec 32) : (d.setCf f off v).domains = d.domains := rfl
@[simp] theorem Dev.setCf_pulses (f : Fn) (off : Nat) (v : BitVec 32) : (d.setCf f off v).pulses = d.pulses := rfl
@[simp] theorem Dev.setCf_jtag (f : Fn) (off : Nat) (v : BitVec 32) : (d.setCf f off v).jtag = d.jtag := rfl
@[simp] theorem Dev.setCf_clocks (f : Fn) (off : Nat) (v : BitVec 32) : (d.setCf f off v).clocks = d.clocks := rfl
@[simp] theorem Dev.setCf_rst (f : Fn) (off : Nat) (v : BitVec 32) : (d.setCf f off v).rst = d.rst := rfl
@[simp] theorem Dev.setCf_mgmt (f : Fn) (off : Nat) (v : BitVec 32) : (d.setCf f off v).mgmt = d.mgmt := rfl
@[simp] theorem Dev.setCf_evq (f : Fn) (off : Nat) (v : BitVec 32) : (d.setCf f off v).evq = d.evq := rfl
@[simp] theorem Dev.setCf_tally (f : Fn) (off : Nat) (v : BitVec 32) : (d.setCf f off v).tally = d.tally := rfl
@[simp] theorem Dev.setCf_time (f : Fn) (off : Nat) (v : BitVec 32) : (d.setCf f off v).time = d.time := rfl
@[simp] theorem Dev.setCf_errs (f : Fn) (off : Nat) (v : BitVec 32) : (d.setCf f off v).errs = d.errs := rfl
@[simp] theorem Dev.setCf_raised (f : Fn) (off : Nat) (v : BitVec 32) : (d.setCf f off v).raised = d.raised := rfl

/-! ### Registers -/

@[simp] theorem Dev.reg_setReg_same (k : RegKind) (v : Word) (i j : Nat) : (d.setReg k v i j).reg k i j = v :=
  Store.get_set_same RegId.ord RegId.reset d.regs ⟨k, i, j⟩ v

theorem Dev.reg_setReg_ne (k k' : RegKind) (v : Word) (i j i' j' : Nat) (h : (⟨k', i', j'⟩ : RegId) ≠ ⟨k, i, j⟩) :
    (d.setReg k v i j).reg k' i' j' = d.reg k' i' j' :=
  Store.get_set_ne RegId.ord RegId.reset d.regs ⟨k, i, j⟩ ⟨k', i', j'⟩ v h

/-- A register of another kind is not touched. -/
theorem Dev.reg_setReg_kind (k k' : RegKind) (v : Word) (i j i' j' : Nat) (h : k' ≠ k) :
    (d.setReg k v i j).reg k' i' j' = d.reg k' i' j' :=
  d.reg_setReg_ne k k' v i j i' j' (fun e => h (congrArg RegId.kind e))

@[simp] theorem Dev.reg_emit (o : Out) (k : RegKind) (i j : Nat) : (d.emit o).reg k i j = d.reg k i j := rfl
@[simp] theorem Dev.reg_useFree (n : Nat) (k : RegKind) (i j : Nat) : (d.useFree n).reg k i j = d.reg k i j := rfl
@[simp] theorem Dev.reg_setCf (f : Fn) (off : Nat) (v : BitVec 32) (k : RegKind) (i j : Nat) :
    (d.setCf f off v).reg k i j = d.reg k i j := rfl

/-- A field just written reads the value it can hold. -/
theorem Dev.f_setF_same (f : Fld) (v i j : Nat) (h : f.lo + f.w ≤ 64) : (d.setF f v i j).f f i j = v % 2 ^ f.w := by
  unfold Dev.f Dev.setF
  rw [Dev.reg_setReg_same, getBits_putBits_same _ _ _ _ h]

/-- Another field of the same register keeps its value. -/
theorem Dev.f_setF_field (f g : Fld) (v i j : Nat) (hk : g.kind = f.kind) (h : g.lo + g.w ≤ f.lo ∨ f.lo + f.w ≤ g.lo)
    (h64 : g.lo + g.w ≤ 64) : (d.setF f v i j).f g i j = d.f g i j := by
  unfold Dev.f Dev.setF
  rw [hk, Dev.reg_setReg_same, getBits_putBits_ne _ _ _ _ _ _ h h64]

/-- A field of another register keeps its value. -/
theorem Dev.f_setF_ne (f g : Fld) (v i j i' j' : Nat) (h : (⟨g.kind, i', j'⟩ : RegId) ≠ ⟨f.kind, i, j⟩) :
    (d.setF f v i j).f g i' j' = d.f g i' j' := by
  unfold Dev.f Dev.setF
  rw [Dev.reg_setReg_ne _ _ _ _ _ _ _ _ h]

/-- A flag just written. -/
theorem Dev.b_setB_same (f : Fld) (v : Bool) (i j : Nat) (hw : f.w = 1) (h : f.lo + f.w ≤ 64) : (d.setB f v i j).b f i j = v := by
  unfold Dev.b Dev.setB
  rw [Dev.f_setF_same _ _ _ _ _ h, hw]
  cases v <;> rfl

/-! ### Configuration space and shadow sets -/

theorem Dev.cf_setCf_same (f : Fn) (off : Nat) (v : BitVec 32) : (d.setCf f off v).cf f off = v :=
  Store.get_set_same CfgId.ord CfgId.reset d.cfg ⟨f, off / 4⟩ v

theorem Dev.cf_setCf_ne (f f' : Fn) (off off' : Nat) (v : BitVec 32) (h : (⟨f', off' / 4⟩ : CfgId) ≠ ⟨f, off / 4⟩) :
    (d.setCf f off v).cf f' off' = d.cf f' off' :=
  Store.get_set_ne CfgId.ord CfgId.reset d.cfg ⟨f, off / 4⟩ ⟨f', off' / 4⟩ v h

@[simp] theorem Dev.sh_setSh_same (k : TblKind) (v : Word) (i j : Nat) : (d.setSh k v i j).sh k i j = v :=
  Store.get_set_same TblId.ord (fun _ => 0) d.shadow ⟨k, i, j⟩ v

/-! ### The answer of a command -/

@[simp] theorem State.after_pending (s : State) (x : Dev) : (s.after x).pending = s.pending := by simp only [State.after]
@[simp] theorem State.after_fuses (s : State) (x : Dev) : (s.after x).fuses = s.fuses := by simp only [State.after]
theorem State.after_dev (s : State) (x : Dev) : (s.after x).dev = (Dev.injectAll s.dev x).settle := by simp only [State.after]
@[simp] theorem State.done_eq (s : State) (x : Dev) : s.done x = .next (s.after x) := rfl
@[simp] theorem State.doneOr_ok (s : State) (x : Dev) : s.doneOr (.ok x) = .next (s.after x) := rfl
@[simp] theorem State.doneOr_error (s : State) (f : Fault) : s.doneOr (.error f) = .fault f := rfl

end Sys2Proof.Machine
end

