-- ==== Sys2Proof/Laws/Access.lean ====
section
/-! SUPPORT. A register write that is let through, said once: what it answers is what its register does with the value. -/

namespace Sys2Proof.Machine

/-- A 32-bit register has no stored bit above bit 31. -/
theorem RegKind.narrow_rw (k : RegKind) (h : k.info.wide = false) : (k.info.rw ||| k.info.rws) &&& ~~~(0xFFFFFFFF : Word) = 0 := by
  cases k <;> first | rfl | cases h

/-- The bits of a register that a whole write does not cover hold nothing. -/
theorem RegId.width_covers (r : RegId) : (r.kind.info.rw ||| r.kind.info.rws) &&& ~~~r.width = 0 := by
  unfold RegId.width
  split
  · simp
  · next h => exact r.kind.narrow_rw (by simpa using h)

/-- With no injection armed in the block a write meets none. -/
theorem Dev.armedAt_none (d : Dev) (b : Nat) (offs : List Nat) (h : (d.errs.look {} b).parity = []) : d.armedAt b offs = none := by
  unfold Dev.armedAt
  simp [h]

/-- A whole write of a register that is let through and names no RSV bit. -/
theorem Dev.regWrite_whole (d : Dev) (door : Door) (r : RegId) (v : Word) (hp : d.noPort r = false)
    (hs : (d.regSafe r && !r.kind.isErrReg) = false) (hi : (d.errs.look {} (d.blockOf r)).parity = [])
    (hv : v &&& r.width &&& r.kind.info.rsv = 0) : d.regWrite door r v r.width = d.regAct door r (v &&& r.width) := by
  have hw : d.writeBase r &&& (r.kind.info.rw ||| r.kind.info.rws) &&& ~~~r.width = 0 := by
    rw [BitVec.and_assoc, r.width_covers]; simp
  unfold Dev.regWrite
  simp [hp, hs, hv, hw, Dev.armedAt_none d _ _ hi]

/-- A write by the management PF that `takes` lets through. -/
theorem State.write_takes (s : State) (r : RegId) (v : Word) (h : s.dev.takes r) (hv : v &&& r.width &&& r.kind.info.rsv = 0) :
    s.write r v = s.doneReg (s.dev.regAct .mgmtPf r (v &&& r.width)) := by
  obtain ⟨hg, hf, hp, hs, hi⟩ := h
  obtain ⟨k, hk⟩ := Option.isSome_iff_exists.1 hf
  unfold State.write Dev.regWriteCmd
  simp [hg, hk, Dev.regMake, Dev.regWrite_whole s.dev .mgmtPf r v hp hs hi hv]

/-- A register's RSV bits are none of its RW and RWS bits. -/
theorem RegKind.rsv_disjoint (k : RegKind) : (k.info.rw ||| k.info.rws) &&& k.info.rsv = 0 := by cases k <;> rfl

/-- What a write that changes only the bits `m` writes names no RSV bit outside `m`. -/
theorem Dev.same_rsv (d : Dev) (r : RegId) (m x : Word) (h : x &&& m &&& r.kind.info.rsv = 0) :
    (d.same r &&& ~~~m ||| x &&& m) &&& r.width &&& r.kind.info.rsv = 0 := by
  have h1 := r.kind.rsv_disjoint
  unfold Dev.same
  generalize d.reg r.kind r.i r.j = v
  generalize r.kind.info.rw ||| r.kind.info.rws = a at *
  generalize r.kind.info.rsv = c at *
  apply BitVec.eq_of_getLsbD_eq
  intro k hk
  have h2 : (a &&& c).getLsbD k = false := by rw [h1]; simp
  have h3 : (x &&& m &&& c).getLsbD k = false := by rw [h]; simp
  simp only [BitVec.getLsbD_and, BitVec.getLsbD_or] at *
  cases h4 : c.getLsbD k <;> simp_all

/-- A 32-bit value lies in a 32-bit register. -/
theorem zeroExtend_width (r : RegId) (v : BitVec 32) : v.zeroExtend 64 &&& r.width = v.zeroExtend 64 := by
  unfold RegId.width
  split
  · exact BitVec.and_allOnes
  · apply BitVec.eq_of_getLsbD_eq
    intro k hk
    have h : (0xFFFFFFFF : Word).getLsbD k = decide (k < 32) := by
      show (2 ^ 32 - 1 : Nat).testBit k = _
      rw [Nat.testBit_two_pow_sub_one]
    rw [BitVec.getLsbD_and, h, BitVec.zeroExtend_eq_setWidth, BitVec.getLsbD_setWidth]
    by_cases h2 : k < 32
    · simp [h2]
    · simp [h2, BitVec.getLsbD_of_ge v k (by omega)]

/-- A 32-bit write by the management PF that `takes` lets through. -/
theorem State.write32_takes (s : State) (r : RegId) (v : BitVec 32) (h : s.dev.takes r)
    (hv : v.zeroExtend 64 &&& r.kind.info.rsv = 0) :
    s.write r (v.zeroExtend 64) = s.doneReg (s.dev.regAct .mgmtPf r (v.zeroExtend 64)) := by
  have := s.write_takes r (v.zeroExtend 64) h (by rw [zeroExtend_width]; exact hv)
  rwa [zeroExtend_width] at this

/-- A 64-bit write by the management PF that `takes` lets through. -/
theorem State.write64_takes (s : State) (r : RegId) (v : Word) (hw : r.kind.info.wide = true) (h : s.dev.takes r)
    (hv : v &&& r.kind.info.rsv = 0) : s.write r v = s.doneReg (s.dev.regAct .mgmtPf r v) := by
  have hx : v &&& r.width = v := by
    unfold RegId.width
    rw [if_pos hw]
    exact BitVec.and_allOnes
  have := s.write_takes r v h (by rw [hx]; exact hv)
  rwa [hx] at this

/-- A write that names one field and `takes` lets through. -/
theorem State.poke_takes (s : State) (r : RegId) (m x : Word) (h : s.dev.takes r) (hm : m &&& r.kind.info.rsv = 0) :
    s.poke r m x = s.doneReg (s.dev.regAct .mgmtPf r (s.dev.poked r m x)) :=
  s.write_takes r _ h (s.dev.same_rsv r m x (by rw [BitVec.and_assoc, hm]; simp))

/-- A write in a Stall's BAR0 that names one field and `takesStall` lets through. -/
theorem State.pokeStall_takes (s : State) (st : Fin 1024) (r : RegId) (m x : Word) (h : s.dev.takesStall st r)
    (hm : m &&& r.kind.info.rsv = 0) : s.pokeStall st r m x = s.doneReg (s.dev.regAct .mgmtPf r (s.dev.poked r m x)) := by
  obtain ⟨hg, hp, hs, hi⟩ := h
  unfold State.pokeStall Dev.stallWriteCmd Dev.poked
  simp [hg, Dev.regMake,
    Dev.regWrite_whole s.dev .mgmtPf r _ hp hs hi (s.dev.same_rsv r m x (by rw [BitVec.and_assoc, hm]; simp))]

@[simp] theorem State.doneReg_ok (s : State) (x : Dev) : s.doneReg (.ok x) = .next (s.after x.twinUpdate) := rfl
@[simp] theorem State.doneReg_error (s : State) (f : Fault) : s.doneReg (.error f) = .fault f := rfl

end Sys2Proof.Machine
end

