-- ==== Sys2Proof/Laws/Settle.lean ====
section
/-! SUPPORT. What follows every command, said once: armed memory injections and the error blocks change only what reports errors. -/

namespace Sys2Proof.Machine

theorem Dev.reports_refl (d : Dev) : d.onlyReports d :=
  ⟨fun _ _ _ _ => rfl, fun _ => rfl, fun _ _ _ => rfl, ⟨[], by simp, by simp⟩, ⟨[], by simp, by simp⟩, fun _ _ => rfl, fun _ => rfl, rfl⟩

theorem Dev.reports_trans {a b c : Dev} (h1 : a.onlyReports b) (h2 : b.onlyReports c) : a.onlyReports c := by
  obtain ⟨r1, e1, c1, ⟨l1, o1, m1⟩, ⟨w1, v1, n1⟩, p1, x1, q1⟩ := h1
  obtain ⟨r2, e2, c2, ⟨l2, o2, m2⟩, ⟨w2, v2, n2⟩, p2, x2, q2⟩ := h2
  refine ⟨fun k i j h => (r2 k i j h).trans (r1 k i j h), fun b => (e2 b).trans (e1 b), fun f o h => (c2 f o h).trans (c1 f o h),
    ⟨l1 ++ l2, by rw [o2, o1, List.append_assoc], ?_⟩, ⟨w1 ++ w2, by rw [v2, v1, List.append_assoc], ?_⟩, fun n h => (p2 n h).trans (p1 n h), fun h => (x2 h).trans (x1 h), ?_⟩
  · intro o h
    rcases List.mem_append.1 h with h | h
    · exact m1 o h
    · exact m2 o h
  · intro r h
    rcases List.mem_append.1 h with h | h
    · exact n1 r h
    · exact n2 r h
  · rw [← q1]
    rw [← q2]

/-- A fold of steps that report and do nothing else does nothing else. -/
theorem Dev.reports_foldl {α : Type} (f : Dev → α → Dev) (h : ∀ (d : Dev) (x : α), d.onlyReports (f d x)) (l : List α) (d : Dev) :
    d.onlyReports (l.foldl f d) := by
  induction l generalizing d with
  | nil => exact d.reports_refl
  | cons x l ih => exact Dev.reports_trans (h d x) (ih _)

/-- A write of a reporting register other than ERR_STATUS. -/
theorem Dev.reports_setReg (d : Dev) (k : RegKind) (v : Word) (i j : Nat) (hk : k.reports = true) (hs : k ≠ .errStatus) :
    d.onlyReports (d.setReg k v i j) := by
  refine ⟨fun k' i' j' h => ?_, fun b => ?_, fun _ _ _ => rfl, ⟨[], by simp, by simp⟩, ⟨[], by simp, by simp⟩, fun _ _ => rfl, fun _ => rfl, rfl⟩
  · exact d.reg_setReg_kind k k' v i j i' j' (fun e => by rw [e, hk] at h; cases h)
  · rw [d.reg_setReg_kind k .errStatus v i j b 0 (Ne.symm hs)]

theorem Dev.reports_inc (d : Dev) (k : RegKind) (n i j : Nat) (hk : k.reports = true) (hs : k ≠ .errStatus) : d.onlyReports (d.inc k n i j) :=
  d.reports_setReg k _ i j hk hs

theorem putBits_signalled (v : Word) (x : Nat) : putBits v 6 1 x ||| 0x40 = v ||| 0x40 := by
  have h40 : ∀ k : Nat, (0x40 : Word).getLsbD k = decide (k = 6) := by
    intro k
    show (64 : Nat).testBit k = _
    rw [show (64 : Nat) = 2 ^ 6 from rfl, Nat.testBit_two_pow]
    simp [eq_comm]
  apply BitVec.eq_of_getLsbD_eq
  intro k hk
  rw [BitVec.getLsbD_or, BitVec.getLsbD_or, getLsbD_putBits, h40]
  by_cases h : k = 6
  · simp [h]
  · have h1 : ¬ (6 ≤ k ∧ k < 6 + 1) := by omega
    simp [h, h1, hk]

theorem Dev.reports_signalled (d : Dev) (v : Bool) (b : Nat) : d.onlyReports (d.setB F.ERR_STATUS_SIGNALLED v b) := by
  refine ⟨fun k i j h => ?_, fun c => ?_, fun _ _ _ => rfl, ⟨[], by simp, by simp⟩, ⟨[], by simp, by simp⟩, fun _ _ => rfl, fun _ => rfl, rfl⟩
  · exact d.reg_setReg_kind .errStatus k _ b 0 i j (fun e => by rw [e] at h; cases h)
  · by_cases hc : c = b
    · subst hc
      unfold Dev.setB Dev.setF
      rw [show F.ERR_STATUS_SIGNALLED.kind = RegKind.errStatus from rfl, Dev.reg_setReg_same]
      exact putBits_signalled _ _
    · unfold Dev.setB Dev.setF
      rw [show F.ERR_STATUS_SIGNALLED.kind = RegKind.errStatus from rfl]
      rw [d.reg_setReg_ne .errStatus .errStatus _ b 0 c 0 (fun e => hc (congrArg RegId.i e))]

theorem Dev.reports_evq (d : Dev) (q : EvqSt) (n : Nat) : d.onlyReports { d with evq := q, free := n } :=
  ⟨fun _ _ _ _ => rfl, fun _ => rfl, fun _ _ _ => rfl, ⟨[], by simp, by simp⟩, ⟨[], by simp, by simp⟩, fun _ _ => rfl, fun _ => rfl, rfl⟩

theorem Dev.reports_errs (d : Dev) (e : Tbl ErrSt) : d.onlyReports { d with errs := e } :=
  ⟨fun _ _ _ _ => rfl, fun _ => rfl, fun _ _ _ => rfl, ⟨[], by simp, by simp⟩, ⟨[], by simp, by simp⟩, fun _ _ => rfl, fun _ => rfl, rfl⟩

theorem Dev.reports_setCf (d : Dev) (off : Nat) (v : BitVec 32) : d.onlyReports (d.setCf .mgmtPf off v) :=
  ⟨fun _ _ _ _ => rfl, fun _ => rfl, fun f o h => d.cf_setCf_ne .mgmtPf f off o v (fun e => h (congrArg CfgId.fn e)),
    ⟨[], by simp, by simp⟩, ⟨[], by simp, by simp⟩, fun _ _ => rfl, fun _ => rfl, rfl⟩

theorem Dev.reports_errTell (d : Dev) (k : Nat) (c : BitVec 8) (x : Bool) : d.onlyReports (d.errTell .mgmtPf k c x) := by
  unfold Dev.errTell
  split
  · exact ⟨fun _ _ _ _ => rfl, fun _ => rfl, fun _ _ _ => rfl, ⟨[], by simp [Dev.errMsg], by simp⟩, ⟨_, rfl, by simp⟩,
      fun _ _ => rfl, fun _ => rfl, rfl⟩
  · exact d.reports_refl

theorem Dev.reports_setCfBits (d : Dev) (off : Nat) (m : BitVec 32) (v : Bool) : d.onlyReports (d.setCfBits .mgmtPf off m v) :=
  d.reports_setCf _ _

theorem Dev.reports_aerU (d : Dev) (bit : Nat) : d.onlyReports (d.aerU .mgmtPf bit) := by
  have h := fun m n => Dev.reports_trans (d.reports_setCfBits 0x104 m true) (Dev.reports_setCfBits _ 0x58 n true)
  unfold Dev.aerU
  simp only
  split
  · exact h _ _
  · exact Dev.reports_trans (h _ _) (Dev.reports_errTell _ _ _ _)

theorem Dev.reports_aerC (d : Dev) (bit : Nat) : d.onlyReports (d.aerC .mgmtPf bit) := by
  have h := fun m n => Dev.reports_trans (d.reports_setCfBits 0x110 m true) (Dev.reports_setCfBits _ 0x58 n true)
  unfold Dev.aerC
  simp only
  split
  · exact h _ _
  · exact Dev.reports_trans (h _ _) (Dev.reports_errTell _ _ _ _)

theorem Dev.reports_sendMsix (d : Dev) (e : Nat) : d.onlyReports (d.sendMsix .mgmtPf e) := by
  unfold Dev.sendMsix
  split
  · exact ⟨fun _ _ _ _ => rfl, fun _ => rfl, fun _ _ _ => rfl, ⟨[.msix .mgmtPf e], rfl, by simp⟩, ⟨_, rfl, by simp⟩,
      fun _ _ => rfl, fun _ => rfl, rfl⟩
  · refine ⟨fun _ _ _ _ => rfl, fun _ => rfl, fun _ _ _ => rfl, ⟨[], by simp [Dev.setPendingBit], by simp⟩,
      ⟨[], by simp [Dev.setPendingBit], by simp⟩, fun n h => ?_,
      fun _ => rfl, rfl⟩
    exact Tbl.look_put_ne 0 d.pba 0 n _ h

theorem Dev.reports_alertUpdate (d : Dev) : d.onlyReports d.alertUpdate := by
  unfold Dev.alertUpdate
  simp only
  split
  · exact d.reports_evq _ d.free
  · split
    · exact d.reports_evq _ _
    · exact d.reports_evq _ d.free

theorem Dev.reports_post (d : Dev) (type prio : Nat) (body : List (BitVec 32)) : d.onlyReports (d.post type prio body) := by
  unfold Dev.post
  split
  · simp only
    split
    · exact Dev.reports_trans (d.reports_evq _ d.free) (Dev.reports_inc _ .evqDropped _ _ _ rfl (by decide))
    · exact Dev.reports_trans (d.reports_evq _ d.free) (Dev.reports_alertUpdate _)
  · exact d.reports_refl

theorem Dev.reports_signal (d : Dev) (b : Nat) : d.onlyReports (d.signal b) := by
  have h1 : d.onlyReports (if d.b F.ERR_ROUTE_MSIX b then d.sendMsix .mgmtPf (d.f F.ERR_ROUTE_VEC b) else d) := by
    split
    · exact d.reports_sendMsix _
    · exact d.reports_refl
  unfold Dev.signal
  simp only
  split
  · exact Dev.reports_trans h1 (Dev.reports_post _ _ _ _)
  · exact h1

theorem Dev.reports_settleBlock (d : Dev) (b : Nat) : d.onlyReports (d.settleBlock b) := by
  unfold Dev.settleBlock
  simp only
  split
  · exact Dev.reports_trans (d.reports_signal b) (Dev.reports_signalled _ _ _)
  · split
    · exact d.reports_signalled _ _
    · exact d.reports_refl

/-- Settling the error blocks only reports. -/
theorem Dev.reports_settle (d : Dev) : d.onlyReports d.settle := by
  rw [Dev.settle]
  generalize List.range 88 = l
  exact Dev.reports_foldl Dev.settleBlock Dev.reports_settleBlock l d

theorem Dev.reports_memLost (old d : Dev) (b : Nat) : d.onlyReports (Dev.memLost old d b) := by
  unfold Dev.memLost
  simp only
  split
  · refine Dev.reports_trans ?_ (Dev.reports_trans (Dev.reports_inc _ .memCorr 1 b 0 rfl (by decide)) (Dev.reports_aerC _ _))
    refine ⟨fun _ _ _ _ => rfl, fun _ => rfl, fun _ _ _ => rfl, ⟨[], by simp, by simp⟩, ⟨[], by simp, by simp⟩, fun _ _ => rfl, fun h => ?_, rfl⟩
    by_cases hb : h = b - 80
    · subst hb; simp
    · simp only [Tbl.look_put_ne _ _ _ _ _ hb]
  · split
    · exact d.reports_errs _
    · exact d.reports_refl

theorem Dev.reports_injectOne (old d : Dev) (b : Nat) : d.onlyReports (Dev.injectOne old d b) := by
  unfold Dev.injectOne
  simp only
  split
  · have h1 := d.reports_errs (d.errs.put {} b { (d.errs.look {} b) with memCorr := false, memUncorr := false })
    have h2 : d.onlyReports (if (d.errs.look {} b).memCorr then
        ((({ d with errs := d.errs.put {} b { (d.errs.look {} b) with memCorr := false, memUncorr := false } } : Dev).inc .memCorr 1 b).aerC
          .mgmtPf AER.correctedInternal)
        else { d with errs := d.errs.put {} b { (d.errs.look {} b) with memCorr := false, memUncorr := false } }) := by
      split
      · exact Dev.reports_trans h1 (Dev.reports_trans (Dev.reports_inc _ .memCorr 1 b 0 rfl (by decide)) (Dev.reports_aerC _ _))
      · exact h1
    split
    · exact Dev.reports_trans h2 (Dev.reports_memLost _ _ _)
    · exact h2
  · exact d.reports_refl

/-- The armed memory injections only report. -/
theorem Dev.reports_injectAll (old d : Dev) : d.onlyReports (Dev.injectAll old d) := by
  unfold Dev.injectAll
  split
  · exact d.reports_refl
  · exact Dev.reports_foldl (Dev.injectOne old) (Dev.reports_injectOne old) (List.range 88) d

/-- What a command answers is its effect, with error reporting and nothing else after it. -/
theorem State.reports_after (s : State) (d : Dev) : d.onlyReports (s.after d).dev := by
  rw [State.after_dev]
  exact Dev.reports_trans (Dev.reports_injectAll s.dev d) (Dev.reports_settle _)

/-- A register that does not report reads after the command as its effect left it. -/
theorem State.after_reg (s : State) (d : Dev) (k : RegKind) (i j : Nat) (h : k.reports = false) :
    (s.after d).dev.reg k i j = d.reg k i j := (s.reports_after d).1 k i j h

theorem State.after_f (s : State) (d : Dev) (f : Fld) (i j : Nat) (h : f.kind.reports = false) :
    (s.after d).dev.f f i j = d.f f i j := by
  unfold Dev.f
  rw [State.after_reg s d f.kind i j h]

theorem State.after_b (s : State) (d : Dev) (f : Fld) (i j : Nat) (h : f.kind.reports = false) :
    (s.after d).dev.b f i j = d.b f i j := by
  unfold Dev.b
  rw [State.after_f s d f i j h]

/-- A configuration dword of a function other than the management PF. -/
theorem State.after_cf (s : State) (d : Dev) (f : Fn) (off : Nat) (h : f ≠ .mgmtPf) : (s.after d).dev.cf f off = d.cf f off :=
  (s.reports_after d).2.2.1 f off h

/-- A bit of ERR_STATUS other than SIGNALLED reads after the command as its effect left it. -/
theorem State.after_errBit (s : State) (d : Dev) (b n : Nat) (h : n ≠ 6) :
    ((s.after d).dev.reg .errStatus b).getLsbD n = (d.reg .errStatus b).getLsbD n := by
  have h1 := congrArg (fun x : Word => x.getLsbD n) ((s.reports_after d).2.1 b)
  have h40 : (0x40 : Word).getLsbD n = false := by
    show (64 : Nat).testBit n = false
    rw [show (64 : Nat) = 2 ^ 6 from rfl, Nat.testBit_two_pow]
    simp [Ne.symm h]
  simpa only [BitVec.getLsbD_or, h40, Bool.or_false] using h1

theorem Dev.reports_pulse (d : Dev) (b : Nat) : d.onlyReports (d.pulse b) := by
  unfold Dev.pulse
  split
  · exact d.reports_refl
  · exact d.reports_signal b

/-- `t` is `d` after sending on fabric ports: what their links and their queues hold changes, and what has been handed out grows. -/
def Dev.sendsOnly (d t : Dev) : Prop :=
  ∃ (n : Tbl NerupSt) (k : Tbl LinkSt) (l : List Out), t = { d with nerup := n, links := k, out := d.out ++ l }

theorem Dev.sends_refl (d : Dev) : d.sendsOnly d := ⟨d.nerup, d.links, [], by simp⟩

theorem Dev.sends_trans {a b c : Dev} (h1 : a.sendsOnly b) (h2 : b.sendsOnly c) : a.sendsOnly c := by
  obtain ⟨n1, k1, l1, rfl⟩ := h1
  obtain ⟨n2, k2, l2, rfl⟩ := h2
  exact ⟨n2, k2, l1 ++ l2, by simp⟩

theorem Dev.sends_setNerup (d : Dev) (p : Nat) (x : NerupSt) : d.sendsOnly (d.setNerup p x) :=
  ⟨d.nerup.put {} p x, d.links, [], by simp [Dev.setNerup]⟩

theorem Dev.sends_setLink (d : Dev) (p : Nat) (x : LinkSt) : d.sendsOnly (d.setLink p x) :=
  ⟨d.nerup, d.links.put {} p x, [], by simp [Dev.setLink]⟩

theorem Dev.sends_emit (d : Dev) (o : Out) : d.sendsOnly (d.emit o) := ⟨d.nerup, d.links, [o], rfl⟩

theorem Dev.sends_foldl {α : Type} (f : Dev → α → Dev) (h : ∀ (d : Dev) (x : α), d.sendsOnly (f d x)) (l : List α) (d : Dev) :
    d.sendsOnly (l.foldl f d) := by
  induction l generalizing d with
  | nil => exact d.sends_refl
  | cons x l ih => exact Dev.sends_trans (h d x) (ih _)

theorem Dev.sends_sendIdle (d : Dev) (p : Nat) (c : List (Option Nat)) : d.sendsOnly (d.sendIdle p c) := by
  unfold Dev.sendIdle
  simp only
  split
  · exact d.sends_refl
  · split
    · exact d.sends_emit _
    · exact d.sends_emit _
    · exact d.sends_emit _
    · exact d.sends_refl

theorem Dev.sends_sendCredit (d : Dev) (i vc kind n : Nat) : d.sendsOnly (d.sendCredit i vc kind n) := by
  unfold Dev.sendCredit
  split
  · exact d.sends_refl
  · split
    · exact Dev.sends_trans (d.sends_setNerup _ _) (Dev.sends_sendIdle _ _ _)
    · exact d.sends_emit _

theorem Dev.sends_ctlSendHead (d : Dev) (p : Nat) (m : CtlMsg) : d.sendsOnly (d.ctlSendHead p m) := by
  unfold Dev.ctlSendHead
  simp only
  exact Dev.sends_trans (d.sends_setLink _ _) (Dev.sends_trans (Dev.sends_setNerup _ _ _) (Dev.sends_emit _ _))

theorem Dev.sends_ctlFill (d : Dev) (p : Nat) : d.sendsOnly (d.ctlFill p) := by
  unfold Dev.ctlFill
  simp only
  split
  · exact d.sends_refl
  · split
    · exact d.sends_refl
    · split
      · exact d.sends_setNerup _ _
      · split
        · exact d.sends_setNerup _ _
        · exact Dev.sends_trans (d.sends_setNerup _ _) (Dev.sends_sendCredit _ _ _ _ _)

theorem Dev.sends_ctlDrain (d : Dev) (p n : Nat) : d.sendsOnly (d.ctlDrain p n) := by
  induction n generalizing d with
  | zero => exact d.sends_refl
  | succ n ih =>
    unfold Dev.ctlDrain
    split
    · exact d.sends_refl
    · split
      · exact Dev.sends_trans (d.sends_ctlSendHead _ _) (Dev.sends_trans (Dev.sends_ctlFill _ _) (ih _))
      · exact d.sends_refl

theorem Dev.sends_sendCtl (d : Dev) (p : Nat) (m : CtlMsg) (b : Option Nat) : d.sendsOnly (d.sendCtl p m b) := by
  unfold Dev.sendCtl
  simp only
  split
  · exact Dev.sends_trans (d.sends_setNerup _ _) (Dev.sends_ctlDrain _ _ _)
  · exact d.sends_setNerup _ _

/-- The TWIN_CHECKs that follow a command only send. -/
theorem Dev.sends_twinChecks (d : Dev) : d.sendsOnly d.twinChecks := by
  unfold Dev.twinChecks
  split
  · refine Dev.sends_foldl _ (fun d p => ?_) _ d
    split
    · exact Dev.sends_trans (d.sends_setNerup _ _) (Dev.sends_sendCtl _ _ _ _)
    · exact d.sends_refl
  · exact d.sends_refl

/-- TWIN_CHECKs are sent, DEGRADED and PART_MISMATCH follow, and what that reports; nothing else changes. -/
theorem Dev.reports_twinUpdate (d : Dev) :
    ∃ (n : Tbl NerupSt) (k : Tbl LinkSt) (l : List Out) (t : TwinSt),
      ({ d with nerup := n, links := k, out := d.out ++ l, twin := t } : Dev).onlyReports d.twinUpdate := by
  obtain ⟨n, k, l, h⟩ := d.sends_twinChecks
  have hc : ∃ t : TwinSt, ({ d.twinChecks with twin := t } : Dev).onlyReports d.twinUpdate := by
    unfold Dev.twinUpdate
    simp only
    split
    · exact ⟨d.twinChecks.twin, Dev.reports_refl _⟩
    · exact ⟨_, Dev.reports_pulse _ _⟩
  obtain ⟨t, ht⟩ := hc
  rw [h] at ht
  exact ⟨n, k, l, t, ht⟩

theorem Dev.twinUpdate_reg (d : Dev) (k : RegKind) (i j : Nat) (h : k.reports = false) : d.twinUpdate.reg k i j = d.reg k i j := by
  obtain ⟨_, _, _, _, ht⟩ := d.reports_twinUpdate
  exact ht.1 k i j h

/-- A register that does not report, after a command that also brings the twin ports' state up to date. -/
theorem State.afterTwin_reg (s : State) (d : Dev) (k : RegKind) (i j : Nat) (h : k.reports = false) :
    (s.after d.twinUpdate).dev.reg k i j = d.reg k i j := by rw [s.after_reg _ k i j h, d.twinUpdate_reg k i j h]

theorem State.afterTwin_f (s : State) (d : Dev) (f : Fld) (i j : Nat) (h : f.kind.reports = false) :
    (s.after d.twinUpdate).dev.f f i j = d.f f i j := by
  unfold Dev.f
  rw [s.afterTwin_reg d f.kind i j h]

theorem State.afterTwin_b (s : State) (d : Dev) (f : Fld) (i j : Nat) (h : f.kind.reports = false) :
    (s.after d.twinUpdate).dev.b f i j = d.b f i j := by
  unfold Dev.b
  rw [s.afterTwin_f d f i j h]

/-- A bit of ERR_STATUS other than SIGNALLED, after a command that also brings the twin ports' state up to date. -/
theorem State.afterTwin_errBit (s : State) (d : Dev) (b n : Nat) (h : n ≠ 6) :
    ((s.after d.twinUpdate).dev.reg .errStatus b).getLsbD n = (d.reg .errStatus b).getLsbD n := by
  rw [s.after_errBit _ b n h]
  obtain ⟨_, _, _, _, ht⟩ := d.reports_twinUpdate
  have h1 := congrArg (fun x : Word => x.getLsbD n) (ht.2.1 b)
  have h40 : (0x40 : Word).getLsbD n = false := by
    show (64 : Nat).testBit n = false
    rw [show (64 : Nat) = 2 ^ 6 from rfl, Nat.testBit_two_pow]
    simp [Ne.symm h]
  simp only [BitVec.getLsbD_or, h40, Bool.or_false] at h1
  exact h1

/-- What has been handed out stays handed out. -/
theorem State.afterTwin_out (s : State) (d : Dev) (o : Out) (h : o ∈ d.out) : o ∈ (s.after d.twinUpdate).dev.out := by
  obtain ⟨_, _, _, _, ht⟩ := d.reports_twinUpdate
  obtain ⟨l, hl, _⟩ := ht.2.2.2.1
  obtain ⟨l2, hl2, _⟩ := (s.reports_after d.twinUpdate).2.2.2.1
  rw [hl2, hl]
  exact List.mem_append_left _ (List.mem_append_left _ (List.mem_append_left _ h))

theorem State.after_out (s : State) (d : Dev) : ∃ l, (s.after d).dev.out = d.out ++ l := by
  obtain ⟨l, hl, _⟩ := (s.reports_after d).2.2.2.1
  exact ⟨l, hl⟩

end Sys2Proof.Machine
end

