-- ==== Sys2Proof/Laws/Answers.lean ====
section
/-! SUPPORT. What a command can answer, said once: a next state is the command's effect followed by error reporting, or a cold reset;
or nothing but a count of free values has changed. -/

namespace Sys2Proof.Machine

/-- The forms that a next state of a command takes. -/
def State.Form (s t : State) : Prop :=
  (∃ d : Dev, t = s.after d) ∨ (∃ n : Nat, t = { s with dev := { s.dev with free := s.dev.free + n } })
    ∨ (∃ (last : Nat) (d : Dev), t = s.cold last d ∧ d.b F.LC_CTL_BUSY = s.dev.b F.LC_CTL_BUSY)
    ∨ (∃ d : Dev, s.dev.b F.LC_CTL_BUSY = true
        ∧ t = State.after { s with fuses := s.fuses.burn (lcCode s.dev.rst.burnTarget) 4 } d)

/-- Every next state that an outcome gives has one of the forms. -/
def State.Answers (s : State) (o : Host.Outcome State Fault Refusal) : Prop := ∀ t : State, o = .next t → s.Form t

theorem State.answers_done (s : State) (d : Dev) : s.Answers (s.done d) := by
  intro t h
  cases h
  exact .inl ⟨d, rfl⟩

theorem State.answers_doneTwin (s : State) (d : Dev) : s.Answers (s.doneTwin d) := s.answers_done _

theorem State.answers_doneOr (s : State) (r : Except Fault Dev) : s.Answers (s.doneOr r) := by
  cases r with
  | ok d => exact s.answers_done d
  | error f => intro t h; cases h

theorem State.answers_doneReg (s : State) (r : Except Fault Dev) : s.Answers (s.doneReg r) := by
  cases r with
  | ok d => exact s.answers_done _
  | error f => intro t h; cases h

theorem State.answers_same (s : State) : s.Answers (.next s) := by
  intro t h
  cases h
  exact .inr (.inl ⟨0, rfl⟩)

theorem State.answers_cold (s : State) (last : Nat) (d : Dev) (h : d.b F.LC_CTL_BUSY = s.dev.b F.LC_CTL_BUSY) :
    s.Answers (.next (s.cold last d)) := by
  intro t ht
  cases ht
  exact .inr (.inr (.inl ⟨last, d, rfl, h⟩))

theorem State.answers_perst (s : State) (t : LowTime) : s.Answers (execPerstInAssert t s) := by
  unfold execPerstInAssert
  split
  · exact s.answers_same
  · exact s.answers_same
  · simp only
    split
    · intro t h
      cases h
      exact .inr (.inr (.inl ⟨0, _, rfl, rfl⟩))
    · intro t h
      cases h
      exact .inr (.inl ⟨1, rfl⟩)
  · exact s.answers_cold _ _ rfl

theorem State.answers_burn (s : State) : s.Answers (execFuseBurnDone s) := by
  unfold execFuseBurnDone
  simp only
  split
  · next h =>
    intro t ht
    cases ht
    exact .inr (.inr (.inr ⟨_, h, rfl⟩))
  · exact s.answers_done _

set_option maxRecDepth 4000 in
/-- Every command answers in one of the forms. -/
theorem exec_answers (i : Instr) (s : State) : s.Answers (exec i s) := by
  cases i <;> simp only [exec,
execRegisterWrite, execMisalignedRegisterAccess, execStalledAccessComplete, execTlpIngress, execPorterRequestIngress,
    execFabricTlpArrival, execArbitrationDecision, execDebugPortAccess, execEgressSchedule, execDlDown, execPurgeDone,
    execBlockLockLost, execEqPartnerRequest, execEqEvaluationDone, execRowSplitWrite, execSpareOfferSend, execSpareOffer,
    execSpareAccept, execSpareNegotiationTimeout, execSpareReady, execSpareUnfit, execCondemnationWindow, execLaneLockLoss,
    execSpareReq, execSpareAck, execSpareNak, execSpareSubstitution, execRowSpareForce, execLanePrbsCtlWrite, execPrbsClear,
    execPrbsLock, execPrbsLockLoss, execPrbsInjOne, execPrbsPeriodicInject, execPortEnable, execPortDisable, execPartCtlWrite,
    execPartitionReset, execUspHotReset, execSecondaryBusReset, execSvcCtlWrite, execL0sEntry, execAspmL1Request,
    execL1RequestReceived, execL0pNarrow, execL0pWiden, execSignboardFrame, execChainFault, execPresenceChange,
    execAttentionButtonPressed, execMrlSensorChange, execPwrfltChange, execSbCtlWrite, execPowerControllerOn, execPowerControllerOff,
    execIndicatorControl, execSlotCfgWrite, execCoolingExpired, execPresenceDebounceDone, execSlotPowerValid, execPerstRelease,
    execPowerOffDone, execDpcTrigger, execDpcRelease, execHostBridgeWrite, execBridgeWriteComplete, execWinCommit,
    execHeldCommitApply, execCommitCopyDone, execHashSeedWrite, execBucketPathWrite, execBucketRepin, execPitchFence, execFenceDone,
    execScrubRow, execLinkMemorySweepDone, execRetireWindow, execBankRetireCommand, execBankRetired, execReservationCovered,
    execGroupCtlWrite, execEscapeMove, execWipeAll, execFloorWiped, execTokenRefill, execGateChange, execGateEnable, execGateSwitch,
    execGateSwitchTakeover, execGateStuck, execSchedulerParameterWrite, execPendingParametersApply, execHallEnable, execHallDisable,
    execMasterClaimTimeout, execMasterClaim, execClaimAck, execClaimCollectionDone, execHeartbeatSend, execHeartbeat,
    execNerupLinkTrained, execHello, execNerupInitFlit, execNerupFlitAck, execNerupNak, execReplayTimeout, execRecoveryLimitExpired,
    execFlitSilenceExpired, execFailoverQuery, execFailoverReply, execFailoverWaitExpired, execControlMessageRelay, execLinkState,
    execEdit, execEditDone, execRoutePush, execStage, execStageAck, execPrepare, execPrepareAck, execHallCommit, execHallCommitAck,
    execHallApply, execHallApplyAck, execHallAbort, execHallAbortAck, execPhaseTimeout, execTableReq, execLockReq,
    execLockArbitration, execLockGrant, execLockBusy, execLockRetry, execLockRelease, execTwinCheckSend, execTwinCheck,
    execGapWaitExpired, execStreamReset, execStreamResetAck, execStreamResetTimeout, execSealWrite, execDoorbellPoll,
    execPollComplete, execPreemptionDone, execDescriptorFetch, execDescriptorReadComplete, execPorterCopy, execPorterFill,
    execPorterInline, execPorterFence, execPorterNotify, execLedgerSync, execBadOpcode, execDataReadIssue, execPorterCompletion,
    execCompletionTimeout, execQuarantineEnd, execFlushReadComplete, execCompletionRecord, execRingResume, execRingEnable,
    execRingDisable, execRingStopped, execStallXlatWrite, execWalkReadComplete, execAtsCompletion, execPrgResponse,
    execFaultRecordWrite, execFqCiWrite, execFqBaseWrite, execFaultResume, execFaultAbort, execFaultWaitExpired, execXlatInvalidate,
    execInvalidationDone, execAtsInvalidationRequest, execStallBindWrite, execStallTurnEnd, execStallShareWrite, execMailboxSend,
    execMailboxMgrAck, execMailboxMgrSend, execMailboxAck, execMailboxClear, execStallBusMasterClear, execStallFlr, execVfDisable,
    execPorterPfFlr, execFlrComplete, execLedgerFold, execLedgerFoldReadComplete, execLedgerPeriodicFlush, execLedgerFlush,
    execLedgerFlushDone, execLedgerSwap, execLedgerFaultClear, execLedgerEnable, execLedgerTeardown, execParitySweep,
    execInjectParity, execInjectMemCorr, execInjectMemUncorr, execInjectSafe, execTestModeDeassert, execThermalConversion,
    execPendingMsixSend, execSlotPowerTick, execBreaker, execFastTrip, execFetHighRds, execVinUv, execDischargeEnd, execFetShort,
    execRestartHoldoffEnd, execSpcCfgWrite, execRefclkLoss, execRefclkReturn, execPllLock, execDroopSag, execDroopRecoveryStep,
    execDroopCtlWrite, execDomainPowerOn, execDomainRampStart, execDomainWakeDone, execDomainPowerOff, execDomainOffDone,
    execDomainClockStop, execDomainClockStart, execPerstInRelease, execFuseShadowLoaded, execHalfClaim, execStandoffVote,
    execHalfHeartbeat, execHalfHeartbeatLoss, execSoftReset, execBlockReset, execBlockResetDone, execWipeDone, execBootImageChecked,
    execWrite32, execWrite64, execPoll32, execPoll32Timeout, execDelay, execDelayExpired, execEndRecord, execBadRecord, execLcArm,
    execLcArmExpired, execLcGo, execI3cDynamicAddress, execI3cPrivateWrite, execI3cPrivateRead, execEvqDataRead, execDropRest,
    execEvqFlush, execWindowGo, execWindowAccessDone, execImageStart, execImageWindowOpen, execImageData, execImageEnd, execSnapshot,
    execRelease, execTallyNow, execTallyPass, execTimeSet, execTimeAlign, execTimeSourceChange, execPpsEdge, execPpsLost,
    execPpsOutPulse, execPtmDialog, execPtmDialogComplete, execPtmFail, execPtmRequest, execDlUp, execRecoveryEntry, execUpdateFc,
    execAckDllp, execReplayTimerTimeout, execMarginingCommand, execL0pPartnerRequest, execDroopSagClear, execSupplyValid,
    execMgmtPfCompletionTimeout, execTallyListReadComplete, State.write, State.poke, State.pokeStall] <;> first
    | with_reducible exact s.answers_done _
    | with_reducible exact s.answers_doneTwin _
    | with_reducible exact s.answers_doneOr _
    | with_reducible exact s.answers_doneReg _
    | exact s.answers_perst _
    | exact s.answers_burn
    | exact s.answers_cold _ _ rfl
    | (split <;> first | exact s.answers_done _ | exact s.answers_doneReg _)

end Sys2Proof.Machine
end

