-- ==== Sys2Proof/Laws/Events.lean ====
section
/-! SUPPORT. A block's interrupt condition depends on neither what error reporting changes nor time (R335, R337). -/

namespace Sys2Proof.Machine

/-- Two devices have the same interrupt conditions. -/
def Dev.sameIrq (d t : Dev) : Prop := ∀ b : Nat, t.irqCond b = d.irqCond b

theorem Dev.sameIrq_refl (d : Dev) : d.sameIrq d := fun _ => rfl

theorem Dev.sameIrq_trans {a b c : Dev} (h1 : a.sameIrq b) (h2 : b.sameIrq c) : a.sameIrq c := fun n => (h2 n).trans (h1 n)

/-- A field of a register of another kind. -/
theorem Dev.f_setReg_kind (d : Dev) (k : RegKind) (v : Word) (i j : Nat) (f : Fld) (i' j' : Nat) (h : f.kind ≠ k) :
    (d.setReg k v i j).f f i' j' = d.f f i' j' := by
  unfold Dev.f
  rw [d.reg_setReg_kind k f.kind v i j i' j' h]

theorem Dev.b_setReg_kind (d : Dev) (k : RegKind) (v : Word) (i j : Nat) (f : Fld) (i' j' : Nat) (h : f.kind ≠ k) :
    (d.setReg k v i j).b f i' j' = d.b f i' j' := by
  unfold Dev.b
  rw [d.f_setReg_kind k v i j f i' j' h]

/-- The registers that neither hold an event bit nor say in which half an event counts. -/
def RegKind.quiet (k : RegKind) : Bool :=
  decide (k.eventBits = 0) && !(([.roleStatus, .stallBind, .ledgerCtx, .bootStatus, .errStatus, .errEn] : List RegKind).contains k)

theorem Dev.eventBlock_setReg (d : Dev) (k : RegKind) (v : Word) (i j : Nat) (r : RegId)
    (h : k ≠ .roleStatus ∧ k ≠ .stallBind ∧ k ≠ .ledgerCtx) : (d.setReg k v i j).eventBlock r = d.eventBlock r := by
  obtain ⟨h1, h2, h3⟩ := h
  have hi : (d.setReg k v i j).ic = d.ic := d.f_setReg_kind k v i j _ 0 0 (Ne.symm h1)
  have hs : (d.setReg k v i j).stallHalf = d.stallHalf := by
    funext n
    unfold Dev.stallHalf
    rw [d.b_setReg_kind k v i j _ n 0 (Ne.symm h2), d.f_setReg_kind k v i j _ n 0 (Ne.symm h2)]
  unfold Dev.eventBlock Dev.blockOf
  rw [hi, hs]

theorem Dev.event_setReg (d : Dev) (k : RegKind) (v : Word) (i j : Nat) (hb : k.eventBits = 0)
    (h : k ≠ .roleStatus ∧ k ≠ .stallBind ∧ k ≠ .ledgerCtx) (h2 : k ≠ .bootStatus) (b : Nat) :
    (d.setReg k v i j).event b = d.event b := by
  have hr : ∀ e, (d.setReg k v i j).bitRaises b e = d.bitRaises b e := by
    intro e
    have hi : (d.setReg k v i j).ic = d.ic := d.f_setReg_kind k v i j _ 0 0 (Ne.symm h.1)
    unfold Dev.bitRaises
    rw [d.eventBlock_setReg k v i j e.1 h, hi, Dev.setReg_raised]
  have hz : ∀ e : RegId × Word, e.1.kind = k → d.bitRaises b e = false := by
    intro e he
    unfold Dev.bitRaises
    rw [he, hb]
    simp
  have h1 : (d.setReg k v i j).regs.any (fun e => (d.setReg k v i j).bitRaises b e) = d.regs.any (fun e => d.bitRaises b e) := by
    rw [Bool.eq_iff_iff, List.any_eq_true, List.any_eq_true]
    constructor
    · rintro ⟨e, he, ht⟩
      rw [hr] at ht
      rcases Store.mem_set _ _ _ _ _ e he with rfl | ⟨hm, _⟩
      · rw [hz _ rfl] at ht
        cases ht
      · exact ⟨e, hm, ht⟩
    · rintro ⟨e, he, ht⟩
      refine ⟨e, Store.mem_set_of_mem _ _ _ _ _ e he ?_, by rw [hr]; exact ht⟩
      intro hk
      rw [hz e (by rw [hk])] at ht
      cases ht
  have hl : (d.setReg k v i j).levelEvent b = d.levelEvent b := by
    unfold Dev.levelEvent
    rw [d.b_setReg_kind k v i j _ 0 0 (Ne.symm h.1), d.f_setReg_kind k v i j _ 0 0 (Ne.symm h2)]
  unfold Dev.event
  rw [h1, hl, Dev.setReg_cfg]

/-- A register that holds no event bit leaves every condition as it is. -/
theorem Dev.sameIrq_setReg (d : Dev) (k : RegKind) (v : Word) (i j : Nat) (h : k.quiet = true) : d.sameIrq (d.setReg k v i j) := by
  intro b
  unfold RegKind.quiet at h
  simp only [Bool.and_eq_true, decide_eq_true_eq, Bool.not_eq_true', List.contains_eq_mem, decide_eq_false_iff_not, List.mem_cons,
    List.not_mem_nil, or_false, not_or] at h
  obtain ⟨h0, h1, h2, h3, h4, h5, h6⟩ := h
  unfold Dev.irqCond
  rw [d.event_setReg k v i j h0 ⟨h1, h2, h3⟩ h4, d.b_setReg_kind k v i j F.ERR_EN_EVENT_EN b 0 (Ne.symm h6),
    d.b_setReg_kind k v i j F.ERR_STATUS_INT_ERR b 0 (Ne.symm h5), d.b_setReg_kind k v i j F.ERR_EN_INT_ERR_EN b 0 (Ne.symm h6),
    d.b_setReg_kind k v i j F.ERR_STATUS_SAFE b 0 (Ne.symm h5), d.b_setReg_kind k v i j F.ERR_EN_SAFE_EN b 0 (Ne.symm h6)]

theorem Dev.sameIrq_inc (d : Dev) (k : RegKind) (n i j : Nat) (h : k.quiet = true) : d.sameIrq (d.inc k n i j) :=
  d.sameIrq_setReg k _ i j h

/-- SIGNALLED is no part of a condition. -/
theorem Dev.sameIrq_signalled (d : Dev) (v : Bool) (b : Nat) : d.sameIrq (d.setB F.ERR_STATUS_SIGNALLED v b) := by
  intro c
  unfold Dev.setB Dev.setF
  have hf : ∀ f : Fld, f.kind = .errStatus → f.lo + f.w ≤ 6 →
      (d.setReg F.ERR_STATUS_SIGNALLED.kind
        (putBits (d.reg F.ERR_STATUS_SIGNALLED.kind b 0) F.ERR_STATUS_SIGNALLED.lo F.ERR_STATUS_SIGNALLED.w (b2n v)) b 0).b f c = d.b f c := by
    intro f hk hw
    unfold Dev.b Dev.f
    rw [hk, show F.ERR_STATUS_SIGNALLED.kind = RegKind.errStatus from rfl]
    by_cases hc : c = b
    · subst hc
      rw [Dev.reg_setReg_same, show F.ERR_STATUS_SIGNALLED.lo = 6 from rfl,
        getBits_putBits_ne _ _ _ _ _ _ (.inl hw) (by omega)]
    · rw [d.reg_setReg_ne .errStatus .errStatus _ b 0 c 0 (fun e => hc (congrArg RegId.i e))]
  unfold Dev.irqCond
  rw [hf F.ERR_STATUS_INT_ERR rfl (by decide), hf F.ERR_STATUS_SAFE rfl (by decide)]
  rw [d.event_setReg _ _ b 0 rfl (by decide) (by decide), d.b_setReg_kind _ _ b 0 F.ERR_EN_EVENT_EN c 0 (by decide),
    d.b_setReg_kind _ _ b 0 F.ERR_EN_INT_ERR_EN c 0 (by decide), d.b_setReg_kind _ _ b 0 F.ERR_EN_SAFE_EN c 0 (by decide)]

theorem Dev.sameIrq_sendMsix (d : Dev) (f : Fn) (e : Nat) : d.sameIrq (d.sendMsix f e) := by
  intro b
  unfold Dev.sendMsix
  split <;> rfl

theorem Dev.sameIrq_alertUpdate (d : Dev) : d.sameIrq d.alertUpdate := by
  intro b
  unfold Dev.alertUpdate
  simp only
  split
  · rfl
  · split <;> rfl

theorem Dev.sameIrq_post (d : Dev) (type prio : Nat) (body : List (BitVec 32)) : d.sameIrq (d.post type prio body) := by
  unfold Dev.post
  split
  · simp only
    split
    · exact Dev.sameIrq_trans (b := { d with evq := _ }) (fun _ => rfl) (Dev.sameIrq_inc _ .evqDropped _ _ _ rfl)
    · exact Dev.sameIrq_trans (b := { d with evq := _ }) (fun _ => rfl) (Dev.sameIrq_alertUpdate _)
  · exact d.sameIrq_refl

theorem Dev.sameIrq_signal (d : Dev) (b : Nat) : d.sameIrq (d.signal b) := by
  have h1 : d.sameIrq (if d.b F.ERR_ROUTE_MSIX b then d.sendMsix .mgmtPf (d.f F.ERR_ROUTE_VEC b) else d) := by
    split
    · exact d.sameIrq_sendMsix _ _
    · exact d.sameIrq_refl
  unfold Dev.signal
  simp only
  split
  · exact Dev.sameIrq_trans h1 (Dev.sameIrq_post _ _ _ _)
  · exact h1

/-- Settling a block changes no condition. -/
theorem Dev.sameIrq_settleBlock (d : Dev) (b : Nat) : d.sameIrq (d.settleBlock b) := by
  unfold Dev.settleBlock
  simp only
  split
  · exact Dev.sameIrq_trans (d.sameIrq_signal b) (Dev.sameIrq_signalled _ _ _)
  · split
    · exact d.sameIrq_signalled _ _
    · exact d.sameIrq_refl

theorem Dev.signalled_signal (d : Dev) (b c : Nat) : (d.signal b).b F.ERR_STATUS_SIGNALLED c = d.b F.ERR_STATUS_SIGNALLED c := by
  have hm : ∀ e : Nat, (d.sendMsix .mgmtPf e).regs = d.regs := by
    intro e
    unfold Dev.sendMsix
    split <;> rfl
  have hp : ∀ (x : Dev) (t p : Nat) (l : List (BitVec 32)),
      (x.post t p l).b F.ERR_STATUS_SIGNALLED c = x.b F.ERR_STATUS_SIGNALLED c := by
    intro x t p l
    unfold Dev.post
    split
    · simp only
      split
      · unfold Dev.inc
        rw [Dev.b_setReg_kind _ .evqDropped _ 0 0 F.ERR_STATUS_SIGNALLED c 0 (by decide)]
        rfl
      · unfold Dev.alertUpdate
        simp only
        split
        · rfl
        · split <;> rfl
    · rfl
  have h1 : (if d.b F.ERR_ROUTE_MSIX b then d.sendMsix .mgmtPf (d.f F.ERR_ROUTE_VEC b) else d).b F.ERR_STATUS_SIGNALLED c
      = d.b F.ERR_STATUS_SIGNALLED c := by
    split
    · unfold Dev.b Dev.f Dev.reg
      rw [hm]
    · rfl
  unfold Dev.signal
  simp only
  split
  · rw [hp, h1]
  · exact h1

theorem Dev.b_setB_signalled (d : Dev) (v : Bool) (b c : Nat) :
    (d.setB F.ERR_STATUS_SIGNALLED v b).b F.ERR_STATUS_SIGNALLED c = if c = b then v else d.b F.ERR_STATUS_SIGNALLED c := by
  unfold Dev.setB Dev.setF Dev.b Dev.f
  rw [show F.ERR_STATUS_SIGNALLED.kind = RegKind.errStatus from rfl, show F.ERR_STATUS_SIGNALLED.lo = 6 from rfl,
    show F.ERR_STATUS_SIGNALLED.w = 1 from rfl]
  by_cases hc : c = b
  · subst hc
    rw [Dev.reg_setReg_same, getBits_putBits_same _ _ _ _ (by omega), if_pos rfl]
    cases v <;> rfl
  · rw [d.reg_setReg_ne .errStatus .errStatus _ b 0 c 0 (fun e => hc (congrArg RegId.i e)), if_neg hc]

/-- A block that has been settled follows its condition; the others keep their SIGNALLED. -/
theorem Dev.signalled_settleBlock (d : Dev) (b c : Nat) :
    (d.settleBlock b).b F.ERR_STATUS_SIGNALLED c = if c = b then d.irqCond b else d.b F.ERR_STATUS_SIGNALLED c := by
  unfold Dev.settleBlock
  simp only
  by_cases hc : c = b
  · subst hc
    cases h1 : d.irqCond c <;> cases h2 : d.b F.ERR_STATUS_SIGNALLED c <;> simp [h2, Dev.b_setB_signalled]
  · cases h1 : d.irqCond b <;> cases h2 : d.b F.ERR_STATUS_SIGNALLED b <;>
      simp [hc, Dev.b_setB_signalled, Dev.signalled_signal]

/-- After settling, every block follows its condition. -/
theorem Dev.settle_settled (d : Dev) : d.settle.settled := by
  have key : ∀ (l : List Nat) (x : Dev),
      x.sameIrq (l.foldl Dev.settleBlock x) ∧
      ∀ c : Nat, (l.foldl Dev.settleBlock x).b F.ERR_STATUS_SIGNALLED c
        = if c ∈ l then x.irqCond c else x.b F.ERR_STATUS_SIGNALLED c := by
    intro l
    induction l with
    | nil => intro x; exact ⟨x.sameIrq_refl, fun c => by simp⟩
    | cons b l ih =>
      intro x
      obtain ⟨h1, h2⟩ := ih (x.settleBlock b)
      refine ⟨Dev.sameIrq_trans (x.sameIrq_settleBlock b) h1, fun c => ?_⟩
      rw [List.foldl_cons, h2, x.sameIrq_settleBlock b c, Dev.signalled_settleBlock]
      by_cases hc : c = b
      · subst hc; simp
      · simp [hc]
  intro b hb
  obtain ⟨h1, h2⟩ := key (List.range 88) d
  unfold Dev.settle
  rw [h2, h1 b, if_pos (List.mem_range.2 hb)]

end Sys2Proof.Machine
end

