-- ==== Sys2Proof/Laws/Fields.lean ====
section
/-! SUPPORT. A field of a register after another field, or a field of another register, is set. -/

namespace Sys2Proof.Machine

/-- A field of another kind of register or of other bits is left as it was. -/
theorem Dev.f_setF_other (d : Dev) (f g : Fld) (v i j i' j' : Nat)
    (h : g.kind ≠ f.kind ∨ g.lo + g.w ≤ f.lo ∨ f.lo + f.w ≤ g.lo) (h64 : g.lo + g.w ≤ 64) :
    (d.setF f v i j).f g i' j' = d.f g i' j' := by
  unfold Dev.f Dev.setF
  by_cases he : (⟨g.kind, i', j'⟩ : RegId) = ⟨f.kind, i, j⟩
  · obtain ⟨hk, hi, hj⟩ := RegId.mk.inj he
    rw [hk, hi, hj, Dev.reg_setReg_same, getBits_putBits_ne _ _ _ _ _ _ (h.resolve_left (fun e => e hk)) h64]
  · rw [Dev.reg_setReg_ne _ _ _ _ _ _ _ _ he]

/-- A field after another kind of register or other bits are set as a bit. -/
theorem Dev.f_setB_other (d : Dev) (f g : Fld) (v : Bool) (i j i' j' : Nat)
    (h : g.kind ≠ f.kind ∨ g.lo + g.w ≤ f.lo ∨ f.lo + f.w ≤ g.lo) (h64 : g.lo + g.w ≤ 64) :
    (d.setB f v i j).f g i' j' = d.f g i' j' := by
  unfold Dev.setB
  exact d.f_setF_other f g _ i j i' j' h h64

/-- A bit after another kind of register or other bits are set. -/
theorem Dev.b_setF_other (d : Dev) (f g : Fld) (v i j i' j' : Nat)
    (h : g.kind ≠ f.kind ∨ g.lo + g.w ≤ f.lo ∨ f.lo + f.w ≤ g.lo) (h64 : g.lo + g.w ≤ 64) :
    (d.setF f v i j).b g i' j' = d.b g i' j' := by
  unfold Dev.b
  rw [d.f_setF_other f g v i j i' j' h h64]

/-- A bit after another bit is set. -/
theorem Dev.b_setB_other (d : Dev) (f g : Fld) (v : Bool) (i j i' j' : Nat)
    (h : g.kind ≠ f.kind ∨ g.lo + g.w ≤ f.lo ∨ f.lo + f.w ≤ g.lo) (h64 : g.lo + g.w ≤ 64) :
    (d.setB f v i j).b g i' j' = d.b g i' j' := by
  unfold Dev.setB
  exact d.b_setF_other f g _ i j i' j' h h64

/-- A register of another kind or place after a field is set. -/
theorem Dev.reg_setF_ne (d : Dev) (f : Fld) (v i j : Nat) (k : RegKind) (i' j' : Nat) (h : k ≠ f.kind ∨ i' ≠ i ∨ j' ≠ j) :
    (d.setF f v i j).reg k i' j' = d.reg k i' j' := by
  unfold Dev.setF
  refine Dev.reg_setReg_ne _ _ _ _ _ _ _ _ (fun e => ?_)
  obtain ⟨hk, hi, hj⟩ := RegId.mk.inj e
  rcases h with h | h | h
  · exact h hk
  · exact h hi
  · exact h hj

/-- A register of another kind or place after a bit is set. -/
theorem Dev.reg_setB_ne (d : Dev) (f : Fld) (v : Bool) (i j : Nat) (k : RegKind) (i' j' : Nat) (h : k ≠ f.kind ∨ i' ≠ i ∨ j' ≠ j) :
    (d.setB f v i j).reg k i' j' = d.reg k i' j' := by
  unfold Dev.setB
  exact d.reg_setF_ne f _ i j k i' j' h

end Sys2Proof.Machine
end

