-- ==== Sys2Proof/Laws/Lookup.lean ====
section
/-! SUPPORT. A lookup answers unless two valid windows match (R118): the one host error in a TLP's way. -/

namespace Sys2Proof.Machine

/-- A choice between answers is an answer. -/
theorem ite_ok {α : Type} (c : Prop) [Decidable c] (a b : Except Fault α) (ha : ∃ x, a = .ok x) (hb : ∃ x, b = .ok x) :
    ∃ x, (if c then a else b) = .ok x := by
  split
  · exact ha
  · exact hb

/-- So is what follows an answer, if it answers. -/
theorem bind_ok {α β : Type} (e : Except Fault α) (f : α → Except Fault β) (he : ∃ x, e = .ok x) (hf : ∀ x, ∃ y, f x = .ok y) :
    ∃ y, (e >>= f) = .ok y := by
  obtain ⟨x, rfl⟩ := he
  exact hf x

/-- At most one window matches: a memory request resolves. -/
theorem Dev.resolveMem_ok (s : Dev) (i q : Nat) (t : Tlp) (h : (s.windowsAt q (t.addr.toNat / 4096)).length ≤ 1) :
    ∃ r, s.resolveMem i q t = .ok r := by
  unfold Dev.resolveMem
  match hw : s.windowsAt q (t.addr.toNat / 4096) with
  | [] => exact ⟨_, rfl⟩
  | [w] => exact ite_ok _ _ _ ⟨_, rfl⟩ ⟨_, rfl⟩
  | _ :: _ :: _ => rw [hw] at h; simp at h

/-- A TLP resolves unless it goes by address and two windows match. -/
theorem Dev.resolve_ok (s : Dev) (i q : Nat) (t : Tlp)
    (h : (isMemReq t.kind = false ∧ t.route ≠ .byAddr) ∨ (s.windowsAt q (t.addr.toNat / 4096)).length ≤ 1) :
    ∃ r, s.resolve i q t = .ok r := by
  have hm : ¬ (isMemReq t.kind = false ∧ t.route ≠ .byAddr) → ∃ r, s.resolveMem i q t = .ok r := fun hn =>
    s.resolveMem_ok i q t (h.resolve_left hn)
  unfold Dev.resolve
  split
  · exact ⟨_, rfl⟩
  · split <;> first
      | exact ⟨_, rfl⟩
      | (refine hm ?_; simp_all [isMemReq])
      | (split <;> first | exact ⟨_, rfl⟩ | (refine hm ?_; simp_all [isMemReq]))

/-- So does the lookup of its words. -/
theorem Dev.lookupIn_ok (s : Dev) (i q : Nat) (t : Tlp) (a b : Bool)
    (h : (isMemReq t.kind = false ∧ t.route ≠ .byAddr) ∨ (s.windowsAt q (t.addr.toNat / 4096)).length ≤ 1) :
    ∃ x, s.lookupIn i q t a b = .ok x := by
  obtain ⟨r, hr⟩ := s.resolve_ok i q t h
  unfold Dev.lookupIn
  simp only [hr, bind, Except.bind, pure, Except.pure]
  refine ite_ok _ _ _ ⟨_, rfl⟩ (ite_ok _ _ _ ⟨_, rfl⟩ (ite_ok _ _ _ ?_ ⟨_, rfl⟩))
  split
  · exact ⟨_, rfl⟩
  · exact ⟨_, rfl⟩

/-- So does its lookup. -/
theorem Dev.lookup_ok (s : Dev) (i q : Nat) (t : Tlp) (a b : Bool)
    (h : (isMemReq t.kind = false ∧ t.route ≠ .byAddr) ∨ (s.windowsAt q (t.addr.toNat / 4096)).length ≤ 1) :
    ∃ x, s.lookup i q t a b = .ok x := by
  unfold Dev.lookup
  split
  · exact ⟨_, rfl⟩
  · exact s.lookupIn_ok i q t a b h

/-- A lookup depends on the committed windows alone for its answer. -/
theorem Dev.lookup_ok_of (s d : Dev) (i q : Nat) (t : Tlp) (a b : Bool) (hd : d.active = s.active)
    (h : (isMemReq t.kind = false ∧ t.route ≠ .byAddr) ∨ (s.windowsAt q (t.addr.toNat / 4096)).length ≤ 1) :
    ∃ x, d.lookup i q t a b = .ok x := by
  refine d.lookup_ok i q t a b ?_
  have hw : d.windowsAt q (t.addr.toNat / 4096) = s.windowsAt q (t.addr.toNat / 4096) := by
    unfold Dev.windowsAt Dev.ac
    rw [hd]
  rwa [hw]

theorem Dev.active_errTell (s : Dev) (f : Fn) (k : Nat) (c : BitVec 8) (x : Bool) : (s.errTell f k c x).active = s.active := by
  unfold Dev.errTell Dev.errMsg
  repeat' split
  all_goals rfl

theorem Dev.active_aerU (s : Dev) (f : Fn) (bit : Nat) : (s.aerU f bit).active = s.active := by
  unfold Dev.aerU Dev.setCfBits
  simp only
  split
  · rfl
  · rw [Dev.active_errTell]
    rfl

theorem Dev.active_aerHdr (s : Dev) (f : Fn) (bit : Nat) (t : Tlp) : (s.aerHdr f bit t).active = s.active := by
  unfold Dev.aerHdr
  split
  · rw [Dev.active_aerU, Dev.useFree_active, Dev.setCf_active, Dev.setCf_active, Dev.setCf_active, Dev.setCf_active,
      Dev.setCf_active]
  · exact s.active_aerU f bit

/-- The arrival of a TLP at a USP or DSP answers. -/
theorem Dev.tlpIn_ok (s : Dev) (p : Nat) (t : Tlp) (shared : Bool)
    (h : (isMemReq t.kind = false ∧ t.route ≠ .byAddr) ∨ (s.windowsAt (s.partOf p) (t.addr.toNat / 4096)).length ≤ 1) :
    ∃ x, s.tlpIn p t shared = .ok x := by
  unfold Dev.tlpIn
  refine ite_ok _ _ _ ⟨_, rfl⟩ ?_
  dsimp only
  refine ite_ok _ _ _ ⟨_, rfl⟩ (ite_ok _ _ _ ⟨_, rfl⟩ ?_)
  split
  · exact ⟨_, rfl⟩
  · refine bind_ok _ _ (s.lookup_ok_of _ p (s.partOf p) t false false ?_ h) (fun _ => ⟨_, rfl⟩)
    split
    · rw [Dev.active_aerHdr]
      rfl
    · rfl

/-- The oldest request of a Porter's core port is looked up, or waits. -/
theorem Dev.bindPorter_ok (s : Dev) (n : Nat)
    (h : ∀ q ∈ (s.porter n).port.head?, (s.windowsAt (s.partOf (512 + n)) (q.tlp.addr.toNat / 4096)).length ≤ 1) :
    ∃ x, s.bindPorter n = .ok x := by
  unfold Dev.bindPorter
  split
  · exact ⟨_, rfl⟩
  · next q rest hq =>
    have hw := h q (by rw [hq]; rfl)
    exact bind_ok _ _ (s.lookup_ok_of _ (512 + n) (s.partOf (512 + n)) q.tlp q.ahead _ rfl (.inr hw))
      (fun _ => ite_ok _ _ _ (ite_ok _ _ _ ⟨_, rfl⟩ ⟨_, rfl⟩) ⟨_, rfl⟩)

end Sys2Proof.Machine
end

