-- ==== Sys2Proof/Laws/Reset.lean ====
section
/-! SUPPORT. What a cold reset keeps of the state, and that it leaves no block signalling. -/

namespace Sys2Proof.Machine

/-- A cold reset takes no command from the queue. -/
theorem State.cold_pending (s : State) (l : Nat) (d : Dev) : (s.cold l d).pending = s.pending := by
  unfold State.cold; split <;> rfl

/-- Fuses keep themselves. -/
theorem FuseSt.keeps_refl (f : FuseSt) : f.keeps f := by unfold FuseSt.keeps; simp

/-- Burning clears no fuse bit and no serial number (R399). -/
theorem FuseSt.keeps_burn (f : FuseSt) (c : BitVec 3) (n : Nat) : f.keeps (f.burn c n) := by
  have h : ∀ a b : BitVec 3, a &&& (a ||| b) = a := by decide
  unfold FuseSt.keeps FuseSt.burn
  refine ⟨?_, ?_, ?_, ?_, rfl, rfl⟩ <;> simp only <;> split <;> first | exact h _ _ | simp

/-- A cold reset keeps the fuses, and burns only where a burn is under way (R399, R401). -/
theorem State.cold_fuses (s : State) (l : Nat) (d : Dev) : s.fuses.keeps (s.cold l d).fuses ∧ (d.b F.LC_CTL_BUSY = false → (s.cold l d).fuses = s.fuses) := by
  unfold State.cold; split
  · next h => exact ⟨FuseSt.keeps_burn _ _ _, by simp [h]⟩
  · exact ⟨FuseSt.keeps_refl _, by simp⟩

/-- A block with no event and an empty ERR_STATUS asks for no interrupt (R335). -/
theorem Dev.irq_false (d : Dev) (b : Nat) (h1 : d.event b = false) (h2 : d.reg .errStatus b = 0) : d.irqCond b = false ∧ d.b F.ERR_STATUS_SIGNALLED b = false := by
  have hz : ∀ lo w : Nat, getBits 0 lo w = 0 := by intro lo w; unfold getBits; simp
  have hb : ∀ f : Fld, f.kind = .errStatus → d.b f b = false := by
    intro f hk
    unfold Dev.b Dev.f
    rw [hk, h2, hz]
    rfl
  unfold Dev.irqCond
  rw [h1, hb F.ERR_STATUS_INT_ERR rfl, hb F.ERR_STATUS_SAFE rfl, hb F.ERR_STATUS_SIGNALLED rfl]
  simp

/-- After a cold reset no block signals (R335, R386). -/
theorem Dev.cold_settled (d : Dev) (l : Nat) : (d.coldReset l).settled := by
  intro b _
  unfold Dev.coldReset
  simp only
  generalize hx : ({ out := _, free := _, bindCount := _, jtag := _, rst := _ } : Dev) = x
  have hr : x.regs = [] := by subst hx; rfl
  have hc : x.cfg = [] := by subst hx; rfl
  clear hx
  have hg : ∀ k i, x.reg k i = RegId.reset ⟨k, i, 0⟩ := by intro k i; unfold Dev.reg; rw [hr]; rfl
  obtain ⟨h1, h2⟩ := Dev.irq_false (x.setF F.RESET_STATUS_LAST l) b (by
    unfold Dev.event
    have ha : (x.setF F.RESET_STATUS_LAST l).regs.any (fun e => (x.setF F.RESET_STATUS_LAST l).bitRaises b e) = false := by
      rw [Bool.eq_false_iff]
      intro hany
      obtain ⟨e, he, ht⟩ := List.any_eq_true.1 hany
      unfold Dev.setF Dev.setReg at he
      rcases Store.mem_set _ _ _ _ _ e he with rfl | ⟨hm, _⟩
      · have h0 : (putBits (x.reg F.RESET_STATUS_LAST.kind) F.RESET_STATUS_LAST.lo F.RESET_STATUS_LAST.w l) &&& RegKind.resetStatus.eventBits = 0 := by
          rw [hg]
          apply BitVec.eq_of_getLsbD_eq
          intro k hk
          have he : RegKind.resetStatus.eventBits.getLsbD k = decide (k = 5) := by
            show (32 : Nat).testBit k = _
            rw [show (32 : Nat) = 2 ^ 5 from rfl, Nat.testBit_two_pow]
            simp [eq_comm]
          rw [BitVec.getLsbD_and, getLsbD_putBits, he]
          by_cases h5 : k = 5
          · subst h5; rfl
          · simp [h5]
        unfold Dev.bitRaises at ht
        have h0' : (putBits (x.reg F.RESET_STATUS_LAST.kind) F.RESET_STATUS_LAST.lo F.RESET_STATUS_LAST.w l) &&& F.RESET_STATUS_LAST.kind.eventBits = 0 := h0
        simp [h0'] at ht
      · rw [hr] at hm; cases hm
    have hl : (x.setF F.RESET_STATUS_LAST l).levelEvent b = false := by
      unfold Dev.levelEvent Dev.setF
      rw [x.b_setReg_kind _ _ 0 0 F.ROLE_STATUS_STANDOFF 0 0 (by decide), x.f_setReg_kind _ _ 0 0 F.BOOT_STATUS_STAGE 0 0 (by decide)]
      unfold Dev.b Dev.f
      rw [hg, hg]
      simp only [Bool.and_eq_false_iff]
      exact .inr rfl
    rw [ha, hl]
    show (false || (decide (b < 32) && List.any x.cfg _) || false) = false
    rw [hc]
    simp) (by
    unfold Dev.setF
    rw [x.reg_setReg_kind _ .errStatus _ 0 0 b 0 (by decide), hg]
    rfl)
  rw [h1, h2]

end Sys2Proof.Machine
end

