-- ==== Sys2Proof/Tests/Slice0.lean ====
section
/-! SUPPORT. Tests on fixed values: what the checks of well-formedness refuse, states and operands that meet the hypotheses of every
statement, and values that the spec writes out. -/

namespace Sys2Proof.Tests

set_option Elab.async false

open Sys2Proof Sys2Proof.Machine

/-! ### Devices -/

/-- A device whose controllers run, with power domains `doms` ON. -/
def up (doms : List Nat) : Dev :=
  let d : Dev := { State.reset.dev with rst := { State.reset.dev.rst with elected := true, wipe := false } }
  doms.foldl (fun d n => d.setReg .domainState 0x12 n) ((d.setB F.CLK_STATUS_PLL_LOCK true 0).setB F.CLK_STATUS_PLL_LOCK true 1)

/-- Fields of registers set: field, value, index. -/
def sets (d : Dev) (l : List (Fld × Nat × Nat)) : Dev := l.foldl (fun d x => d.setF x.1 x.2.1 x.2.2) d

/-- The machine with a device and no command waiting. -/
def machine (d : Dev) : State := { State.reset with dev := d }

/-- A 32-bit value with every bit of a register set that is not reserved. -/
def all32 (k : RegKind) : BitVec 32 := (~~~k.info.rsv).truncate 32

/-- The same for 64 bits. -/
def all64 (k : RegKind) : Word := ~~~k.info.rsv

/-- Port 496, the last that the reset value of ROW_SPLIT forms, enabled with a role, its link up. -/
def port (role : Nat) : Dev :=
  sets (up (159 :: (List.range 4).map (124 + ·))) [(F.PORT_CTL_EN, 1, 496), (F.PORT_CTL_ROLE, role, 496), (F.PORT_STATUS_DL_ACTIVE, 1, 496),
    (F.PORT_STATUS_LTSSM, 3, 496)]

theorem answers {ε α : Type} {e : Except ε α} (h : e.toOption.isSome = true) : ∃ x, e = .ok x := by
  cases e with
  | ok x => exact ⟨x, rfl⟩
  | error _ => cases h

theorem refuses {α : Type} {e : Except Unit α} (h : e.toOption.isSome = false) : e = .error () := by
  cases e with
  | ok x => cases h
  | error _ => rfl

/-! ### Well-formedness -/

theorem test_wf_registerWrite : (Instr.registerWrite .mgmt 4 true 0).wf = false := by decide
theorem test_wf_misaligned : (Instr.misalignedRegisterAccess .mgmt 8 4 true).wf = false := by decide
theorem test_wf_tlp_dwords : Tlp.wf { kind := .mwr, payload := [0] } = false := by decide
theorem test_wf_tlp_len : Tlp.wf { kind := .mrd, len := 4097 } = false := by decide
theorem test_wf_tlp_header : Tlp.wf { kind := .mrd, len := 4, hdr := 100 } = false := by decide
theorem test_wf_tlp_bytes : Tlp.wf { kind := .mrd, len := 4, hdr := 16, head := [0] } = false := by decide
theorem test_wf_tlpIngress : (Instr.tlpIngress 0 { kind := .mwr, payload := [0, 0] } false {}).wf = false := by decide
theorem test_wf_fabricTlp :
    (Instr.fabricTlpArrival 0 0 0 {} { srcMember := 0, dstMember := 1, dest := 0, bucket := 0, hallPart := 0 }
      { kind := .mwr, payload := [0, 0, 0] }).wf = false := by decide
theorem test_wf_porterCompletion : (Instr.porterCompletion 0 { kind := .cpl, payload := [0] }).wf = false := by decide
theorem test_wf_debugPort : (Instr.debugPortAccess (.reg 4 true) false 0 false 0).wf = false := by decide
theorem test_wf_condemnation : (Instr.condemnationWindow 0 { fec := List.replicate 18 0 }).wf = false := by decide
theorem test_wf_signboard : (Instr.signboardFrame 0 (List.replicate 2057 false)).wf = false := by decide +kernel
theorem test_wf_poll : (Instr.pollComplete 0 0 true [0]).wf = false := by decide
theorem test_wf_descriptorRead : (Instr.descriptorReadComplete 0 true []).wf = false := by decide
theorem test_wf_routePush : (Instr.routePush { port := 0, src := 0, hallId := 0 } 0 0 [0]).wf = false := by decide
theorem test_wf_relay : (Instr.controlMessageRelay 0 0 true { mtype := 0, src := 0, dst := 1, hallId := 0, payload := [0] }).wf = false := by decide
theorem test_wf_bridgeWrite : (Instr.hostBridgeWrite 0 .usp 2 0xF 0).wf = false := by decide
theorem test_wf_edit : (Instr.edit { port := 0, src := 0, hallId := 0 } 0 .usp 1 0xF 0).wf = false := by decide
theorem test_wf_dlUp_width : (Instr.dlUp 0 3 0 false (List.replicate 8 0)).wf = false := by decide
theorem test_wf_dlUp_credits : (Instr.dlUp 0 4 0 false []).wf = false := by decide
theorem test_wf_nerupTrained : (Instr.nerupLinkTrained 0 5 0 true true).wf = false := by decide
theorem test_wf_l0p : (Instr.l0pPartnerRequest 0 12).wf = false := by decide
theorem test_wf_atsInvalidation : (Instr.atsInvalidationRequest 0 0 none 0 11).wf = false := by decide
theorem test_wf_atsCompletion : (Instr.atsCompletion 0 0 true true true false 0 65).wf = false := by decide
theorem test_wf_bootImage : copyWf (some (List.replicate 0x1000001 0)) = false := by
  unfold copyWf
  rw [Option.all_some, List.length_replicate]
  decide
theorem test_wf_bootImageChecked (a b : Option (List Byte)) (h : copyWf a = false) : (Instr.bootImageChecked a b).wf = false := by
  show (copyWf a && copyWf b) = false
  rw [h]
  rfl
theorem test_wf_tallyList : (Instr.tallyListReadComplete true (List.replicate 504 0) true).wf = false := by decide +kernel

/-! ### Hypotheses of the statements about the queue and register accesses -/

theorem witness_StepRunsFrontCommand : ({ State.reset with pending := [.halfHeartbeat] } : State).pending = .halfHeartbeat :: [] := rfl
theorem witness_IdleStepIsOneTimeEdge :
    State.reset.pending = [] ∧ State.reset.dev.mgmtQ = []
      ∧ (let d := State.reset.dev; (d.timeEdge.mgmtGoes d.timeEdge.mgmtQ).own = []) := by decide +kernel

/-- An interrupt message of DSP 496 waits. -/
def speaks : Dev := { port 0 with own := [{ ingress := 496, addr := 0, data := 0 }] }

theorem witness_IdleStepIsOneTimeEdge_own :
    let d := speaks.timeEdge.mgmtGoes speaks.timeEdge.mgmtQ
    d.own = [{ ingress := 496, addr := 0, data := 0 }]
      ∧ ∃ x, ({ d with own := [] } : Dev).bindOwn { ingress := 496, addr := 0, data := 0 } = .ok x :=
  ⟨by decide +kernel, answers (by decide +kernel)⟩
theorem witness_CommandsKeepTheQueue : ∃ t, exec .halfHeartbeat State.reset = .next t := ⟨_, rfl⟩

/-- A read that holds request slot 3. -/
def held : Dev :=
  { up [] with mgmt := { slots := [(3, some { door := .mgmtPf, bar := .mgmt, off := 0, write := false, wide := false })] } }

theorem witness_RegisterAccessCommandsComplete :
    (∃ d, (up []).regAct .mgmtPf ⟨.hashSeed, 0, 0⟩ (all64 .hashSeed &&& RegId.width ⟨.hashSeed, 0, 0⟩) = .ok d)
      ∧ targetMgmt (RegId.addr ⟨.hashSeed, 0, 0⟩) = .reg ⟨.hashSeed, 0, 0⟩ false ∧ RegId.addr ⟨.hashSeed, 0, 0⟩ < 2 ^ 26
      ∧ false = RegKind.hashSeed.info.wide ∧ RegId.addr ⟨.hashSeed, 0, 0⟩ % 4 = 0 ∧ (up []).takes ⟨.hashSeed, 0, 0⟩
      ∧ all64 .hashSeed &&& RegId.width ⟨.hashSeed, 0, 0⟩ &&& RegKind.hashSeed.info.rsv = 0
      ∧ alignedAccess 0x3FFFFFF 4 = false ∧ ((up []).gateAt .mgmtPf .mgmt (0x3FFFFFF / 4 * 4)).1 ≠ .gone
      ∧ (let a : Access := { door := .mgmtPf, bar := .mgmt, off := 0x3FFFFFF, write := true, wide := false, odd := some 4 };
        (up []).accessGate a ≠ .wait ∧ (up []).freeSlot.isSome = true)
      ∧ held.mgmt.slots.look none 3 = some { door := .mgmtPf, bar := .mgmt, off := 0, write := false, wide := false }
      ∧ held.mgmt.waiting = [] ∧ held.rst.polled = none ∧ (held.gateAt .mgmtPf .mgmt 0).1 ≠ .gone
      ∧ (let a : Access := { door := .mgmtPf, bar := .mgmt, off := 0, write := false, wide := false };
        a.isOdd = false ∧ held.accessGate a ≠ .wait) :=
  ⟨⟨_, rfl⟩, by decide +kernel⟩

/-- A misaligned access to a port register whose clock is stopped, with a slot free and with none. -/
theorem witness_RegisterAccessCommandsComplete_misaligned :
    (let a : Access := { door := .mgmtPf, bar := .mgmt, off := RegId.addr ⟨.portCtl, 496, 0⟩ + 1, write := true, wide := false, odd := some 4 };
      let d : Dev := (up []).setReg .domainState 0x16 159;
      let full : Dev := { d with mgmt := { slots := (List.range 4).map (fun k => (k, some a)) } };
      alignedAccess a.off 4 = false ∧ d.accessGate a = .wait ∧ d.freeSlot = some 0 ∧ (d.gateAt .mgmtPf .mgmt (a.off / 4 * 4)).1 ≠ .gone
        ∧ full.freeSlot = none ∧ (full.gateAt .mgmtPf .mgmt (a.off / 4 * 4)).1 ≠ .gone) := by decide +kernel

/-! ### Rows and lanes -/

theorem witness_RowRegisterWritesComplete :
    (up [159]).takes ⟨.rowSplit, 31, 0⟩ ∧ (all32 .rowSplit).zeroExtend 64 &&& RegKind.rowSplit.info.rsv = 0
      ∧ (up [159]).takes ⟨.rowSpareCtl, 31, 0⟩ ∧ (up [127]).takes ⟨.lanePrbsCtl, 31, 16⟩
      ∧ (all32 .lanePrbsCtl).zeroExtend 64 &&& RegKind.lanePrbsCtl.info.rsv = 0 := by decide +kernel

/-- Lane 15 of Row 31 in use at rate 6. -/
def lane : Dev :=
  (((port 0).setF F.LANE_STATUS_RATE 6 31 15).setB F.LANE_STATUS_RX_LOCK true 31 15).setF F.LANE_PRBS_CTL_INJ_EXP 1 31 16
    |>.setB F.LANE_PRBS_CTL_TX_EN true 31 16

/-- The same in phase 2 of an equalization at rate 6. -/
def eqLane : Dev := (sets lane [(F.PORT_STATUS_LTSSM, 4, 496)]).setLane 31 0 { rate := 6, phase := 2 }

theorem witness_LaneEventsComplete :
    lane.laneUsed 31 15 = true ∧ eqLane.eqAnswers 31 0 = true ∧ coefOk (eqLane.lane 31 0).rate 6 12 30 0 = true
      ∧ coefOk (eqLane.lane 31 0).rate 0 0 0 0 = false ∧ lane.eqAnswers 31 0 = false
      ∧ lane.f F.PORT_STATUS_LTSSM (lane.portOfLane 31 15) = 3 ∧ lane.b F.LANE_STATUS_RX_LOCK 31 15 = true
      ∧ lane.b F.LANE_STATUS_SUBSTITUTED 31 15 = false ∧ lane.f F.LANE_PRBS_CTL_INJ_EXP 31 16 ≠ 0 ∧ lane.safe 31 = false
      ∧ lane.b F.LANE_PRBS_CTL_TX_EN 31 16 = true ∧ 2 ≤ lane.laneRate 31 15 ∧ lane.laneRate 31 15 ≤ 6
      ∧ lane.b F.PORT_STATUS_DL_ACTIVE (lane.portOfLane 31 15) = true := by decide +kernel

/-- Row 31 with its spare available, in receiver state `rx` and transmitter state `tx`. -/
def spare (rx tx : Nat) : Dev :=
  sets (port 0) [(F.ROW_SPARE_CTL_SPARE_EN, 1, 31), (F.PORT_STATUS_FLIT, 1, 496), (F.PORT_STATUS_RATE, 6, 496),
    (F.ROW_SPARE_STATUS_RX_STATE, rx, 31), (F.ROW_SPARE_STATUS_TX_STATE, tx, 31), (F.ROW_SPARE_STATUS_RX_SUBST_LANE, 15, 31)]

theorem witness_SparingEventsComplete :
    ((spare 1 0).spareAvail 31 = true ∧ ((spare 1 0).row 31).sent = false ∧ ((spare 1 0).row 31).silent = false
      ∧ ((spare 1 0).row 31).got = false ∧ (spare 1 0).rxSpare 31 ≠ 0 ∧ (spare 0 0).spareAvail 31 = true ∧ (spare 0 0).rxSpare 31 = 0)
      ∧ (let d := (spare 1 0).setRow 31 { sent := true }
        d.spareAvail 31 = true ∧ (d.row 31).silent = false ∧ (d.row 31).sent = true ∧ d.txSpare 31 ≤ 1 ∧ (d.row 31).heard = false)
      ∧ (((spare 1 0).setRow 31 { heard := true }).row 31).heard = true
      ∧ ((spare 0 2).laneFor ((spare 0 2).spareOwner 31) (0 : Fin 16)).isSome = true
      ∧ (spare 0 2).laneFor ((spare 0 2).spareOwner 31) (15 : Fin 16) = none
      ∧ (0 : BitVec 8) ≠ 0x6A ∧ (spare 1 0).rxSpare 31 ≤ 1 ∧ (spare 2 0).rxSpare 31 = 2 ∧ (spare 3 0).rxSpare 31 = 3
      ∧ (spare 0 2).spareAvail 31 = true ∧ (spare 0 2).txSpare 31 = 2 ∧ (spare 4 0).rxSpare 31 = 4
      ∧ (spare 4 0).f F.ROW_SPARE_STATUS_RX_SUBST_LANE 31 = (15 : Fin 16)
      ∧ (((spare 4 0).setRow 31 { seq := some 1023 }).row 31).seq.isSome = true
      ∧ (let d := sets ((spare 4 0).setRow 31 { seq := some 1023 }) [(F.ROW_SPARE_STATUS_RX_SUBST_LANE, 0, 31)];
        d.rxSpare 31 = 4 ∧ (d.laneFor (d.spareOwner 31) (d.f F.ROW_SPARE_STATUS_RX_SUBST_LANE 31)).isSome = true) := by decide +kernel

/-! ### Ports, links, slots -/

theorem witness_PortRegisterWritesComplete :
    (port 0).takes ⟨.portCtl, 496, 0⟩ ∧ (all32 .portCtl).zeroExtend 64 &&& RegKind.portCtl.info.rsv = 0
      ∧ (port 0).takes ⟨.partCtl, 127, 0⟩ ∧ (all32 .partCtl).zeroExtend 64 &&& RegKind.partCtl.info.rsv = 0
      ∧ (port 0).takes ⟨.svcCtl, 0, 0⟩ ∧ (all32 .svcCtl).zeroExtend 64 &&& RegKind.svcCtl.info.rsv = 0
      ∧ (port 0).takes ⟨.sbCtl, 1, 0⟩ ∧ (all32 .sbCtl).zeroExtend 64 &&& RegKind.sbCtl.info.rsv = 0
      ∧ (port 0).takes ⟨.slotCfg, 496, 0⟩ ∧ all64 .slotCfg &&& RegKind.slotCfg.info.rsv = 0
      ∧ (port 0).takes ⟨.spcCfg, 31, 0⟩ ∧ all64 .spcCfg &&& RegKind.spcCfg.info.rsv = 0 := by decide +kernel

/-- A USP at rest with both ASPM states enabled. -/
def usp : Dev := (port 1).setCf (portFn 496) 0x60 3
/-- A DSP the same. -/
def dsp : Dev := (port 0).setCf (portFn 496) 0x60 3
/-- A DSP in flit mode that may change its width. -/
def wide : Dev :=
  ((sets (port 0) [(F.PORT_STATUS_FLIT, 1, 496), (F.PORT_CTL_L0P_INIT, 1, 496)]).setCf (portFn 496) 0x2D8 8).setLink 496
    { fullWidth := 16, l0p := 8 }
/-- A DSP with a TLP for it in its Floor queue. -/
def wideBusy : Dev :=
  { wide with floor := { wide.floor with queues := [(9 * 496, [{ id := 1, d := {}, tlp := { kind := .mwr } }])] } }

theorem witness_LinkEventsComplete_first :
    (((port 0).setLink 496 { purge := true }).link 496).purge = true ∧ usp.isPcie 496 = true ∧ usp.role 496 = 1
      ∧ usp.f F.PORT_STATUS_LTSSM 496 = 3 ∧ usp.b F.PORT_STATUS_FLIT 496 = false ∧ usp.aspm 496 0 = true ∧ usp.linkIdle 496 = true
      ∧ usp.egressIdle 496 = true
      ∧ wide.b F.PORT_STATUS_FLIT 496 = true ∧ usp.b F.PORT_STATUS_DL_ACTIVE 496 = true ∧ usp.aspm 496 1 = true
      ∧ usp.partRests (usp.f F.PORT_CTL_PART 496) = true ∧ dsp.isPcie 496 = true ∧ dsp.role 496 = 0
      ∧ dsp.f F.PORT_STATUS_LTSSM 496 = 3 ∧ dsp.b F.PORT_STATUS_DL_ACTIVE 496 = true ∧ wide.l0pOn 496 = true
      ∧ wide.b F.PORT_CTL_L0P_INIT 496 = true ∧ wide.egressIdle 496 = true ∧ 1 < (wide.link 496).l0p := by decide +kernel

theorem witness_LinkEventsComplete_second :
    (wideBusy.l0pOn 496 = true ∧ wideBusy.b F.PORT_CTL_L0P_INIT 496 = true ∧ wideBusy.egressIdle 496 = false
      ∧ (wideBusy.link 496).l0p < (wideBusy.link 496).fullWidth) ∧ (16 : Fin 17).val ∈ [1, 2, 4, 8, 16]
      ∧ (16 : Fin 17).val ≤ (wide.link 496).fullWidth
      ∧ (let d := (port 0).setCf (portFn 496) 0x2F4 0x20000
        d.b F.PORT_CTL_EN 496 = true ∧ d.role 496 = 0 ∧ (d.link 496).dpc = false ∧ d.dpcArmed 496 .errNonFatal = true)
      ∧ (sets (port 0) [(F.ERR_STATUS_SAFE, 1, 31)]).safe (496 / 16) = true
      ∧ (let d := sets (port 0) [(F.PORT_STATUS_DL_ACTIVE, 0, 496), (F.PORT_CTL_MAX_RATE, 6, 496)]
        d.isPcie 496 = true ∧ d.widthOk 496 16 = true ∧ 6 ≤ d.maxRate 496 ∧ flitOk 6 true = true
          ∧ d.b F.PORT_STATUS_DL_ACTIVE 496 = false ∧ d.mayTrain 496 = true)
      ∧ dsp.b F.PORT_CTL_EN 496 = true ∧ (dsp.setLink 496 { replay := [⟨0, { id := 0, d := {}, tlp := { kind := .mwr } }⟩] }).isPcie 496 = true
      ∧ ((dsp.setLink 496 { replay := [⟨0, { id := 0, d := {}, tlp := { kind := .mwr } }⟩] }).link 496).replay ≠ [] := by decide +kernel

theorem witness_LinkEventsComplete_ack : ∃ x, dsp.ackTo 496 4095 = .ok x := answers (by decide +kernel)

theorem witness_LinkEventsComplete_ackBeyond : dsp.ackTo 496 5 = .error () := refuses (by decide +kernel)

/-- DSP 496 in Recovery. -/
def recovering : Dev := sets (port 0) [(F.PORT_STATUS_LTSSM, 4, 496), (F.PORT_CTL_MAX_RATE, 6, 496)]

/-- A DSP that is in L0 for the first time, before its link is up, with a count of credits at the most and one without end. -/
def training : Dev := sets dsp [(F.PORT_STATUS_DL_ACTIVE, 0, 496), (F.PORT_CTL_MAX_RATE, 6, 496)]
def counting : Dev := dsp.setLink 496 { cr := [(0, creditMost 0)], inf := [1] }

theorem witness_LinkEventsComplete_credits :
    counting.isPcie 496 = true ∧ counting.b F.PORT_STATUS_DL_ACTIVE 496 = true ∧ (counting.link 496).cr.look 0 0 + 0 ≤ creditMost 0
      ∧ (counting.link 496).inf.contains 0 = false ∧ creditMost 0 < (counting.link 496).cr.look 0 0 + 1
      ∧ (counting.link 496).inf.contains 1 = true ∧ training.trainsOn 496 (some 4) = true := by decide +kernel

theorem witness_LinkEventsComplete_recovery :
    recovering.isPcie 496 = true ∧ recovering.widthOk 496 16 = true ∧ (4 : Fin 7).val ≤ recovering.maxRate 496
      ∧ flitOk 4 (recovering.b F.PORT_STATUS_FLIT 496) = true ∧ recovering.b F.PORT_STATUS_DL_ACTIVE 496 = true
      ∧ recovering.f F.PORT_STATUS_LTSSM 496 = 4 ∧ dsp.b F.PORT_STATUS_DL_ACTIVE 496 = true
      ∧ dsp.f F.PORT_STATUS_LTSSM 496 ∈ [3, 5, 6] := by decide +kernel

/-- A DSP with a slot whose chain runs, in slot state `n`. -/
def slot (n : Nat) : Dev :=
  sets (port 0) [(F.SB_CTL_EN, 1, 1), (F.SLOT_CFG_SLOT_EN, 1, 496), (F.SLOT_CFG_BTN, 1, 496), (F.SLOT_STATE_STATE, n, 496)]

theorem witness_SlotEventsComplete :
    (slot 3).sbRuns 1 = true ∧ (slot 3).sbFrozen 496 = false ∧ (slot 3).hasSlot 496 = true ∧ (slot 3).b F.SLOT_CFG_BTN 496 = true
      ∧ (slot 3).slotState 496 ≠ 5 ∧ (slot 5).slotState 496 = 5 ∧ (slot 3).slotFn 496 = true ∧ (slot 2).slotState 496 = 2
      ∧ ((slot 2).setSlot 496 { latched := 2 }).powerPresent 496 = true ∧ (slot 4).slotState 496 = 4
      ∧ ((slot 4).slot 496).offAtLoad = false ∧ ((slot 4).slot 496).gateWait = false ∧ ((slot 3).slot 496).lost = false
      ∧ ((slot 3).slot 496).btnDown = false ∧ (slot 3).sbAgrees 496 1 false = true ∧ (slot 3).sbAgrees 496 3 true = true
      ∧ (((slot 3).setSlot 496 { btnDown := true }).slot 496).btnDown = true
      ∧ ((slot 3).slot 496).present = false ∧ lossAhead 496 [.presenceChange 496 false] = true ∧ lossAhead 496 [] = false
      ∧ 2 ≤ (((slot 3).setSlot 496 { pfRun := 2 }).slot 496).pfRun ∧ ((slot 3).slot 496).pfRun < 2
      ∧ (((slot 3).setSlot 496 { present := true }).slot 496).present = true := by decide +kernel

theorem witness_SlotPowerEventsComplete :
    (sets (up []) [(F.SPC_STATUS_STATE, 3, 31)]).spcState 31 = 3 ∧ (sets (up []) [(F.SPC_CFG_EN, 1, 31)]).b F.SPC_CFG_EN 31 = true
      ∧ (sets (up []) [(F.SPC_STATUS_STATE, 4, 31)]).spcState 31 = 4 ∧ (((up []).setSpc 31 { holdoff := true }).spc 31).holdoff = true
      ∧ (up []).spcState 31 ≠ 3 ∧ (up []).spcState 31 = 0 := by decide +kernel

/-! ### Forwarding, Floor, egress -/

/-- Porter 63 on, with a request at its core port. -/
def porter : Dev :=
  (sets (up [199]) [(F.SVC_CTL_PORTER_EN, 1, 0)]).setPorter 63
    { port := [{ kind := 0, stall := 0, ring := 0, tlp := { kind := .mrd, len := 4 } }] }

theorem witness_ForwardingCommandsComplete :
    isMemReq TlpKind.cpl = false ∧ ({ kind := .cpl } : Tlp).route ≠ .byAddr
      ∧ (let e := (port 0).rxErrors 511 { code := List.replicate 16 4, skew := 0xFFFF };
        (e.windowsAt (e.partOf 511) (0xFFFFFFFFFFFFFFFF / 4096)).length ≤ 1) ∧ porter.porterOn 63 = true
      ∧ (porter.porter 63).port = { kind := 0, stall := 0, ring := 0, tlp := { kind := .mrd, len := 4 } } :: []
      ∧ (porter.windowsAt (porter.partOf (512 + 63)) 0).length ≤ 1
      ∧ (up []).bridgeWrite 127 .usp 0xFFC 0xF 0 { q := 127 } = none
      ∧ (up []).fwd.held = false ∧ (up []).takes ⟨.fwdCtl, 0, 0⟩ ∧ (up []).b F.HALL_CTL_EN = false ∧ (up []).takes ⟨.hashSeed, 0, 0⟩
      ∧ (all32 .hashSeed).zeroExtend 64 &&& RegKind.hashSeed.info.rsv = 0 ∧ (up []).takes ⟨.bucket, 4095, 0⟩
      ∧ (up []).takes ⟨.pitchFence, 575, 0⟩ ∧ (up []).takes ⟨.pitchSeal, 0, 0⟩ ∧ all64 .pitchSeal &&& RegKind.pitchSeal.info.rsv = 0
      ∧ (up []).takes ⟨.winSeal, 1, 0⟩ ∧ all64 .winSeal &&& RegKind.winSeal.info.rsv = 0 := by decide +kernel

theorem witness_ForwardingCommandsComplete_bridge :
    ((sets (up []) [(F.HALL_CTL_EN, 1, 0), (F.HALL_CTL_MEMBER_ID, 15, 0)]).bridgeWrite 127 .usp 4 0xF 7 { q := 127 }).isSome = true := by decide +kernel

theorem witness_FloorCommandsComplete_sweep :
    let held (e : Nat) : Dev := (up []).setQueue e 8 [{ id := 0, d := {}, tlp := { kind := .mwr } }]
    (held 577).queue 577 8 ≠ [] ∧ (held 511).queue 511 8 ≠ [] ∧ (held 511).queue 577 8 = [] := by decide +kernel

/-- Group 31 with its clocks stopped, a scrub step of bank 511 outstanding and `n` more counted. -/
def stalled (n : Nat) : Dev := ((up []).setReg .domainState 0x6 191).setPulse 511 { out := 1, acc := n }

theorem witness_FloorCommandsComplete_pulses :
    (stalled 14).b F.DOMAIN_STATE_READY (160 + 511 / 16) = false ∧ (stalled 14).f F.DOMAIN_STATE_POWER (160 + 511 / 16) = 2
      ∧ ((stalled 14).pulses.look {} 510).out = 0 ∧ 0 < ((stalled 14).pulses.look {} 511).out
      ∧ ((stalled 14).pulses.look {} 511).acc < 15 ∧ 15 ≤ ((stalled 15).pulses.look {} 511).acc
      ∧ (up []).b F.DOMAIN_STATE_READY (160 + 511 / 16) = false ∧ (up []).f F.DOMAIN_STATE_POWER (160 + 511 / 16) ≠ 2 := by decide +kernel

theorem witness_FloorCommandsComplete :
    (({ up [] with floor := { (up []).floor with groups := [(31, { (up []).group 31 with live := true })] } } : Dev).group 31).live = true
      ∧ (up [191]).takes ⟨.floorBank, 511, 0⟩ ∧ porter.ingressOn 575 = true ∧ (up []).takes ⟨.groupCtl, 31, 0⟩
      ∧ (all32 .groupCtl).zeroExtend 64 &&& RegKind.groupCtl.info.rsv = 0 ∧ (up []).takes ⟨.floorRsvGroups, 0, 0⟩
      ∧ (all32 .floorRsvGroups).zeroExtend 64 &&& RegKind.floorRsvGroups.info.rsv = 0 ∧ (up []).takes ⟨.floorCtl, 0, 0⟩
      ∧ ({ up [] with floor := { (up []).floor with wiping := true } } : Dev).floor.wiping = true ∧ (up []).floor.late = []
      ∧ (up [191]).b F.DOMAIN_STATE_READY (160 + 511 / 16) = true ∧ (up [191]).rst.blockBusy ≠ some (68 + domHalf (160 + 511 / 16))
      ∧ ({ up [] with rst := { (up []).rst with blockBusy := some 69 } } : Dev).rst.blockBusy = some (68 + domHalf (160 + 511 / 16)) := by
  decide +kernel

theorem witness_EgressCommandsComplete :
    (up []).takes ⟨.gateCtl, 511, 0⟩
      ∧ (sets (up []) [(F.GATE_CTL_EN, 1, 511), (F.GATE_CTL_SWITCH_PEND, 1, 511)]).b F.GATE_CTL_EN 511 = true
      ∧ (sets (up []) [(F.GATE_CTL_EN, 1, 511), (F.GATE_CTL_SWITCH_PEND, 1, 511)]).b F.GATE_CTL_SWITCH_PEND 511 = true
      ∧ (up []).takes (schedRegId 511 (.qDrr 7)) ∧ (up []).takes (schedRegId 511 .portShape)
      ∧ all64 .pschQDrr &&& (schedRegId 511 (.qDrr 7)).width &&& (schedRegId 511 (.qDrr 7)).kind.info.rsv = 0
      ∧ ((up []).sched 511).round = false
      ∧ (let d := sets (up []) [(F.GATE_CTL_EN, 1, 511), (F.GATE_CTL_SWITCH_PEND, 1, 511)];
        d.gateFirst 511 (1 - d.gateList 511) (d.sched 511).swFrom ≤ d.nowNs) := by decide +kernel

theorem witness_EgressCommandsComplete_debug : ∃ x, (up []).dbgAccess (.reg 0 false) false 0 true 4 = .ok x :=
  answers (by decide +kernel)

/-! ### Hall, Nerup, Twin Hall -/

/-- An enabled fabric port 496 in Nerup state `n`, as member 15 of Hall 1 and its master. -/
def fabric (n : Nat) : Dev :=
  sets (port 2) [(F.HALL_CTL_EN, 1, 0), (F.HALL_CTL_HALL_ID, 1, 0), (F.HALL_CTL_MEMBER_ID, 15, 0), (F.HALL_STATUS_IS_MASTER, 1, 0),
    (F.NERUP_STATUS_STATE, n, 496), (F.PORT_CTL_MAX_RATE, 6, 496)]

/-- The header of a message from member 0. -/
def hdr (hall : BitVec 16) : MsgHdr := { port := 496, src := 0, hallId := hall }

theorem witness_HallMembershipCommandsComplete :
    ({ fabric 5 with hall := { (fabric 5).hall with claim := some [] } } : Dev).hall.claim = some []
      ∧ (fabric 5).b F.HALL_CTL_EN = true ∧ (fabric 5).b F.HALL_STATUS_IS_MASTER = true ∧ (fabric 5).safe (74 + (fabric 5).ic) = false
      ∧ (up []).takes ⟨.hallCtl, 0, 0⟩ ∧ (all32 .hallCtl).zeroExtend 64 &&& RegKind.hallCtl.info.rsv = 0 := by
  decide +kernel

/-- A LOCK_REQ that goes to another member, and one to this one. -/
def passing : CtlMsg := { mtype := 0x30, src := 0, dst := 14, hallId := 1, hops := 14, payload := [0, 0, 0, 0] }

theorem witness_HallMembershipCommandsComplete_relay :
    (fabric 5).ownCommand 496 passing = false ∧ (fabric 5).hearsFlits 496 = true ∧ (0 : BitVec 10).toNat = ((fabric 5).nerupOf 496).rx
      ∧ (let t := (fabric 5).flitsTaken 496 1;
        t.b F.HALL_CTL_EN = true ∧ t.isTwinPort 496 = false ∧ passing.hallId.toNat = t.f F.HALL_CTL_HALL_ID ∧ passing.hops.val ≠ 15
          ∧ relayed passing.mtype.toNat = true ∧ ({ passing with hops := 15 } : CtlMsg).hops.val = 15)
      ∧ (fabric 5).ownCommand 496 { passing with hops := 15 } = false ∧ (1 : BitVec 10).toNat ≠ ((fabric 5).nerupOf 496).rx
      ∧ (fabric 5).ownCommand 496 { passing with dst := 15 } = true ∧ (port 0).hearsFlits 496 = false := by decide +kernel

theorem witness_NerupLinkCommandsComplete :
    ((fabric 7).isFabric 496 = true ∧ (fabric 7).lanesReady 496 = true ∧ (fabric 7).nstate 496 = 7 ∧ (fabric 7).widthOk 496 16 = true
      ∧ (6 : Fin 7).val ≤ (fabric 7).maxRate 496 ∧ 5 ≤ (6 : Fin 7).val ∧ 4 ≤ (16 : Fin 17).val ∧ (4 : Fin 7).val < 5)
      ∧ (fabric 7).f F.PORT_STATUS_LTSSM 496 ≠ 8
      ∧ ((fabric 2).hearsFlits (hdr 1).port = true ∧ (hdr 1).good = true ∧ (hdr 1).seq.toNat = ((fabric 2).nerupOf (hdr 1).port).rx
        ∧ (hdr 1).hops.val ≠ 15 ∧ (((fabric 2).flitsTaken 496 1).ctlFreed 496).helloOk (hdr 1) = true
        ∧ (((fabric 2).flitsTaken 496 1).ctlFreed 496).helloOk (hdr 2) = false ∧ ({ hdr 1 with good := false } : MsgHdr).good = false
        ∧ (fabric 3).hearsFlits 496 = true ∧ (fabric 3).nstate 496 = 3 ∧ (fabric 5).nstate 496 = 5 ∧ (fabric 6).nstate 496 = 6)
      ∧ (let d := (fabric 5).setLink 496 { replay := [⟨0, { id := 0, d := {}, tlp := { kind := .mwr } }⟩] }
        d.hearsFlits 496 = true ∧ d.unacked 496 = true)
      ∧ (let d := sets (fabric 5) [(F.PORT_STATUS_LTSSM, 4, 496)];
        d.f F.PORT_STATUS_LTSSM 496 = 4 ∧ d.isFabric 496 = true ∧ d.lanesReady 496 = true ∧ d.widthOk 496 16 = true) ∧ (fabric 5).f F.PORT_STATUS_LTSSM 496 = 3
      ∧ (((fabric 6).setNerup 496 { query := true }).nerupOf 496).query = true := by decide +kernel

theorem witness_NerupLinkCommandsComplete_query :
    (let x := fabric 5;
      x.isFabric 496 = true ∧ (((x.linkFail 496).nerupOf 496).frozen).isSome = true) := by decide +kernel

theorem witness_HallCommitCommandsComplete :
    (let d := sets ({ fabric 5 with hall := { (fabric 5).hall with waits := [0] } }) [(F.HALL_STATUS_PHASE, 4, 0)];
      d.b F.HALL_CTL_EN = true ∧ d.isMaster = true ∧ d.hall.waits ≠ [] ∧ d.f F.HALL_STATUS_PHASE = 4)
      ∧ (sets (fabric 5) [(F.HALL_STATUS_PHASE, 2, 0)]).f F.HALL_STATUS_PHASE = 2 ∧ (fabric 5).f F.HALL_STATUS_PHASE = 0 ∧ (255 : BitVec 8) ≠ 0 := by decide +kernel

/-- Port 496 as a twin port. -/
def twinPort : Dev := (sets (fabric 5) [(F.TWIN_CTL_EN, 1, 0)]).setReg .twinRoute (BitVec.ofNat 64 (1 + 8 * 496)) 0

theorem witness_HallCommitCommandsComplete_abort :
    (let d := { fabric 5 with hall := { (fabric 5).hall with waits := [0] } };
      d.b F.HALL_CTL_EN = true ∧ d.isMaster = true ∧ d.hall.waits ≠ [] ∧ d.f F.HALL_STATUS_PHASE = 0) := by decide +kernel

theorem witness_LockAndTwinCommandsComplete : twinPort.isTwinPort 496 = true ∧ twinPort.nstate 496 = 5 := by decide +kernel

theorem witness_NerupLinkCommandsComplete_path :
    (let x : Dev := { fabric 5 with active := Store.set TblId.ord (fun _ => 0) (fabric 5).active ⟨.route, 0, 0⟩ (1 + 480 * 65536) };
      x.isFabric 496 = true ∧ (((x.linkFail 496).nerupOf 496).frozen).isSome = true ∧ (x.linkFail 496).failPath 496 0 = some 480)
      ∧ ((fabric 6).setNerup 496 { query := true }).isFabric 496 = true ∧ ((fabric 6).setNerup 496 { query := true }).nstate 496 = 6 := by
  decide +kernel

/-- R203, R212: without a control credit a heartbeat waits in the control queue, and goes when the peer's counter moves on. -/
theorem test_controlCredit :
    (let d := ((fabric 5).setNerup 496 { ctlSent := 8 }).sendBcast 0x10 1 0 [0, 0];
      d.out = [] ∧ (d.nerupOf 496).ctlQ.length = 1 ∧ (d.crdIn 496 8 0 10).out = []
        ∧ (d.crdIn 496 8 0 11).out.length = 1 ∧ ((d.crdIn 496 8 0 11).nerupOf 496).ctlReplay.map Prod.fst = [0]) := by
  decide +kernel

/-- R206: an ACK_SEQ covers control flits too, and the next flit takes the next SEQ. -/
theorem test_controlSeq :
    (let d := ((fabric 5).sendBcast 0x10 1 0 [0, 0]).sendBcast 0x10 1 1 [0, 0];
      (d.link 496).nextSeq = 2 ∧ ((d.nerupAck 496 0).nerupOf 496).ctlReplay.map Prod.fst = [1]
        ∧ (d.nerupAck 496 1).flitsOut 496 = 0) := by decide +kernel

/-! ### Porters, rings, translation, Stalls, Ledger -/

/-- The Porter PF with 1024 Stalls and 14-bit tags. -/
def porters : Dev :=
  ((sets (up [199, 203]) [(F.SVC_CTL_PORTER_EN, 1, 0)]).setCf .porterPf 0x168 1).setCf .porterPf 0x170 1024 |>.setCf .porterPf 0x1D8 4

/-- The same with tag slot 511 of Porter 63 in use by a request of a kind of Stall 1023. -/
def tagged (kind : Nat) (quar : Bool) : Dev :=
  porters.setTag 63 511 (some { kind := kind, stall := 1023, ring := 7, tag := 255, len := 4, quar := quar })

theorem witness_RingCommandsComplete_tags :
    ((tagged 3 false).outstanding 63 (fun t => t.kind == 3 && t.stall == (1023 : Fin 1024).val)).isSome = true
      ∧ (tagged 3 false).staleTag { kind := 3, stall := 1023, ring := 7, tag := 255, len := 4 } = false
      ∧ (∀ r : Nat, r < 8 → ((tagged 3 false).answered 63 511 { kind := 3, stall := 1023, ring := 7, tag := 255, len := 4 }).b
        F.RING_CTL_EN 1023 r = false)
      ∧ ((tagged 2 false).outstanding 63 (fun t => t.kind == 2)).isSome = true
      ∧ (tagged 0 false).tagAt 63 511 = some { kind := 0, stall := 1023, ring := 7, tag := 255, len := 4 }
      ∧ (tagged 0 true).tagAt 63 511 = some { kind := 0, stall := 1023, ring := 7, tag := 255, len := 4, quar := true }
      ∧ (tagged 4 false).tagAt 63 511 = some { kind := 4, stall := 1023, ring := 7, tag := 255, len := 4 } := by decide +kernel

theorem witness_RingCommandsComplete_rings :
    (porters.setPorter 63 { ring := some 8191 }).porterOn 63 = true ∧ (porters.setPorter 63 { ring := some 8191 }).tag14 = true
      ∧ ((porters.setPorter 63 { ring := some 8191, park := true }).porter 63).park = true
      ∧ (porters.setPorter 63 { ring := some 8191, park := true }).parkReady 8191 = true
      ∧ ((porters.setPorter 63 { ring := some 8191 }).porter 63).ring = some 8191
      ∧ (sets (up []) [(F.PORTER_SAFE_UNITS_PORTER, 2 ^ 31, 1)]).porterSafe 63 = true ∧ porters.takesStall 1023 ⟨.ringCtl, 1023, 7⟩ := by
  decide +kernel

/-- The tag of a data read of 4 bytes, and the completion that answers it. -/
def readTag : TagSt := { kind := 0, stall := 1023, ring := 7, tag := 255, len := 4 }
def answer : Tlp :=
  { kind := .cpl, reqId := porters.stallRid 1023, tag := BitVec.ofNat 14 (256 * 63 + 255), byteCount := 4, payload := [1, 2, 3, 4] }

theorem witness_RingCommandsComplete_completion :
    (tagged 0 false).porterSafe 63 = false ∧ ((tagged 0 false).porter 63).tags = (511, some readTag) :: []
      ∧ ((tagged 0 false).errs.look {} (78 + 63 / 32)).bad = [] ∧ (tagged 0 false).tagNamed 63 answer readTag = true ∧ readTag.quar = false
      ∧ (∀ e ∈ (porters.porter 63).tags, ∀ t : TagSt, e.2 = some t → porters.tagNamed 63 answer t = false)
      ∧ (sets (tagged 0 false) [(F.STALL_MGR_STATUS_GEN, 1, 1023)]).staleTag readTag = true
      ∧ (sets (tagged 0 false) [(F.PORTER_SAFE_UNITS_PORTER, 2 ^ 31, 1)]).porterSafe 63 = true ∧ (tagged 0 false).staleTag readTag = false ∧ readTag.kind = 0
      ∧ answer.status = .sc ∧ answer.ep = false ∧ readTag.expects answer = true := by
  decide +kernel

theorem witness_TranslationCommandsComplete :
    porters.takes ⟨.stallXlat, 1023, 0⟩ ∧ all64 .stallXlat &&& RegKind.stallXlat.info.rsv = 0 ∧ (up [201]).takes ⟨.fqCi, 1, 0⟩
      ∧ (all32 .fqCi).zeroExtend 64 &&& RegKind.fqCi.info.rsv = 0 ∧ (up [201]).takes ⟨.fqBase, 1, 0⟩
      ∧ all64 .fqBase &&& RegKind.fqBase.info.rsv = 0 ∧ (up [201]).takes ⟨.xlatResp, 1, 0⟩ ∧ (up []).takes ⟨.xlatInvCtl, 0, 0⟩
      ∧ (all32 .xlatInvCtl).zeroExtend 64 &&& RegKind.xlatInvCtl.info.rsv = 0 := by decide +kernel

theorem witness_StallCommandsComplete :
    porters.takes ⟨.stallBind, 1023, 0⟩ ∧ (all32 .stallBind).zeroExtend 64 &&& RegKind.stallBind.info.rsv = 0
      ∧ porters.takes ⟨.stallShare, 1023, 0⟩ ∧ all64 .stallShare &&& RegKind.stallShare.info.rsv = 0
      ∧ porters.takesStall 1023 ⟨.mbCtl, 1023, 0⟩ ∧ porters.takes ⟨.mbMgrCtl, 1023, 0⟩ := by decide +kernel

theorem witness_LedgerCommandsComplete :
    (sets (up []) [(F.LEDGER_CMD_STATE, 1, 255)]).ledState 255 = 1
      ∧ (sets (up []) [(F.LEDGER_CMD_STATE, 1, 255)]).ledger.flushes.any (fun f => f.ctx == (255 : Fin 256).val && f.kind == 0) = false
      ∧ (up []).takes ⟨.ledgerCmd, 255, 0⟩ ∧ (up []).takes ⟨.ledgerCtx, 255, 0⟩
      ∧ (all64 .ledgerCtx ||| 1) &&& RegKind.ledgerCtx.info.rsv = 0 := by decide +kernel

/-! ### Errors, clocks, domains, resets, boot, management, time -/

theorem witness_ErrorCommandsComplete : (up []).takes ⟨.errInject, 87, 0⟩ := by decide +kernel

theorem witness_ClockAndDomainCommandsComplete :
    (up []).b F.CLK_STATUS_PLL_LOCK 1 = true ∧ (sets (up []) [(F.CLK_STATUS_HOLDOVER, 1, 1)]).b F.CLK_STATUS_HOLDOVER 1 = true
      ∧ (up []).takes ⟨.droopCtl, 1, 0⟩ ∧ (all32 .droopCtl).zeroExtend 64 &&& RegKind.droopCtl.info.rsv = 0
      ∧ (up []).takes ⟨.domainCtl, 207, 0⟩ := by decide +kernel

theorem witness_ResetAndRoleCommandsComplete :
    State.reset.dev.rst.perstLow = false ∧ ({ up [] with rst := { (up []).rst with perstLow := true } } : Dev).rst.perstLow = true
      ∧ (up []).takes ⟨.resetCtl, 0, 0⟩ ∧ (sets (up []) [(F.LC_CTL_BUSY, 1, 0)]).b F.LC_CTL_BUSY = true := by decide +kernel

theorem witness_ResetAndRoleCommandsComplete_done : ∃ x, (up []).blockResetDone = .ok x := answers (by decide +kernel)
theorem witness_ResetAndRoleCommandsComplete_arm : ∃ x, (up []).lcWrite .mgmtPf ((3 : BitVec 2).zeroExtend 32 ||| 4) = .ok x :=
  answers (by decide +kernel)
theorem witness_ResetAndRoleCommandsComplete_go : ∃ x, (up []).lcWrite .mgmtPf ((3 : BitVec 2).zeroExtend 32 ||| 8) = .ok x :=
  answers (by decide +kernel)

/-- A record of an operation, which writes 0 to HASH_SEED. -/
def recBytes (op : Byte) : List Byte := [op, 0, 0, 0] ++ leBytes (RegId.addr ⟨.hashSeed, 0, 0⟩) 4 ++ List.replicate 8 0
/-- A boot that has reached that record. -/
def booting (op : Byte) (delaying : Bool) : Dev :=
  sets ({ up [] with rst := { (up []).rst with sections := [[recBytes op]], delaying := delaying } }) [(F.BOOT_STATUS_STAGE, 3, 0)]

theorem witness_BootCommandsComplete :
    (booting 1 false).recordOf 1 = some (recBytes 1) ∧ (booting 2 false).recordOf 2 = some (recBytes 2)
      ∧ (booting 3 false).recordOf 3 = some (recBytes 3) ∧ (booting 4 false).recordOf 4 = some (recBytes 4)
      ∧ (booting 4 true).rst.delaying = true ∧ (booting 4 true).served = true ∧ (booting 0 false).recordOf 0 = some (recBytes 0)
      ∧ (booting 255 false).record = some (recBytes 255) ∧ 4 < recOp (recBytes 255) := by decide +kernel

theorem witness_BootCommandsComplete_write32 : ∃ x, ((booting 1 false).recordWrite (recBytes 1) false).bind Dev.recordDone = .ok x :=
  answers (by decide +kernel)
theorem witness_BootCommandsComplete_write64 : ∃ x, ((booting 2 false).recordWrite (recBytes 2) true).bind Dev.recordDone = .ok x :=
  answers (by decide +kernel)
theorem witness_BootCommandsComplete_poll32 : ∃ x, (booting 3 false).poll (recBytes 3) = .ok x := answers (by decide +kernel)
theorem witness_BootCommandsComplete_delay :
    ∃ x, ({ booting 4 true with rst := { (booting 4 true).rst with delaying := false } } : Dev).recordDone = .ok x :=
  answers (by decide +kernel)

/-- A block reset that replays a POLL32. -/
def replaying : Dev :=
  { up [] with rst := { (up []).rst with blockBusy := some 87, replay := some [recBytes 3] } }

theorem witness_BootCommandsComplete_replay :
    (booting 3 false).rst.replay = none ∧ replaying.recordOf 3 = some (recBytes 3) ∧ replaying.rst.replay.isSome = true := by decide +kernel
theorem witness_BootCommandsComplete_replayed : ∃ x, replaying.recordDone = .ok x := answers (by decide +kernel)

theorem witness_ManagementCommandsComplete :
    (0x5C : BitVec 7) = 0x5C ∧ (0x7E : BitVec 7) ≠ 0x5C ∧
    (up []).i3cAlive = true ∧ (up []).takes ⟨.evqCmd, 0, 0⟩ ∧ (up []).takes ⟨.tallyCtl, 0, 0⟩
      ∧ (sets (up []) [(F.TALLY_CTL_EN, 1, 0)]).b F.TALLY_CTL_EN = true := by decide +kernel

theorem witness_ManagementCommandsComplete_window : ∃ x, (up []).windowDone = .ok x := answers (by decide +kernel)

/-- Time from PTM through port 496, with a dialog begun. -/
def ptm : Dev := { sets (port 1) [(F.TIME_CTL_SRC, 1, 0), (F.TIME_CTL_PTM_PORT, 496, 0)] with time := { dialog := some 0 } }
/-- Time from TIME_PPS_IN. -/
def pps (lost out : Bool) : Dev :=
  { sets (up []) [(F.TIME_CTL_SRC, 2, 0), (F.TIME_CTL_PPS_OUT_EN, 1, 0)] with time := { lost := lost, ppsOut := out } }

theorem witness_TimeCommandsComplete :
    (up []).takes ⟨.timeSetReg, 0, 0⟩ ∧ all64 .timeSetReg &&& RegKind.timeSetReg.info.rsv = 0 ∧ (up []).takes ⟨.timeCtl, 0, 0⟩
      ∧ (all32 .timeCtl).zeroExtend 64 &&& RegKind.timeCtl.info.rsv = 0 ∧ (up []).ic = 0
      ∧ (sets (up []) [(F.ROLE_STATUS_IN_CHARGE, 1, 0)]).ic ≠ 0 ∧ (pps false false).timeSrc = 2 ∧ (pps false false).time.lost = false
      ∧ (pps true false).time.lost = true ∧ (pps false false).b F.TIME_CTL_PPS_OUT_EN = true ∧ (pps false false).time.ppsOut = false
      ∧ (pps false false).sinceSecond < ((pps false false).reg .timeIncr).toNat
      ∧ (pps false true).time.ppsOut = true ∧ 10 ^ 6 * 2 ^ 32 ≤ ({ pps false true with time := { tw := 10 ^ 6 * 2 ^ 32 } } : Dev).sinceSecond ∧ ptm.timeSrc = 1 ∧ ptm.f F.TIME_CTL_PTM_PORT = 496 ∧ ptm.b F.PORT_CTL_EN 496 = true
      ∧ ptm.role 496 = 1 ∧ ptm.b F.PORT_STATUS_DL_ACTIVE 496 = true ∧ ptm.time.dialog = some 0
      ∧ (ptm.setCf (portFn 496) 0x298 1).ptmOn 496 = true ∧ ptm.role 496 ≤ 1 := by decide +kernel

/-! ### The other statements -/

theorem witness_ErrorBlocksStaySettled : ∃ t, step State.reset = .next t := ⟨_, rfl⟩
theorem witness_FusesOnlyBurn : ∃ t, step State.reset = .next t ∧ State.reset.dev.b F.LC_CTL_BUSY = false :=
  ⟨_, rfl, by decide +kernel⟩
theorem witness_ColdResetResetsEverything : State.reset.dev.rst.perstLow = false ∧ State.reset.dev.b F.LC_CTL_BUSY = false := by
  decide +kernel
theorem witness_StoredByAccessType :
    RegKind.hashSeed.info.rw.getLsbD 31 = true ∧ RegKind.domainCtl.info.rws.getLsbD 1 = true ∧ RegKind.spcStatus.info.w1c.getLsbD 19 = true
      ∧ RegKind.winSeal.info.w1s.getLsbD 63 = true
      ∧ (let a := RegKind.errStatus.info; (a.rw ||| a.rws ||| a.w1c ||| a.w1s).getLsbD 63) = false
      ∧ (⟨.hashSeed, 0, 0⟩ : RegId) ≠ ⟨.hashSeed, 1, 0⟩ := by decide +kernel

theorem witness_UnusedPortSlotsIgnoreWrites :
    (up [159]).isPort 511 = false ∧ (up [159]).gateOf .mgmtPf ⟨.portCtl, 511, 0⟩ = .act ∧ (up [159]).freeSlot.isSome = true
      ∧ (up [159]).gateOf .mgmtPf ⟨.slotCfg, 511, 0⟩ = .act ∧ RegKind.portCtl ∈ .slotCfg :: .slotState :: portSlotKinds
      ∧ RegKind.slotCfg ∈ .slotCfg :: .slotState :: portSlotKinds
      ∧ targetMgmt (RegId.addr ⟨.portCtl, 511, 0⟩) = .reg ⟨.portCtl, 511, 0⟩ false
      ∧ targetMgmt (RegId.addr ⟨.slotCfg, 511, 0⟩) = .reg ⟨.slotCfg, 511, 0⟩ false := by decide +kernel

/-- The port registers of Row 31 with its domain OFF, with its clock stopped, and with every request slot held. -/
def off31 : Dev := up []
def stopped31 : Dev := (up []).setReg .domainState 0x16 159
def full31 : Dev :=
  { up [159] with mgmt := { slots := (List.range 4).map (fun k => (k, some { door := .mgmtPf, bar := .mgmt, off := 0, write := false, wide := false })) } }
/-- Block 32 in its safe state. -/
def safe32 : Dev := sets (up []) [(F.ERR_STATUS_SAFE, 1, 32)]

theorem witness_RegisterWritesByBlockState :
    (let a := RegId.addr ⟨.portCtl, 496, 0⟩;
      a < 2 ^ 26 ∧ a % 4 = 0 ∧ (off31.gateAt .mgmtPf .mgmt a).1 = .inReset ∧ off31.freeSlot.isSome = true
        ∧ (stopped31.gateAt .mgmtPf .mgmt a).1 = .wait ∧ stopped31.freeSlot = some 0
        ∧ (full31.gateAt .mgmtPf .mgmt a).1 ≠ .gone ∧ full31.freeSlot = none)
      ∧ (let d : Dev := { up [] with rst := { (up []).rst with deviceSafe := true } };
        (d.gateAt .mgmtPf .mgmt (RegId.addr ⟨.resetCtl, 0, 0⟩)).1 = .inReset ∧ d.freeSlot.isSome = true ∧ d.rst.deviceSafe = true
          ∧ (1 : BitVec 32).getLsbD 0 = true)
      ∧ (let a := RegId.addr ⟨.sbCtl, 0, 0⟩;
      a < 2 ^ 26 ∧ a % 4 = 0 ∧ (safe32.gateAt .mgmtPf .mgmt a).1 = .safe ∧ safe32.freeSlot.isSome = true
        ∧ targetMgmt a = .reg ⟨.sbCtl, 0, 0⟩ false ∧ safe32.regSafe ⟨.sbCtl, 0, 0⟩ = true ∧ RegKind.sbCtl.isErrReg = false
        ∧ safe32.noPort ⟨.sbCtl, 0, 0⟩ = false ∧ RegKind.sbCtl ≠ .resetCtl ∧ RegKind.sbCtl ≠ .tallyCtl ∧ (0 : Word) &&& 0xFFFFFFFF &&& RegKind.sbCtl.info.rsv = 0) := by decide +kernel

theorem witness_SealsAreOnlySet :
    (up []).takes ⟨.pitchSeal, 0, 0⟩ ∧ all64 .pitchSeal &&& RegKind.pitchSeal.info.rsv = 0 ∧ (up []).takes ⟨.winSeal, 1, 0⟩
      ∧ all64 .winSeal &&& RegKind.winSeal.info.rsv = 0 := by decide +kernel

theorem witness_PrbsOnlyOnIdleLanes :
    (spare 0 0).takes ⟨.lanePrbsCtl, 31, 16⟩ ∧ (3 : BitVec 32).zeroExtend 64 &&& RegKind.lanePrbsCtl.info.rsv = 0
      ∧ (3 : BitVec 32).getLsbD 0 = true ∧ (spare 0 0).b F.ROW_SPARE_CTL_SPARE_EN 31 = true
      ∧ (spare 0 0).b F.PORT_CTL_EN ((spare 0 0).portOfLane 31 15) = true ∧ (port 0).b F.ROW_SPARE_CTL_SPARE_EN 31 = false
      ∧ (up [0]).takes ⟨.lanePrbsCtl, 0, 0⟩ ∧ (up [0]).b F.PORT_CTL_EN ((up [0]).portOfLane 0 0) = false := by decide +kernel

theorem witness_SpareNakKeepsTheLane :
    (spare 0 4).spareAvail 31 = true ∧ ((spare 0 4).laneFor ((spare 0 4).spareOwner 31) (0 : Fin 16)).isSome = true ∧ (spare 0 4).txSpare 31 ≠ 2 ∧ (spare 4 0).rxSpare 31 = 4
      ∧ (spare 0 4).role ((spare 0 4).spareOwner 31) ≠ 2
      ∧ (spare 4 0).f F.ROW_SPARE_STATUS_RX_SUBST_LANE 31 = (15 : Fin 16) := by decide +kernel

theorem witness_SbCtlHoldsWhileSlotsAreEnabled :
    (slot 3).takes ⟨.sbCtl, 1, 0⟩ ∧ (0 : BitVec 32).zeroExtend 64 &&& RegKind.sbCtl.info.rsv = 0 ∧ 496 / 256 = (1 : Fin 2).val
      ∧ (slot 3).slotEn 496 = true ∧ getBits ((0 : BitVec 32).zeroExtend 64) 0 14 ≠ getBits ((slot 3).reg .sbCtl (1 : Fin 2)) 0 14 := by
  decide +kernel

theorem witness_ChannelFaultsDischarge :
    (sets (up []) [(F.SPC_STATUS_STATE, 1, 31)]).spcState 31 = 1 ∧ (sets (up []) [(F.SPC_STATUS_STATE, 2, 31)]).spcState 31 = 2 := by
  decide +kernel

/-- Two windows of partition 0 that match every page. -/
def twoWindows : Dev :=
  { port 0 with
    active := [(⟨.win, 0, 0⟩, 1), (⟨.win, 0, 1⟩, 0xFFFFFFFFFFFFF000), (⟨.win, 0, 4⟩, 1), (⟨.win, 0, 5⟩, 0xFFFFFFFFFFFFF000)]
    floor := { (port 0).floor with pools := [(8 * 496, { adv := [9, 9, 9, 9, 9, 9, 9, 9] })] } }

theorem witness_TwoWindowsStop :
    (let t : Tlp := { kind := .mrd, len := 4 };
      let d := twoWindows.rxErrors 496 {};
      (t.kind = .mrd ∨ t.kind = .mwr) ∧ d.b F.PORT_CTL_EN 496 = true ∧ d.role 496 < 2
        ∧ d.b F.PORT_STATUS_DL_ACTIVE 496 = true ∧ d.f F.PORT_STATUS_LTSSM 496 = 3 ∧ t.ep = false
        ∧ d.malformed 496 t = false ∧ d.openedFrom 496 = none ∧ ({} : RxErr).badEnd = none ∧ d.outOf (66 + d.ingressHalf 496) = false
        ∧ (d.pool 496 0).covers (creditOf (clsOf t.kind) (b2n (false && d.b F.PORT_STATUS_FLIT 496))) (dataCredits t) = true
        ∧ 2 ≤ (d.windowsAt (d.partOf 496) (t.addr.toNat / 4096)).length) := by decide +kernel

theorem witness_BucketsMoveOnlyWhenDrained :
    (sets (up []) [(F.BUCKET_INFLIGHT, 1, 4095)]).f F.BUCKET_INFLIGHT 4095 ≠ 0 ∧ (up []).f F.BUCKET_INFLIGHT 4095 = 0
      ∧ (up []).takes ⟨.bucket, 4095, 0⟩ := by decide +kernel

theorem witness_PitchVerdicts :
    (let d := (sets (up []) [(F.PITCH_CHK_CHECK_EN, 1, 575)]);
      (up []).b F.PITCH_CHK_CHECK_EN 575 = false ∧ d.b F.PITCH_CHK_CHECK_EN 575 = true ∧ d.outOf (76 + ingHalf 575) = false)
      ∧ (let t : Tlp := { kind := .mwr };
        (1 : Word).getLsbD 0 = true ∧ pitchAllows 1 t = false ∧ pitchAllows 0x205 t = true ∧ (0x205 : Word).getLsbD 9 = true
          ∧ privileged t = false ∧ privileged { t with pasid := some 0, pmr := true } = true ∧ (5 : Word).getLsbD 9 = false
          ∧ pitchAllows 5 t = true ∧ (0 : Word).getLsbD 0 = false ∧ pitchAllows 0 t = false
          ∧ isMemReq t.kind = true ∧ ({ t with atype := 3 } : Tlp).atype = 3 ∧ ({ kind := .msg } : Tlp).kind = .msg
          ∧ ({ kind := .msg, route := .byId } : Tlp).route = .byId ∧ ({ kind := .msg, route := .broadcast } : Tlp).route = .broadcast) := by decide +kernel

/-- No cell backs the reservations of half 1: one cell of an ingress there is reserved and no group allocates. -/
def bare : Dev :=
  { sets (up []) [(F.FLOOR_RSV_GROUPS_GROUPS, 0xFFFFFFFF, 0)] with
    floor := { (up []).floor with
      groups := [(31, { live := true })], pools := [(8 * 496, { e := { covP := 1 } })] } }

theorem witness_GroupWritesKeepReservationsBacked :
    (bare.takes ⟨.groupCtl, 31, 0⟩ ∧ (0 : BitVec 32).zeroExtend 64 &&& RegKind.groupCtl.info.rsv = 0
      ∧ (let n := bare.storeReg ⟨.floorRsvGroups, 0, 0⟩ 0; n.freeRsv 1 < n.unspent 1 ∧ bare.unspent 1 ≤ bare.freeRsv 1))
      ∧ (up []).takes ⟨.floorRsvGroups, 0, 0⟩
      ∧ (let n := (up []).storeReg ⟨.floorRsvGroups, 0, 0⟩ 0; ∀ h : Nat, h < 2 → n.unspent h ≤ n.freeRsv h) := by decide +kernel

theorem witness_GroupWritesKeepReservationsBacked_group :
    (let n := bare.storeReg ⟨.groupCtl, 31, 0⟩ 0; n.freeRsv 1 < n.unspent 1 ∧ bare.unspent 1 ≤ bare.freeRsv 1) := by decide +kernel

/-- In MANUFACTURE with TEST_MODE asserted. -/
def testing : Dev := { up [] with rst := { (up []).rst with testMode := true } }

theorem witness_SafeInjections :
    (up []).takes ⟨.errInject, 87, 0⟩ ∧ (up []).rst.testMode = false ∧ testing.takes ⟨.errInject, 87, 0⟩ ∧ testing.lifecycle = 0
      ∧ testing.rst.testMode = true ∧ testing.safe 87 = false ∧ testing.takes ⟨.errInject, 32, 0⟩ ∧ testing.safe 32 = false := by
  decide +kernel

theorem witness_HeartbeatLossMovesTheRole :
    (up []).rst.elected = true ∧ (up []).b F.ROLE_STATUS_STANDOFF = false ∧ (up []).rst.deviceSafe = false
      ∧ (up []).safe (83 - (up []).ic) = false ∧ (up []).rst.blockBusy ≠ some (83 - (up []).ic) ∧ (up []).b F.TALLY_CTL_BUSY = false
      ∧ (sets (up []) [(F.ERR_STATUS_SAFE, 1, 83)]).safe (83 - (up []).ic) = true := by decide +kernel

/-- In STANDOFF, `n` votes lost, with the serial numbers 1 and 2. -/
def standoff (n : Nat) : Dev :=
  ((sets ({ up [] with rst := { (up []).rst with shadowW := some true, shadowE := some true } })
    [(F.ROLE_STATUS_STANDOFF, 1, 0), (F.ROLE_STATUS_VOTES_FAILED, n, 0)]).setReg .dieSerial 1 0).setReg .dieSerial 2 1

theorem witness_SerialVotesDecideStandoff :
    (standoff 0).b F.ROLE_STATUS_STANDOFF = true ∧ (standoff 0).rst.deviceSafe = false ∧ (standoff 0).rst.shadowW = some true
      ∧ (standoff 0).rst.shadowE = some true ∧ (standoff 0).reg .dieSerial 0 ≠ (standoff 0).reg .dieSerial 1
      ∧ (standoff 0).b F.TALLY_CTL_BUSY = false ∧ (standoff 1).f F.ROLE_STATUS_VOTES_FAILED < 2
      ∧ 2 ≤ (standoff 2).f F.ROLE_STATUS_VOTES_FAILED := by decide +kernel

/-- ARM has named PROVISIONED. -/
def armed : Dev := { sets (up []) [(F.LC_CTL_ARMED, 1, 0)] with rst := { (up []).rst with armTarget := 1 } }

theorem witness_LifecycleGo :
    armed.gateAt .mgmtPf .mgmt 0x3200108 = (.act, some 87) ∧ armed.regSafe ⟨.lcCtl, 0, 0⟩ = false
      ∧ armed.freeSlot.isSome = true
      ∧ (armed.errs.look {} 87).parity = [] ∧ armed.lifecycle < 3 ∧ armed.b F.LC_CTL_ARMED = true
      ∧ armed.rst.armTarget = (1 : BitVec 2).toNat ∧ (1 : BitVec 2).toNat = armed.lifecycle + 1 ∧ armed.rst.testMode = false
      ∧ armed.rst.wipe = false ∧ armed.rst.blockBusy = none ∧ armed.b F.LC_CTL_BUSY = false ∧ armed.b F.ROLE_STATUS_STANDOFF = false
      ∧ armed.safe 87 = false ∧ armed.rst.deviceSafe = false ∧ (up []).b F.LC_CTL_ARMED ≠ true := by decide +kernel

theorem witness_DomainPowerOn :
    (203 : Fin 208).val < 204 ∧ (up []).takes ⟨.domainCtl, 203, 0⟩ ∧ (up []).safe (84 + domHalf 203) = false
      ∧ (up []).b F.DOMAIN_CTL_PWR_EN 203 = false ∧ dependsOn 199 = some 201 ∧ (up []).b F.DOMAIN_CTL_PWR_EN 201 = false
      ∧ (∀ e : Nat, e ∈ (dependsOn 203).toList → (up []).b F.DOMAIN_CTL_PWR_EN e = true) ∧ (up []).rst.tripped = false
      ∧ (up []).power 203 = 0 ∧ (up []).takes ⟨.domainCtl, 199, 0⟩ ∧ (up []).b F.DOMAIN_CTL_PWR_EN 199 = false := by decide +kernel

/-- An event queue with a current record, and one with two records in its chain. -/
def reading : Dev := { up [] with evq := { (up []).evq with current := [7] } }
def chained : Dev := { up [] with evq := { (up []).evq with chain := [[0x12, 1], [0x02, 2]] } }

theorem witness_EventQueueReads :
    (up []).i3cAlive = true ∧ (up []).served = true ∧ (up []).evq.current = [] ∧ (up []).evq.chain = [] ∧ reading.served = true
      ∧ reading.evq.current = 7 :: [] ∧ chained.evq.current = [] ∧ firstPrio chained.evq.chain = some 1
      ∧ chained.evq.chain.getD 1 [] = 0x02 :: [2] ∧ (chained.errs.look {} (82 + chained.ic)).bad = [] := by decide +kernel

theorem witness_DeviceTime :
    (up []).takes ⟨.timeSetReg, 0, 0⟩ ∧ all64 .timeSetReg &&& RegKind.timeSetReg.info.rsv = 0 ∧ (machine (up [])).pending = []
      ∧ (up []).own = [] ∧ (up []).mgmtQ = [] := by decide +kernel

theorem witness_DeviceTime_gates : ∀ p : Nat, State.reset.dev.b F.GATE_CTL_EN p = false := by
  intro p
  show decide (getBits (RegId.reset ⟨.gateCtl, p, 0⟩) 0 1 ≠ 0) = false
  unfold RegId.reset
  rw [if_neg (fun x => by cases x.1), if_neg (fun x => by cases x.1)]
  show decide (getBits RegKind.gateCtl.info.reset 0 1 ≠ 0) = false
  decide

/-- Ring 7 of Stall 1023 in a state. -/
def ringAt (n : Nat) (en : Bool) : Dev :=
  (porters.setF F.RING_STATUS_STATE n 1023 7).setB F.RING_CTL_EN en 1023 7

theorem witness_RingEnableAndHaltedDisable :
    (ringAt 0 false).takesStall 1023 ⟨.ringCtl, 1023, 7⟩ ∧ (ringAt 0 false).rstate 8191 = 0 ∧ (ringAt 0 false).b F.RING_CTL_EN 1023 7 = false
      ∧ (ringAt 4 true).takesStall 1023 ⟨.ringCtl, 1023, 7⟩ ∧ (ringAt 4 true).rstate 8191 = 4 ∧ (ringAt 4 true).b F.RING_CTL_EN 1023 7 = true := by
  decide +kernel

theorem witness_MailboxOut :
    porters.takesStall 1023 ⟨.mbCtl, 1023, 0⟩ ∧ porters.b F.MB_CTL_OUT_BUSY 1023 = false ∧ porters.takes ⟨.mbMgrCtl, 1023, 0⟩
      ∧ (porters.setB F.MB_CTL_OUT_BUSY true 1023).takesStall 1023 ⟨.mbCtl, 1023, 0⟩
      ∧ (porters.setB F.MB_CTL_OUT_BUSY true 1023).b F.MB_CTL_OUT_BUSY 1023 = true := by decide +kernel

/-- A boot image copy of 80 bytes with one FIRMWARE section of no bytes (R396). -/
def image (seq : Nat) : List Byte :=
  let table := leBytes 1 4 ++ leBytes 0x50 4 ++ leBytes 0 8
  let head := leBytes 0x4C445241 4 ++ leBytes 1 2 ++ leBytes 1 2 ++ leBytes 0x50 4 ++ leBytes seq 4 ++ leBytes 0x5120 2
    ++ List.replicate 38 0 ++ leBytes (crc32c table).toNat 4
  head ++ leBytes (crc32c head).toNat 4 ++ table

theorem witness_ImageChoice :
    imgValid (image 1) = true ∧ imgValid (image 2) = true ∧ leAt (image 1) 0xC 4 < leAt (image 2) 0xC 4 ∧ imgValid [] = false := by
  decide +kernel

/-! ### Values of the spec -/

/-- R131: CRC-32C as RFC 3720 defines it; appendix B.4 of that RFC gives 0x8A9136AA for 32 bytes of zeros. -/
theorem test_crc32c : crc32c (List.replicate 32 0) = 0x8A9136AA := by decide +kernel

/-- R39, its example: TREE 0x4045 of Row 3. -/
theorem test_rowSplit_example :
    (List.range 16).filter (fun m => (splitBlock 0x4045 m).1 == m) = [0, 8, 12, 14, 15]
      ∧ [0, 8, 12, 14, 15].map (fun m => (splitBlock 0x4045 m).2) = [8, 4, 2, 1, 1] := by decide

/-- R39: an accepted write of ROW_SPLIT raises the GEN of every port slot of the Row. -/
theorem test_rowSplit_gen :
    (match exec (.rowSplitWrite 3 0x4045) (machine (up [131])) with
    | .next t => [t.dev.f F.ROW_SPLIT_TREE 3, (t.dev.regs.filter (fun e => e.1.kind == .portStatus)).length]
    | _ => []) = [0x4045, 16] := by decide +kernel

/-- R139: the first cell of the East half lies in group 16 and bank 256. -/
theorem test_cell_place : cellGroup 196608 = 16 ∧ cellBank 196608 = 256 ∧ cellBank (196608 + 12288) = 272 := by decide

/-- R424, its example: the PPS edge of second 20 when device time reads 20,000,000,150 ns. -/
theorem test_pps_example :
    (match exec .ppsEdge (machine { pps false false with
        time := { tw := 20000000150 * 2 ^ 32, te := 20000000150 * 2 ^ 32, prev := some 19000000000, good := 5 } }) with
    | .next t => [(t.dev.reg .baseIncr).toNat, (t.dev.reg .timeIncr).toNat]
    | _ => []) = [34359737080, 34359731926] := by decide +kernel

/-- R372, its example: a level 1 sag takes the West half from /4 to /5, level 2 to /6; recovery goes back by one step. -/
theorem test_droop_example :
    (((up []).setF ⟨.droopStatus, 5, 1⟩ 1).slowClock 0).cclkDiv 0 = 5
      ∧ ((((up []).setF ⟨.droopStatus, 5, 1⟩ 1).setF ⟨.droopStatus, 37, 1⟩ 1).slowClock 0).cclkDiv 0 = 6
      ∧ ((sets (up []) [(F.CLK_STATUS_CCLK_DIV, 6, 0)]).recoverClock 0).cclkDiv 0 = 5
      ∧ ((sets (up []) [(F.CLK_STATUS_CCLK_DIV, 4, 0)]).recoverClock 0).cclkDiv 0 = 4 := by decide +kernel

/-- The register map: LC_CTL at 0x320_0108, RESET_CTL at 0x320_0000, PITCH_SEAL's upper half beside its lower. -/
theorem test_registerMap :
    targetMgmt 0x3200108 = .reg ⟨.lcCtl, 0, 0⟩ false ∧ targetMgmt 0x3200000 = .reg ⟨.resetCtl, 0, 0⟩ false
      ∧ targetMgmt (RegId.addr ⟨.pitchSeal, 0, 0⟩ + 4) = .reg ⟨.pitchSeal, 0, 0⟩ true := by decide +kernel

/-- R252: a seal once set stays set. -/
theorem test_sealStays :
    (match exec (.sealWrite 0 2) (machine ((up []).setReg .pitchSeal 1 0)) with
    | .next t => t.dev.reg .pitchSeal
    | _ => 0) = 3 := by decide +kernel

/-- R394: the loss of heartbeats moves the role to the other half. -/
theorem test_heartbeatLoss :
    (match exec (.halfHeartbeatLoss false) (machine (up [])) with
    | .next t => t.dev.ic
    | _ => 0) = 1 := by decide +kernel

/-- R399: of the codes 0b011 and 0b111 the lower state is the device's. -/
theorem test_lifecycle : dieStateOf 3 7 = 2 ∧ dieStateOf 7 7 = 3 ∧ dieStateOf 1 2 = 0 := by decide

/-- R118: two windows that match the address stop the arrival. -/
theorem test_twoWindows :
    (match exec (.tlpIngress 496 { kind := .mrd, len := 4 } false {}) (machine twoWindows) with
    | .fault f => decide (f = .twoWindows)
    | _ => false) = true := by decide +kernel

/-- R44: a code error on the second lane of a port is counted there alone. -/
theorem test_codeErrors :
    (let d := (port 1).codeErrors 496 [0, 1]
     (d.reg .laneCodeErr 31 0, d.reg .laneCodeErr 31 1)) = (0, 1) := by decide +kernel

/-- R140: a chunk with its five check symbols has a syndrome of zero at each root of the code, and with one symbol changed at none. -/
theorem test_rsCheck :
    (let c := rsCodeword ((List.range 64).map (BitVec.ofNat 8));
      c.length = 69 ∧ (List.range 5).map (fun k => rsSyndrome k c) = [0, 0, 0, 0, 0]
        ∧ (List.range 5).all (fun k => rsSyndrome k (c.set 7 0) != 0) = true) := by decide +kernel

/-- R374: the sixteenth pulse behind an outstanding request is lost and sets CDC_OVF with its domain. -/
theorem test_pulseOverflow :
    (let d := (stalled 15).raisePulse 511 0;
      d.b F.CLK_STATUS_CDC_OVF 1 = true ∧ d.f F.CLK_STATUS_OVF_DOMAIN 1 = 191 ∧ ((stalled 14).raisePulse 511 0).b F.CLK_STATUS_CDC_OVF 1 = false) := by
  decide +kernel

/-- R443: at Test-Logic-Reset each die's instruction register selects BYPASS; in Shift-DR a bit takes a TCK cycle for each die. -/
theorem test_bypass :
    (let go (d : Dev) (l : List (Bool × Bool)) : Dev := l.foldl (fun d x => d.tck x.1 x.2) d;
      let d := go (up []) [(true, false), (false, false), (true, false), (false, false), (false, false)];
      d.jtag.w.ir = 0xFF ∧ d.jtag.w.st = .shiftDr ∧ d.jtag.w.sr = [false] ∧ (d.tck false true).jtag.w.sr = [true]
        ∧ ((d.tck false true).tck false false).jtag.e.sr = [true]) := by decide +kernel

/-- R8: a write that sets an RSV bit stops. -/
theorem test_rsvWrite :
    (match exec (.gateEnable 0) (machine (up [])), exec (.sbCtlWrite 0 0xFFFFFFFF) (machine (up [])) with
    | .next _, .fault f => decide (f = .rsvWrite)
    | _, _ => false) = true := by decide +kernel

end Sys2Proof.Tests
end

section
/-! SUPPORT. Rows and lanes: what a write of LANE_PRBS_CTL does on an idle lane and on any other (R70), and what a message of the
sparing exchange leaves alone (R60, R66). -/

namespace Sys2Proof.Machine

/-! ### Bits -/

/-- A field of one bit is that bit of its register. -/
theorem Dev.b_eq_getLsbD (d : Dev) (f : Fld) (i j : Nat) (hw : f.w = 1) : d.b f i j = (d.reg f.kind i j).getLsbD f.lo := by
  have hbit := testBit_getBits (d.reg f.kind i j) f.lo 1 0
  have hlt : getBits (d.reg f.kind i j) f.lo 1 < 2 := Nat.mod_lt _ (by decide)
  unfold Dev.b Dev.f
  rw [hw, Bool.eq_iff_iff, decide_eq_true_iff]
  simp only [Nat.testBit_zero, Nat.zero_lt_one, decide_true, Bool.true_and, Nat.add_zero] at hbit
  rw [← hbit, decide_eq_true_iff]
  omega

/-- A field with a bit set is not zero. -/
theorem getBits_ne_zero (v : Word) (lo w k : Nat) (hk : k < w) (h : v.getLsbD (lo + k) = true) : getBits v lo w ≠ 0 := by
  intro h0
  have hbit := testBit_getBits v lo w k
  rw [h0, Nat.zero_testBit, h, decide_eq_true hk] at hbit
  cases hbit

/-- A write of a 32-bit register that sets one of its two lowest bits names a lowest field of two bits that is not zero. -/
theorem getBits_zeroExtend_ne_zero (v : BitVec 32) (h : v.getLsbD 0 = true ∨ v.getLsbD 1 = true) :
    getBits (v.zeroExtend 64) 0 2 ≠ 0 := by
  rcases h with h | h
  · exact getBits_ne_zero _ 0 2 0 (by decide) (by simpa using h)
  · exact getBits_ne_zero _ 0 2 1 (by decide) (by simpa using h)

/-! ### LANE_PRBS_CTL (R70-R72) -/

/-- A lane is idle for PRBS by its Row's SPARE_EN if it is the spare, by its port's EN if not (R70). -/
theorem Dev.prbsOk_eq_false (d : Dev) (r m : Nat) :
    d.prbsOk r m = false ↔
      if m = 16 then d.b F.ROW_SPARE_CTL_SPARE_EN r = true else d.b F.PORT_CTL_EN (d.portOfLane r m) = true := by
  unfold Dev.prbsOk
  split <;> simp

theorem Dev.prbsOk_eq_true (d : Dev) (r m : Nat) :
    d.prbsOk r m = true ↔
      if m = 16 then d.b F.ROW_SPARE_CTL_SPARE_EN r = false else d.b F.PORT_CTL_EN (d.portOfLane r m) = false := by
  unfold Dev.prbsOk
  split <;> simp

@[simp] theorem Dev.reg_prbsInject (d : Dev) (r m : Nat) (k : RegKind) (i j : Nat) : (d.prbsInject r m).reg k i j = d.reg k i j := by
  unfold Dev.prbsInject
  split <;> rfl

/-- The internal error bit is part of ERR_STATUS alone. -/
theorem Dev.reg_intErr_ne (d : Dev) (b : Nat) (k : RegKind) (i j : Nat) (h : k ≠ .errStatus) : (d.intErr b).reg k i j = d.reg k i j :=
  d.reg_setB_ne F.ERR_STATUS_INT_ERR true b 0 k i j (.inl h)

/-- A write that would set TX_EN or RX_EN on a lane in use is discarded (R70). -/
theorem Dev.wrPrbs_discarded (d : Dev) (r m : Nat) (v : Word) (hv : getBits v 0 2 ≠ 0) (h : d.prbsOk r m = false) :
    d.wrPrbs r m v = d.intErr r := if_pos ⟨hv, h⟩

/-- A write on an idle lane changes no register but the lane's LANE_PRBS_CTL and LANE_PRBS_ERR. -/
theorem Dev.reg_wrPrbs_kind (d : Dev) (r m : Nat) (v : Word) (h : d.prbsOk r m = true) (k : RegKind) (i j : Nat)
    (hc : k ≠ .lanePrbsCtl) (he : k ≠ .lanePrbsErr) : (d.wrPrbs r m v).reg k i j = d.reg k i j := by
  unfold Dev.wrPrbs
  rw [if_neg (by simp [h])]
  dsimp only
  split <;> split <;> simp only [Dev.reg_prbsInject, Dev.reg_setReg_kind, hc, he, ne_eq, not_false_eq_true]

/-- On an idle lane LANE_PRBS_CTL takes the stored bits of what is written; LOCKED is the device's own bit 7. -/
theorem Dev.reg_wrPrbs_same (d : Dev) (r m : Nat) (v : Word) (h : d.prbsOk r m = true) :
    (d.wrPrbs r m v).reg .lanePrbsCtl r m =
      (v &&& 0x3E3F) ||| (if d.b F.LANE_PRBS_CTL_LOCKED r m && getBits v 1 1 == 1 then 0x80 else 0) := by
  have hk : RegKind.lanePrbsCtl ≠ .lanePrbsErr := by decide
  unfold Dev.wrPrbs
  rw [if_neg (by simp [h])]
  dsimp only
  split <;> split <;> simp only [Dev.reg_prbsInject, Dev.reg_setReg_kind _ _ _ _ _ _ _ _ hk, Dev.reg_setReg_same]

/-- TX_EN and RX_EN, bits 0 and 1, are written on an idle lane as they come (R70). -/
theorem Dev.wrPrbs_enable (d : Dev) (r m : Nat) (v : Word) (h : d.prbsOk r m = true) (n : Nat) (hn : n < 2) :
    ((d.wrPrbs r m v).reg .lanePrbsCtl r m).getLsbD n = v.getLsbD n := by
  rw [d.reg_wrPrbs_same r m v h, BitVec.getLsbD_or, BitVec.getLsbD_and]
  interval_cases n <;> split <;> simp

/-- A write of LANE_PRBS_CTL that is let through. -/
theorem exec_lanePrbsCtlWrite (s : State) (r : Fin 32) (m : Fin 17) (v : BitVec 32) (h : s.dev.takes ⟨.lanePrbsCtl, r, m⟩)
    (hv : v.zeroExtend 64 &&& RegKind.lanePrbsCtl.info.rsv = 0) :
    exec (.lanePrbsCtlWrite r m v) s = .next (s.after (s.dev.wrPrbs r m (v.zeroExtend 64)).twinUpdate) :=
  s.write32_takes ⟨.lanePrbsCtl, r, m⟩ v h hv

/-- Settles O40: a write on a lane in use sets INT_ERR and nothing else; one on an idle lane takes TX_EN and RX_EN. -/
theorem prbsOnlyOnIdleLanes : Obligations.PrbsOnlyOnIdleLanes := by
  unfold Obligations.PrbsOnlyOnIdleLanes
  intro s r m v htakes hrsv hset
  have hstep := exec_lanePrbsCtlWrite s r m v htakes hrsv
  constructor
  · intro huse
    rw [s.dev.wrPrbs_discarded r m _ (getBits_zeroExtend_ne_zero v hset) ((s.dev.prbsOk_eq_false r m).2 huse)] at hstep
    refine ⟨_, hstep, ?_, fun k i j hk => ?_⟩
    · have hint : (s.dev.intErr r).b F.ERR_STATUS_INT_ERR r = true := s.dev.b_setB_same _ true r 0 rfl (by decide)
      rw [Dev.b_eq_getLsbD _ _ _ _ rfl] at hint ⊢
      exact (s.afterTwin_errBit _ r _ (by decide)).trans hint
    · rw [s.afterTwin_reg _ k i j hk, s.dev.reg_intErr_ne r k i j (fun e => by rw [e] at hk; cases hk)]
  · intro hidle
    have hok := (s.dev.prbsOk_eq_true r m).2 hidle
    refine ⟨_, hstep, ?_, ?_, fun k i j hc he hk => ?_⟩
    · rw [s.afterTwin_b _ _ r m rfl, Dev.b_eq_getLsbD _ _ _ _ rfl]
      exact (s.dev.wrPrbs_enable r m _ hok 0 (by decide)).trans (by simp)
    · rw [s.afterTwin_b _ _ r m rfl, Dev.b_eq_getLsbD _ _ _ _ rfl]
      exact (s.dev.wrPrbs_enable r m _ hok 1 (by decide)).trans (by simp)
    · rw [s.afterTwin_reg _ k i j hk, s.dev.reg_wrPrbs_kind r m _ hok k i j hc he]

/-! ### The sparing exchange (R60, R66) -/

/-- Sending on fabric ports changes no register. -/
theorem Dev.sendsOnly_reg {d t : Dev} (h : d.sendsOnly t) (k : RegKind) (i j : Nat) : t.reg k i j = d.reg k i j := by
  obtain ⟨n, l, o, rfl⟩ := h
  rfl

/-- Taking a message of the sparing exchange in sends the acknowledgement and the credit of its flit, and nothing else (R60, R206). -/
theorem Dev.sends_spareIn (d : Dev) (r : Nat) : d.sendsOnly (d.spareIn r) := by
  unfold Dev.spareIn Dev.ctlFreed Dev.flitsTaken
  dsimp only
  split
  · exact Dev.sends_trans (Dev.sends_trans (d.sends_setNerup _ _) (Dev.sends_sendIdle _ _ _)) (Dev.sends_sendCredit _ _ _ _ _)
  · exact d.sends_refl

/-- On a PCIe link no flit brings the message (R60). -/
theorem Dev.spareIn_of_role_ne (d : Dev) (r : Nat) (h : d.role (d.spareOwner r) ≠ 2) : d.spareIn r = d := by
  have hrole : (d.role (d.spareOwner r) == 2) = false := beq_eq_false_iff_ne.2 h
  unfold Dev.spareIn Dev.hearsFlits Dev.isFabric
  simp [hrole]

/-- On a PCIe link a message of the exchange leaves as a DLLP (R59). -/
theorem Dev.sendSpare_of_role_ne (d : Dev) (r : Nat) (m : SpareMsg) (h : d.role (d.spareOwner r) ≠ 2) :
    d.sendSpare r m = d.emit (.spare r m) := if_neg h

/-- A SPARE_REQ that shadow training cannot meet is answered with SPARE_NAK (R66). -/
theorem exec_spareReq_nak (s : State) (r : Fin 32) (lane : Fin 16) (flit : BitVec 10) (hav : s.dev.spareAvail r = true)
    (hlane : (s.dev.laneFor (s.dev.spareOwner r) lane).isSome = true) (htx : s.dev.txSpare r ≠ 2) :
    exec (.spareReq r lane flit) s = .next (s.after ((s.dev.spareIn r).sendSpare r (.nak lane))) := by
  show execSpareReq r lane flit s = _
  simp [execSpareReq, hav, hlane, htx]

/-- What the receiver of a SPARE_NAK records: PARTNER_NAK and SPARE_MISSED, its request withdrawn, RX_STATE READY (log 109). -/
def Dev.spareRefused (d : Dev) (r : Nat) : Dev :=
  (((d.setF F.ROW_SPARE_STATUS_RX_STATE 3 r).setB F.ROW_SPARE_STATUS_PARTNER_NAK true r).setB
    F.ROW_SPARE_STATUS_SPARE_MISSED true r).setF F.ROW_SPARE_STATUS_RX_SUBST_LANE 0 r

/-- The SPARE_NAK of the exchange under way. -/
theorem exec_spareNak (s : State) (r : Fin 32) (lane : Fin 16) (hrx : s.dev.rxSpare r = 4)
    (hlane : s.dev.f F.ROW_SPARE_STATUS_RX_SUBST_LANE r = lane) :
    exec (.spareNak r lane) s = .next (s.after ((s.dev.spareIn r).spareRefused r)) :=
  congrArg s.done (if_pos ⟨hrx, hlane⟩)

theorem Dev.spareRefused_partnerNak (d : Dev) (r : Nat) : (d.spareRefused r).b F.ROW_SPARE_STATUS_PARTNER_NAK r = true := by
  unfold Dev.spareRefused
  rw [Dev.b_setF_other _ _ _ _ _ _ _ _ (by decide) (by decide), Dev.b_setB_other _ _ _ _ _ _ _ _ (by decide) (by decide),
    Dev.b_setB_same _ _ _ _ _ rfl (by decide)]

theorem Dev.spareRefused_spareMissed (d : Dev) (r : Nat) : (d.spareRefused r).b F.ROW_SPARE_STATUS_SPARE_MISSED r = true := by
  unfold Dev.spareRefused
  rw [Dev.b_setF_other _ _ _ _ _ _ _ _ (by decide) (by decide), Dev.b_setB_same _ _ _ _ _ rfl (by decide)]

theorem Dev.spareRefused_rxState (d : Dev) (r : Nat) : (d.spareRefused r).f F.ROW_SPARE_STATUS_RX_STATE r = 3 := by
  unfold Dev.spareRefused
  rw [Dev.f_setF_other _ _ _ _ _ _ _ _ (by decide) (by decide), Dev.f_setB_other _ _ _ _ _ _ _ _ (by decide) (by decide),
    Dev.f_setB_other _ _ _ _ _ _ _ _ (by decide) (by decide), Dev.f_setF_same _ _ _ _ _ (by decide)]
  rfl

/-- No register but the Row's ROW_SPARE_STATUS records the refusal. -/
theorem Dev.reg_spareRefused_ne (d : Dev) (r : Nat) (k : RegKind) (i j : Nat) (h : k ≠ .rowSpareStatus ∨ i ≠ r) :
    (d.spareRefused r).reg k i j = d.reg k i j := by
  have h' : k ≠ .rowSpareStatus ∨ i ≠ r ∨ j ≠ 0 := h.imp_right .inl
  unfold Dev.spareRefused
  rw [Dev.reg_setF_ne _ _ _ _ _ _ _ _ h', Dev.reg_setB_ne _ _ _ _ _ _ _ _ h', Dev.reg_setB_ne _ _ _ _ _ _ _ _ h',
    Dev.reg_setF_ne _ _ _ _ _ _ _ _ h']

/-- Settles O41: the transmitter's SPARE_NAK, and what it makes the receiver record in ROW_SPARE_STATUS and nowhere else. That a device whose
negotiation timed out answers too, and that RX_STATE is READY afterwards, is the model's choice (logs 108 and 109). -/
theorem spareNakKeepsTheLane : Obligations.SpareNakKeepsTheLane := by
  unfold Obligations.SpareNakKeepsTheLane
  intro s r lane
  constructor
  · intro flit hav hlane htx
    refine ⟨exec_spareReq_nak s r lane flit hav hlane htx, fun hrole => ?_⟩
    rw [s.dev.spareIn_of_role_ne r hrole, s.dev.sendSpare_of_role_ne r _ hrole]
  · intro hrx hlane
    refine ⟨_, exec_spareNak s r lane hrx hlane, ?_, ?_, ?_, fun k i j hne hk => ?_⟩
    · rw [s.after_b _ _ r 0 rfl, Dev.spareRefused_partnerNak]
    · rw [s.after_b _ _ r 0 rfl, Dev.spareRefused_spareMissed]
    · exact (s.after_f _ F.ROW_SPARE_STATUS_RX_STATE r 0 rfl).trans (Dev.spareRefused_rxState _ r)
    · rw [s.after_reg _ k i j hk, Dev.reg_spareRefused_ne _ r k i j hne, Dev.sendsOnly_reg (s.dev.sends_spareIn r)]

end Sys2Proof.Machine
end

section
/-! SUPPORT. Signboard chains: when a write of SB_CTL is discarded (R97). -/

namespace Sys2Proof.Machine

/-- A port whose slot is enabled is among the 256 ports of its half that a write of SB_CTL looks at. -/
theorem Dev.any_slotEn_of_half (d : Dev) (h p : Nat) (hp : p / 256 = h) (hen : d.slotEn p = true) :
    (List.range 256).any (fun k => d.slotEn (256 * h + k)) = true := by
  have hport : 256 * h + p % 256 = p := hp ▸ Nat.div_add_mod p 256
  exact List.any_eq_true.2 ⟨p % 256, List.mem_range.2 (Nat.mod_lt _ (by decide)), by rwa [hport]⟩

/-- A write that moves EN, DIV or LENGTH, bits 13:0, while a slot of the half is enabled sets SB_CFG_ERR and does nothing else (R97). -/
theorem Dev.wrSbCtl_discarded (d : Dev) (h : Nat) (v : Word) (hmoved : getBits (d.reg .sbCtl h) 0 14 ≠ getBits v 0 14)
    (hslots : (List.range 256).any (fun k => d.slotEn (256 * h + k)) = true) :
    d.wrSbCtl h v = d.setB F.SB_CTL_SB_CFG_ERR true h :=
  if_pos (by rw [decide_eq_true hmoved, hslots]; rfl)

/-- A write of SB_CTL that is let through. -/
theorem exec_sbCtlWrite (s : State) (h : Fin 2) (v : BitVec 32) (htakes : s.dev.takes ⟨.sbCtl, h, 0⟩)
    (hrsv : v.zeroExtend 64 &&& RegKind.sbCtl.info.rsv = 0) :
    exec (.sbCtlWrite h v) s = .next (s.after (s.dev.wrSbCtl h (v.zeroExtend 64)).twinUpdate) :=
  s.write32_takes ⟨.sbCtl, h, 0⟩ v htakes hrsv

/-- Settles O42: the enabled slot is one of its half's, so the write that would move bits 13:0 is discarded. -/
theorem sbCtlHoldsWhileSlotsAreEnabled : Obligations.SbCtlHoldsWhileSlotsAreEnabled := by
  unfold Obligations.SbCtlHoldsWhileSlotsAreEnabled
  intro s h v p htakes hrsv hhalf hen hmoved
  have hslots := s.dev.any_slotEn_of_half h p hhalf hen
  rw [exec_sbCtlWrite s h v htakes hrsv, s.dev.wrSbCtl_discarded h _ hmoved.symm hslots]

end Sys2Proof.Machine
end

section
/-! SUPPORT. The whole machine: what a step keeps of the error blocks, the fuses and the queue, and what a cold reset leaves. -/

namespace Sys2Proof.Machine

/-! ### Every step in one of four forms -/

/-- A step answers in one of the forms of a command, with the command at the front taken from the queue. -/
theorem step_form (s t : State) (h : step s = .next t) : ∃ l : List Instr, State.Form { s with pending := l } t := by
  unfold step at h
  split at h
  · next c rest _ => exact ⟨rest, exec_answers c { s with pending := rest } t h⟩
  · exact ⟨s.pending, s.answers_doneOr _ t h⟩

theorem State.after_settled (s : State) (d : Dev) : (s.after d).dev.settled := by
  rw [State.after_dev]
  exact Dev.settle_settled _

theorem State.cold_settled (s : State) (last : Nat) (d : Dev) : (s.cold last d).dev.settled := by
  unfold State.cold
  split <;> exact Dev.cold_settled _ last

/-- Error reporting follows every effect on the device, a cold reset leaves no block signalling, and free values are no part of a
condition. -/
theorem State.Form.settled {s t : State} (h : s.Form t) (hs : s.dev.settled) : t.dev.settled := by
  rcases h with ⟨d, rfl⟩ | ⟨n, rfl⟩ | ⟨last, d, rfl, -⟩ | ⟨d, -, rfl⟩
  · exact s.after_settled d
  · exact hs
  · exact s.cold_settled last d
  · exact State.after_settled _ d

/-- Settles O30: each of the four forms of a step leaves every error block settled. -/
theorem errorBlocksStaySettled : Obligations.ErrorBlocksStaySettled := by
  unfold Obligations.ErrorBlocksStaySettled
  intro s t hs hstep
  obtain ⟨l, hform⟩ := step_form s t hstep
  exact hform.settled hs

/-- Fuses change in a burn alone, and burning clears no bit (R399, R401). -/
theorem State.Form.fuses {s t : State} (h : s.Form t) :
    s.fuses.keeps t.fuses ∧ (s.dev.b F.LC_CTL_BUSY = false → t.fuses = s.fuses) := by
  rcases h with ⟨d, rfl⟩ | ⟨n, rfl⟩ | ⟨last, d, rfl, hbusy⟩ | ⟨d, hbusy, rfl⟩
  · rw [State.after_fuses]
    exact ⟨FuseSt.keeps_refl _, fun _ => rfl⟩
  · exact ⟨FuseSt.keeps_refl _, fun _ => rfl⟩
  · rw [← hbusy]
    exact s.cold_fuses last d
  · rw [State.after_fuses]
    exact ⟨FuseSt.keeps_burn _ _ _, fun hidle => absurd hbusy (by simp [hidle])⟩

/-- Settles O32: each of the four forms of a step keeps the fuses, but for a burn under way. -/
theorem fusesOnlyBurn : Obligations.FusesOnlyBurn := by
  unfold Obligations.FusesOnlyBurn
  intro s t hstep
  obtain ⟨l, hform⟩ := step_form s t hstep
  exact hform.fuses

theorem State.Form.pending {s t : State} (h : s.Form t) : t.pending = s.pending := by
  rcases h with ⟨d, rfl⟩ | ⟨n, rfl⟩ | ⟨last, d, rfl, -⟩ | ⟨d, -, rfl⟩
  · exact s.after_pending d
  · rfl
  · exact s.cold_pending last d
  · exact State.after_pending _ d

/-- Settles O3: none of the four forms of an answer touches the queue. -/
theorem commandsKeepTheQueue : Obligations.CommandsKeepTheQueue := by
  unfold Obligations.CommandsKeepTheQueue
  intro s t c hexec
  exact (exec_answers c s t hexec).pending

/-- Settles O1. -/
theorem stepRunsFrontCommand : Obligations.StepRunsFrontCommand := by
  unfold Obligations.StepRunsFrontCommand
  intro s c rest hq
  unfold step
  rw [hq]

end Sys2Proof.Machine
end

section
/-! SUPPORT. What a cold reset leaves of the device (R386, R387; log 105). -/

namespace Sys2Proof.Machine

/-- A device with no register away from its reset value reads reset values. -/
theorem Dev.reg_of_regs_nil (d : Dev) (h : d.regs = []) (k : RegKind) (i j : Nat) : d.reg k i j = RegId.reset ⟨k, i, j⟩ := by
  unfold Dev.reg
  rw [h, Store.get_nil]

/-- A register set to its reset value in a device that holds no other value is not listed. -/
theorem Dev.setReg_reset (d : Dev) (h : d.regs = []) (k : RegKind) (i j : Nat) : d.setReg k (RegId.reset ⟨k, i, j⟩) i j = d := by
  unfold Dev.setReg Store.set
  rw [if_pos rfl, h]
  show ({ d with regs := [] } : Dev) = d
  rw [← h]

/-- What a cold reset keeps: outputs handed out, the model's own counts, the TAPs, the levels of the pins. -/
def Dev.coldKept (d : Dev) (o : List Out) : Dev :=
  { out := o, free := d.free, bindCount := d.bindCount, jtag := d.jtag
    rst := { perstLow := d.rst.perstLow, supplies := d.rst.supplies, vddIo := d.rst.vddIo, testMode := d.rst.testMode } }

/-- Cause 0 is the reset value of RESET_STATUS.LAST: a cold reset by PERST_IN_N leaves every register at its reset value. -/
theorem Dev.coldReset_zero (d : Dev) : ∃ o : List Out, d.coldReset 0 = d.coldKept o := by
  have hlast : ∀ o : List Out, (d.coldKept o).setF F.RESET_STATUS_LAST 0 = d.coldKept o := fun o => by
    have hword : putBits (RegId.reset ⟨.resetStatus, 0, 0⟩) 0 3 0 = RegId.reset ⟨.resetStatus, 0, 0⟩ := by decide
    unfold Dev.setF
    rw [Dev.reg_of_regs_nil _ rfl]
    exact (congrArg (fun w => Dev.setReg _ .resetStatus w 0 0) hword).trans (Dev.setReg_reset _ rfl .resetStatus 0 0)
  exact ⟨_, hlast _⟩

/-- The device after PERST_IN_N is taken low: the cold reset's, with the pin low. -/
theorem State.perstTaken_dev (s : State) : ∃ (o : List Out) (n : Nat), s.perstTaken.dev =
    Dev.coldKept { s.dev with free := n, rst := { s.dev.rst with perstLow := true } } o := by
  unfold State.perstTaken State.cold
  split
  · obtain ⟨o, ho⟩ := Dev.coldReset_zero (Dev.useFree { s.dev with rst := { s.dev.rst with perstLow := true } } 1)
    exact ⟨o, _, ho⟩
  · obtain ⟨o, ho⟩ := Dev.coldReset_zero { s.dev with rst := { s.dev.rst with perstLow := true } }
    exact ⟨o, _, ho⟩

/-- Settles O34: the device that a low of PERST_IN_N leaves is the reset one, with what a cold reset keeps. -/
theorem coldResetResetsEverything : Obligations.ColdResetResetsEverything := by
  unfold Obligations.ColdResetResetsEverything
  intro s hhigh
  obtain ⟨o, n, hdev⟩ := s.perstTaken_dev
  refine ⟨s.perstTaken, ?_, s.cold_pending 0 _, fun k i j => ?_, ?_, ?_, ?_,
    (s.cold_fuses 0 { s.dev with rst := { s.dev.rst with perstLow := true } }).2, ?_⟩
  · show execPerstInAssert .long s = _
    simp only [execPerstInAssert, hhigh]
  · rw [hdev]
    exact Dev.reg_of_regs_nil _ rfl k i j
  all_goals rw [hdev]; rfl

/-- Settles O31: nothing signals in the reset state, which is what a cold reset of it leaves. -/
theorem resetIsSettled : Obligations.ResetIsSettled := by
  unfold Obligations.ResetIsSettled
  intro b hb
  refine (Dev.irq_false State.reset.dev b ?_ rfl).2.trans (Dev.irq_false State.reset.dev b ?_ rfl).1.symm <;>
  · unfold Dev.event Dev.levelEvent
    show (false || (decide (b < 32) && false) || (b == 87 && false)) = false
    simp

/-- The domains that reset leaves OFF are the switched ones, below 206. -/
theorem State.reset_domain (n : Nat) (h : n < 206) :
    State.reset.dev.power n = 0 ∧ State.reset.dev.b F.DOMAIN_CTL_PWR_EN n = false ∧ State.reset.dev.b F.DOMAIN_CTL_CLK_EN n = true := by
  have hctl : State.reset.dev.reg .domainCtl n = 2 := by
    rw [Dev.reg_of_regs_nil _ rfl]
    simp [RegId.reset, Nat.not_le.2 h, RegKind.info]
  have hstate : State.reset.dev.reg .domainState n = RegKind.domainState.info.reset := by
    rw [Dev.reg_of_regs_nil _ rfl]
    simp [RegId.reset, Nat.not_le.2 h]
  unfold Dev.power Dev.b Dev.f
  refine ⟨?_, ?_, ?_⟩
  · rw [show F.DOMAIN_STATE_POWER.kind = .domainState from rfl, hstate]
    decide
  · rw [show F.DOMAIN_CTL_PWR_EN.kind = .domainCtl from rfl, hctl]
    decide
  · rw [show F.DOMAIN_CTL_CLK_EN.kind = .domainCtl from rfl, hctl]
    decide

/-- No slot power channel is driven or enabled. -/
theorem State.reset_channel (n : Nat) : State.reset.dev.spcState n = 0 ∧ State.reset.dev.b F.SPC_CFG_EN n = false := by
  have hcfg : State.reset.dev.reg .spcCfg n = RegKind.spcCfg.info.reset := rfl
  refine ⟨rfl, ?_⟩
  unfold Dev.b Dev.f
  rw [show F.SPC_CFG_EN.kind = .spcCfg from rfl, hcfg]
  decide

/-- Settles O33: no register, dword or word is listed in the reset state, so each reads its reset value. -/
theorem resetState : Obligations.ResetState := by
  unfold Obligations.ResetState
  exact ⟨rfl, rfl, fun k i j => Dev.reg_of_regs_nil _ rfl k i j, fun _ _ => rfl, State.reset_domain,
    fun n _ => State.reset_channel n, rfl, rfl⟩

end Sys2Proof.Machine
end

section
/-! SUPPORT. Registers on the register path: what a write stores (R7, R252, R416), what an unused port slot answers (R38), and what becomes of a
32-bit write by the state of its block and of the request slots (R21, R339, R405). -/

namespace Sys2Proof.Machine

/-! ### Storing by access type (R7) -/

/-- A bit is stored by one rule alone: no W1C or W1S bit is RW or RWS, and no W1C bit is W1S. -/
theorem RegKind.access_disjoint (k : RegKind) :
    (k.info.rw ||| k.info.rws) &&& (k.info.w1c ||| k.info.w1s) = 0 ∧ k.info.w1c &&& k.info.w1s = 0 := by
  cases k <;> exact ⟨rfl, rfl⟩

/-- No bit of a word is set in two words that have no bit in common. -/
theorem getLsbD_disjoint {a b : Word} (h : a &&& b = 0) (n : Nat) : (a.getLsbD n && b.getLsbD n) = false := by
  rw [← BitVec.getLsbD_and, h]
  simp

/-- The word that a write stores. -/
theorem Dev.reg_storeReg_same (d : Dev) (r : RegId) (v : Word) : (d.storeReg r v).reg r.kind r.i r.j =
    (((d.reg r.kind r.i r.j &&& ~~~(r.kind.info.rw ||| r.kind.info.rws)) ||| (v &&& (r.kind.info.rw ||| r.kind.info.rws)))
      &&& ~~~(v &&& r.kind.info.w1c)) ||| (v &&& r.kind.info.w1s) :=
  d.reg_setReg_same r.kind _ r.i r.j

theorem Dev.reg_storeReg_ne (d : Dev) (r : RegId) (v : Word) (k : RegKind) (i j : Nat) (h : (⟨k, i, j⟩ : RegId) ≠ r) :
    (d.storeReg r v).reg k i j = d.reg k i j :=
  d.reg_setReg_ne r.kind k _ r.i r.j i j h

/-- A stored bit, by the masks of its register. -/
theorem Dev.storeReg_bit (d : Dev) (r : RegId) (v : Word) (n : Nat) (hn : n < 64) :
    ((d.storeReg r v).reg r.kind r.i r.j).getLsbD n =
      ((((d.reg r.kind r.i r.j).getLsbD n && !(r.kind.info.rw.getLsbD n || r.kind.info.rws.getLsbD n))
          || (v.getLsbD n && (r.kind.info.rw.getLsbD n || r.kind.info.rws.getLsbD n)))
        && !(v.getLsbD n && r.kind.info.w1c.getLsbD n) || (v.getLsbD n && r.kind.info.w1s.getLsbD n)) := by
  rw [d.reg_storeReg_same r v]
  simp only [BitVec.getLsbD_or, BitVec.getLsbD_and, BitVec.getLsbD_not, hn, decide_true, Bool.true_and]

/-- Settles O35: the masks of a register are disjoint, so each bit follows the one rule of its access type. -/
theorem storedByAccessType : Obligations.StoredByAccessType := by
  unfold Obligations.StoredByAccessType
  intro d r v
  refine ⟨fun n hn => ?_, fun k i j => d.reg_storeReg_ne r v k i j⟩
  obtain ⟨hstore, hclear⟩ := r.kind.access_disjoint
  have h1 := getLsbD_disjoint hstore n
  have h2 := getLsbD_disjoint hclear n
  have hbit := d.storeReg_bit r v n hn
  simp only [BitVec.getLsbD_or] at h1 ⊢
  rw [hbit]
  clear hbit
  generalize r.kind.info.rw.getLsbD n = rw, r.kind.info.rws.getLsbD n = rws, r.kind.info.w1c.getLsbD n = w1c,
    r.kind.info.w1s.getLsbD n = w1s, (d.reg r.kind r.i r.j).getLsbD n = old, v.getLsbD n = new at *
  revert rw rws w1c w1s old new
  decide

/-! ### Counters (R416) -/

/-- Settles O36: the sum is capped at 48 bits before it is stored. -/
theorem countersSaturate : Obligations.CountersSaturate := by
  unfold Obligations.CountersSaturate
  intro d k n i j
  unfold Dev.inc
  rw [d.reg_setReg_same, BitVec.toNat_ofNat, Nat.mod_eq_of_lt (by omega)]
  unfold getBits
  rw [Nat.shiftRight_zero]

/-! ### Seals (R252) -/

/-- A register that is W1S in every bit takes the bits of a write beside those it holds. -/
theorem Dev.reg_storeReg_w1s (d : Dev) (r : RegId) (v : Word) (h : r.kind.info.w1s = 0xFFFFFFFFFFFFFFFF) :
    (d.storeReg r v).reg r.kind r.i r.j = d.reg r.kind r.i r.j ||| v := by
  obtain ⟨hstore, hclear⟩ := r.kind.access_disjoint
  apply BitVec.eq_of_getLsbD_eq
  intro n hn
  have h1 := getLsbD_disjoint hstore n
  have h2 := getLsbD_disjoint hclear n
  have hset : r.kind.info.w1s.getLsbD n = true := by
    rw [h, show (0xFFFFFFFFFFFFFFFF : Word) = BitVec.allOnes 64 from rfl, BitVec.getLsbD_allOnes, decide_eq_true hn]
  simp only [BitVec.getLsbD_or, hset, Bool.or_true, Bool.and_true, Bool.or_eq_false_iff] at h1 h2
  rw [d.storeReg_bit r v n hn, h1.1, h1.2, h2, hset, BitVec.getLsbD_or]
  simp

/-- A write of PITCH_SEAL that is let through. -/
theorem exec_sealWrite_pitch (s : State) (v : Word) (h : s.dev.takes ⟨.pitchSeal, 0, 0⟩) (hv : v &&& RegKind.pitchSeal.info.rsv = 0) :
    exec (.sealWrite 0 v) s = .next (s.after (s.dev.storeReg ⟨.pitchSeal, 0, 0⟩ v).twinUpdate) :=
  s.write64_takes ⟨.pitchSeal, 0, 0⟩ v rfl h hv

/-- A write of WIN_SEAL that is let through. -/
theorem exec_sealWrite_win (s : State) (k : Fin 2) (v : Word) (h : s.dev.takes ⟨.winSeal, k, 0⟩) (hv : v &&& RegKind.winSeal.info.rsv = 0) :
    exec (.sealWrite k.succ v) s = .next (s.after (s.dev.storeReg ⟨.winSeal, k, 0⟩ v).twinUpdate) := by
  refine Eq.trans ?_ (s.write64_takes ⟨.winSeal, k, 0⟩ v rfl h hv)
  fin_cases k <;> rfl

/-- Settles O39: each seal register is W1S in every bit, and a write of it stores nothing else. -/
theorem sealsAreOnlySet : Obligations.SealsAreOnlySet := by
  unfold Obligations.SealsAreOnlySet
  intro s v
  constructor
  · intro htakes hrsv
    refine ⟨_, exec_sealWrite_pitch s v htakes hrsv, ?_, fun k i j hk hrep => ?_⟩
    · rw [s.afterTwin_reg _ _ _ _ rfl]
      exact s.dev.reg_storeReg_w1s ⟨.pitchSeal, 0, 0⟩ v rfl
    · rw [s.afterTwin_reg _ k i j hrep, s.dev.reg_storeReg_ne _ v k i j (fun e => hk (congrArg RegId.kind e))]
  · intro k htakes hrsv
    refine ⟨_, exec_sealWrite_win s k v htakes hrsv, ?_, fun k' i j hne hrep => ?_⟩
    · rw [s.afterTwin_reg _ _ _ _ rfl]
      exact s.dev.reg_storeReg_w1s ⟨.winSeal, k, 0⟩ v rfl
    · rw [s.afterTwin_reg _ k' i j hrep, s.dev.reg_storeReg_ne _ v k' i j ?_]
      exact fun e => hne.elim (fun hk => hk (congrArg RegId.kind e)) (fun hi => hi (congrArg RegId.i e))

/-! ### Unused port slots (R38) -/

/-- A write of a register of an unused port slot is discarded. -/
theorem State.write_noPort (s : State) (r : RegId) (v : Word) (hgate : s.dev.gateOf .mgmtPf r = .act) (hslot : s.dev.freeSlot.isSome = true)
    (h : s.dev.noPort r = true) : s.write r v = .next (s.after s.dev.twinUpdate) := by
  obtain ⟨k, hk⟩ := Option.isSome_iff_exists.1 hslot
  unfold State.write Dev.regWriteCmd
  simp [hgate, hk, Dev.regMake, Dev.regWrite, h, State.doneReg, State.done]

theorem Dev.noPort_of_form (d : Dev) (r : RegId) (hform : r.kind.info.form = .portSlot) (h : d.isPort r.i = false) : d.noPort r = true := by
  unfold Dev.noPort
  rw [hform, h]
  rfl

/-- Every kind of register of a port slot has the form of one. -/
theorem portSlot_form (k : RegKind) (h : k ∈ RegKind.slotCfg :: .slotState :: portSlotKinds) : k.info.form = .portSlot := by
  have hall : ∀ k ∈ RegKind.slotCfg :: .slotState :: portSlotKinds, k.info.form = .portSlot := by decide
  exact hall k h

/-- Settles O37: an unused port slot's registers take no write and read 0. -/
theorem unusedPortSlotsIgnoreWrites : Obligations.UnusedPortSlotsIgnoreWrites := by
  unfold Obligations.UnusedPortSlotsIgnoreWrites
  intro s p hunused
  refine ⟨fun v hgate hslot => ?_, fun v hgate hslot => ?_, fun off k hi hk htarget => ?_⟩
  · have hnone : s.dev.noPort ⟨.portCtl, p, 0⟩ = true := s.dev.noPort_of_form _ rfl hunused
    exact ⟨s.write_noPort _ _ hgate hslot hnone, s.write_noPort _ _ hgate hslot hnone⟩
  · exact s.write_noPort _ _ hgate hslot (s.dev.noPort_of_form _ rfl hunused)
  · have hnone : s.dev.noPort ⟨k, p, 0⟩ = true := s.dev.noPort_of_form _ (portSlot_form k hk) hunused
    unfold Dev.readTarget targetOf
    simp only [htarget, hnone, if_true]

end Sys2Proof.Machine
end

section
/-! SUPPORT. A 32-bit write on the register path, by the state of its block and of the request slots (R21, R339, R401, R405). -/

namespace Sys2Proof.Machine

/-! ### What lies at an offset -/

/-- A register lies where its kind says. -/
theorem targetMgmt_reg (off : Nat) (r : RegId) (hi : Bool) (h : targetMgmt off = .reg r hi) :
    ∃ k : RegKind, k.hit none off = some (r, hi) := by
  unfold targetMgmt at h
  split at h
  · cases h
  · split at h
    · cases h
    · split at h
      · next r' hi' hfind =>
        obtain ⟨k, -, hk⟩ := List.exists_of_findSome?_eq_some hfind
        cases h
        exact ⟨k, hk⟩
      · cases h

/-- What a kind covers is a register of that kind. -/
theorem RegKind.hit_kind (k : RegKind) (off : Nat) (r : RegId) (hi : Bool) (h : k.hit none off = some (r, hi)) : r.kind = k := by
  unfold RegKind.hit at h
  dsimp only at h
  repeat' split at h
  all_goals cases h
  all_goals rfl

/-- RESET_CTL lies at one dword. -/
theorem targetMgmt_resetCtl (off : Nat) (r : RegId) (hi : Bool) (h : targetMgmt off = .reg r hi) (hk : r.kind = .resetCtl)
    (hoff : off % 4 = 0) : off = RegId.addr ⟨.resetCtl, 0, 0⟩ := by
  obtain ⟨k, hhit⟩ := targetMgmt_reg off r hi h
  have hkind : k = .resetCtl := (k.hit_kind off r hi hhit).symm.trans hk
  subst hkind
  unfold RegKind.hit at hhit
  simp only [RegKind.info] at hhit
  show off = 0x3200000
  split at hhit
  · cases hhit
  · simp at hhit
    omega

theorem targetMgmt_at_resetCtl : targetMgmt (RegId.addr ⟨.resetCtl, 0, 0⟩) = .reg ⟨.resetCtl, 0, 0⟩ false := by
  decide +kernel

/-! ### The access of a 32-bit write -/

/-- A 32-bit write of management PF BAR0. -/
def write32At (off : Nat) (v : Word) : Access := { door := .mgmtPf, bar := .mgmt, off := off, write := true, wide := false, v := v }

/-- A 32-bit access that is aligned covers one dword. -/
theorem write32At_dwords (off : Nat) (v : Word) (h : off % 4 = 0) : (write32At off v).dwords = [off] := by
  have hoff : off / 4 * 4 = off := by omega
  simp [Access.dwords, write32At, Access.bytes, h, hoff]

theorem write32At_not_odd (off : Nat) (v : Word) (h : off % 4 = 0) : (write32At off v).isOdd = false := by
  simp [Access.isOdd, alignedAccess, write32At, Access.bytes, h]

/-- It has its dword's gate. -/
theorem Dev.accessGate_write32At (d : Dev) (off : Nat) (v : Word) (h : off % 4 = 0) :
    d.accessGate (write32At off v) = (d.gateAt .mgmtPf .mgmt off).1 := by
  have hoff : off / 4 * 4 = off := by omega
  unfold Dev.accessGate
  rw [write32At_dwords off v h]
  simp only [write32At, hoff, List.any_cons, List.any_nil, Bool.or_false, beq_iff_eq]
  split
  · next hwait => rw [hwait.2]
  · rfl

/-- With no slot free it waits for one (R405). -/
theorem Dev.request_no_slot (d : Dev) (off : Nat) (v : Word) (h : off % 4 = 0) (hgate : (d.gateAt .mgmtPf .mgmt off).1 ≠ .gone)
    (hslot : d.freeSlot = none) :
    d.request (write32At off v) = .ok { d with mgmt := { d.mgmt with waiting := d.mgmt.waiting ++ [write32At off v] } } := by
  unfold Dev.request
  rw [d.accessGate_write32At off v h]
  simp only [write32At, hgate, hslot, if_false]

/-- On a stopped clock it holds its slot (R21). -/
theorem Dev.request_wait (d : Dev) (off : Nat) (v : Word) (h : off % 4 = 0) (k : Nat) (hgate : (d.gateAt .mgmtPf .mgmt off).1 = .wait)
    (hslot : d.freeSlot = some k) : d.request (write32At off v) =
      .ok { d with mgmt := { d.mgmt with slots := d.mgmt.slots.put none k (some (write32At off v)) } } := by
  unfold Dev.request
  rw [d.accessGate_write32At off v h, hgate]
  simp [write32At, hslot]

/-- With a slot free and its clock running it is made, and answers nothing. -/
theorem Dev.request_made (d : Dev) (off : Nat) (v : Word) (h : off % 4 = 0) (hgone : (d.gateAt .mgmtPf .mgmt off).1 ≠ .gone)
    (hwait : (d.gateAt .mgmtPf .mgmt off).1 ≠ .wait) (hslot : d.freeSlot.isSome = true) :
    d.request (write32At off v) = d.writeDword .mgmtPf .mgmt off (v.truncate 32) := by
  obtain ⟨k, hk⟩ := Option.isSome_iff_exists.1 hslot
  have hoff : off / 4 * 4 = off := by omega
  have hdone : ∀ e : Except Fault Dev, e.bind (fun t => .ok t) = e := fun e => by cases e <;> rfl
  unfold Dev.request
  rw [d.accessGate_write32At off v h]
  simp only [write32At, hk, hgone, hwait, if_false]
  unfold Dev.perform
  have hodd := write32At_not_odd off v h
  simp only [write32At] at hodd
  simp only [hoff, hodd, Bool.false_eq_true, if_false, if_true, Dev.writeAccess, Dev.answer]
  exact hdone _

/-- A write to a block in reset is dropped with an internal error; RESET_CTL's SOFT and BLOCK_GO set BLOCK_ERR in the device-wide safe
state (R21, R388, R389). -/
theorem Dev.writeDword_inReset (d : Dev) (off : Nat) (v : BitVec 32) (h : off % 4 = 0) (hgate : (d.gateAt .mgmtPf .mgmt off).1 = .inReset) :
    d.writeDword .mgmtPf .mgmt off v = .ok (
      if off = RegId.addr ⟨.resetCtl, 0, 0⟩ ∧ d.rst.deviceSafe = true ∧ (v.getLsbD 0 = true ∨ v.getLsbD 8 = true) then
        (d.intErrOf (d.gateAt .mgmtPf .mgmt off).2).setB F.RESET_STATUS_BLOCK_ERR true
      else d.intErrOf (d.gateAt .mgmtPf .mgmt off).2) := by
  have hrst : (d.intErrOf (d.gateAt .mgmtPf .mgmt off).2).rst = d.rst := by
    unfold Dev.intErrOf Dev.intErr
    split <;> rfl
  unfold Dev.writeDword
  generalize hg : d.gateAt .mgmtPf .mgmt off = g at *
  obtain ⟨g, b⟩ := g
  subst hgate
  simp only [targetOf] at hrst ⊢
  by_cases hat : off = RegId.addr ⟨.resetCtl, 0, 0⟩
  · rw [hat, targetMgmt_at_resetCtl]
    simp [Dev.resetRefused, hrst]
  · rw [if_neg (fun hand => hat hand.1)]
    split
    · next r htarget =>
      have hk : r.kind ≠ .resetCtl := fun hk => hat (targetMgmt_resetCtl off r false htarget hk h)
      simp [Dev.resetRefused, hk]
    · rfl

/-- A dword of a word is its low half. -/
theorem zeroExtend_truncate (v : Word) : (v.truncate 32).zeroExtend 64 = v &&& 0xFFFFFFFF := by
  apply BitVec.eq_of_toNat_eq
  rw [BitVec.zeroExtend_eq_setWidth, BitVec.truncate_eq_setWidth, BitVec.toNat_setWidth, BitVec.toNat_setWidth, BitVec.toNat_and,
    show (0xFFFFFFFF : Word).toNat = 2 ^ 32 - 1 from rfl, Nat.and_two_pow_sub_one_eq_mod]
  omega

/-- A write of a register of a block in its safe state is discarded with an internal error; a GO of LC_CTL sets LC_ERR too (R339, R401). -/
theorem Dev.writeDword_safe (d : Dev) (off : Nat) (v : BitVec 32) (r : RegId) (hgate : (d.gateAt .mgmtPf .mgmt off).1 = .safe)
    (htarget : targetMgmt off = .reg r false) (hsafe : d.regSafe r = true) (herr : r.kind.isErrReg = false) (hport : d.noPort r = false)
    (hreset : r.kind ≠ .resetCtl) (htally : r.kind ≠ .tallyCtl) (hrsv : v.zeroExtend 64 &&& 0xFFFFFFFF &&& r.kind.info.rsv = 0) :
    d.writeDword .mgmtPf .mgmt off v = .ok (
      if r.kind = .lcCtl ∧ v.getLsbD 3 = true then (d.intErr (d.blockOf r)).setB F.LC_CTL_LC_ERR true else d.intErr (d.blockOf r)) := by
  unfold Dev.writeDword
  generalize hg : d.gateAt .mgmtPf .mgmt off = g at *
  obtain ⟨g, b⟩ := g
  subst hgate
  simp only [targetOf, htarget, Dev.writeTarget, Bool.false_eq_true, if_false]
  unfold Dev.regWrite
  simp only [hport, hrsv, hsafe, herr, hreset, htally, ne_eq, not_true_eq_false, Bool.not_false, Bool.and_self, if_true, if_false,
    bne_iff_ne, not_false_eq_true, Bool.true_and, Bool.false_eq_true]
  simp

/-- Settles O38: each clause is what the write's gate and the free slot make of its access. -/
theorem registerWritesByBlockState : Obligations.RegisterWritesByBlockState := by
  unfold Obligations.RegisterWritesByBlockState
  intro s off v h
  have hexec : exec (.registerWrite .mgmt off false v) s = s.doneReg (s.dev.request (write32At off.toNat v)) := rfl
  dsimp only
  rw [hexec]
  refine ⟨fun hg hslot => ?_, fun k hg hslot => ?_, fun hg hslot => ?_, fun r hg hslot htarget hsafe herr hport hreset htally hrsv => ?_⟩
  · rw [s.dev.request_made _ _ h (by rw [hg]; decide) (by rw [hg]; decide) hslot, s.dev.writeDword_inReset _ _ h hg]
    simp [State.doneReg, State.done]
  · rw [s.dev.request_wait _ _ h k hg hslot]
    rfl
  · rw [s.dev.request_no_slot _ _ h hg hslot]
    rfl
  · rw [s.dev.request_made _ _ h (by rw [hg]; decide) (by rw [hg]; decide) hslot,
      s.dev.writeDword_safe _ _ r hg htarget hsafe herr hport hreset htally ?_]
    · simp [State.doneReg, State.done]
    · rw [zeroExtend_truncate, BitVec.and_assoc v, BitVec.and_self]
      exact hrsv

end Sys2Proof.Machine
end

section
/-! SUPPORT. What an operation may change, said as the kinds of registers it writes: no other register changes, nor what resets, roles and
lifecycle hold, and what has been handed out stays handed out. -/

namespace Sys2Proof.Machine

/-- `t` is `d` after an operation that changes registers of the kinds `ks` alone and takes nothing back that has been handed out. -/
def Dev.changes (ks : RegKind → Bool) (d t : Dev) : Prop :=
  (∀ (k : RegKind) (i j : Nat), ks k = false → t.reg k i j = d.reg k i j) ∧ t.rst = d.rst ∧ ∃ l : List Out, t.out = d.out ++ l

/-- One kind of register. -/
def RegKind.only (k0 : RegKind) : RegKind → Bool := fun k => k == k0

section
variable {ks : RegKind → Bool} {d0 d1 d2 : Dev}

theorem Dev.changes.reg (h : d0.changes ks d1) (k : RegKind) (i j : Nat) (hk : ks k = false) : d1.reg k i j = d0.reg k i j := h.1 k i j hk

theorem Dev.changes.f (h : d0.changes ks d1) (f : Fld) (i j : Nat) (hk : ks f.kind = false) : d1.f f i j = d0.f f i j := by
  unfold Dev.f
  rw [h.reg f.kind i j hk]

theorem Dev.changes.b (h : d0.changes ks d1) (f : Fld) (i j : Nat) (hk : ks f.kind = false) : d1.b f i j = d0.b f i j := by
  unfold Dev.b
  rw [h.f f i j hk]

theorem Dev.changes.rst (h : d0.changes ks d1) : d1.rst = d0.rst := h.2.1

theorem Dev.changes.mem_out (h : d0.changes ks d1) {o : Out} (ho : o ∈ d0.out) : o ∈ d1.out := by
  obtain ⟨-, -, l, hl⟩ := h
  rw [hl]
  exact List.mem_append_left l ho

theorem Dev.changes.mono {ks' : RegKind → Bool} (h : d0.changes ks d1) (hle : ∀ k, ks' k = false → ks k = false) : d0.changes ks' d1 :=
  ⟨fun k i j hk => h.1 k i j (hle k hk), h.2⟩

theorem Dev.changes.trans (h1 : d0.changes ks d1) (h2 : d1.changes ks d2) : d0.changes ks d2 := by
  obtain ⟨r1, s1, l1, o1⟩ := h1
  obtain ⟨r2, s2, l2, o2⟩ := h2
  exact ⟨fun k i j h => (r2 k i j h).trans (r1 k i j h), s2.trans s1, l1 ++ l2, by rw [o2, o1, List.append_assoc]⟩

/-- An update of something else than registers, outputs, resets, roles and lifecycle. -/
theorem Dev.changes_of_eq (hregs : d1.regs = d0.regs) (hrst : d1.rst = d0.rst) (hout : d1.out = d0.out) : d0.changes ks d1 := by
  refine ⟨fun k i j _ => ?_, hrst, [], by rw [hout, List.append_nil]⟩
  unfold Dev.reg
  rw [hregs]

theorem Dev.changes_refl (d : Dev) : d.changes ks d := Dev.changes_of_eq rfl rfl rfl

theorem Dev.changes_setReg (d : Dev) (k : RegKind) (v : Word) (i j : Nat) (h : ks k = true) : d.changes ks (d.setReg k v i j) :=
  ⟨fun k' i' j' hk => d.reg_setReg_kind k k' v i j i' j' (fun e => by rw [e, h] at hk; cases hk), rfl, [], by simp⟩

theorem Dev.changes_setF (d : Dev) (f : Fld) (v i j : Nat) (h : ks f.kind = true) : d.changes ks (d.setF f v i j) :=
  d.changes_setReg f.kind _ i j h

theorem Dev.changes_setB (d : Dev) (f : Fld) (v : Bool) (i j : Nat) (h : ks f.kind = true) : d.changes ks (d.setB f v i j) :=
  d.changes_setF f _ i j h

theorem Dev.changes_emit (d : Dev) (o : Out) : d.changes ks (d.emit o) := ⟨fun _ _ _ _ => rfl, rfl, [o], rfl⟩

/-- A choice of two operations. -/
theorem Dev.changes_ite (p : Prop) [Decidable p] (hb : p → d0.changes ks d1) (hc : ¬ p → d0.changes ks d2) :
    d0.changes ks (if p then d1 else d2) := by
  split
  · next h => exact hb h
  · next h => exact hc h

/-- A fold of such operations is one. -/
theorem Dev.changes_foldl {α : Type} (f : Dev → α → Dev) (h : ∀ (d : Dev) (x : α), d.changes ks (f d x)) (l : List α) (d : Dev) :
    d.changes ks (l.foldl f d) := by
  induction l generalizing d with
  | nil => exact d.changes_refl
  | cons x l ih => exact (h d x).trans (ih _)

/-- Error reporting changes registers that report. -/
theorem Dev.onlyReports.rst (h : d0.onlyReports d1) : d1.rst = d0.rst := by
  obtain ⟨-, -, -, -, -, -, -, hrest⟩ := h
  exact (congrArg Dev.rst hrest :)

theorem Dev.onlyReports.changes (h : d0.onlyReports d1) : d0.changes RegKind.reports d1 := by
  obtain ⟨hreg, -, -, ⟨l, hout, -⟩, -⟩ := id h
  exact ⟨hreg, h.rst, l, hout⟩

/-- Sending on fabric ports changes no register. -/
theorem Dev.changes_of_sendsOnly (h : d0.sendsOnly d1) : d0.changes ks d1 := by
  obtain ⟨n, k, l, rfl⟩ := h
  exact ⟨fun _ _ _ _ => rfl, rfl, l, rfl⟩

end

theorem Dev.changes_twinUpdate (d : Dev) : d.changes RegKind.reports d.twinUpdate := by
  obtain ⟨n, k, l, t, h⟩ := d.reports_twinUpdate
  have hsent : d.changes RegKind.reports { d with nerup := n, links := k, out := d.out ++ l, twin := t } :=
    ⟨fun _ _ _ _ => rfl, rfl, l, rfl⟩
  exact hsent.trans h.changes

/-- What follows a command changes registers that report. -/
theorem State.changes_after (s : State) (d : Dev) : d.changes RegKind.reports (s.after d).dev := (s.reports_after d).changes

theorem State.changes_afterTwin (s : State) (d : Dev) : d.changes RegKind.reports (s.after d.twinUpdate).dev :=
  d.changes_twinUpdate.trans (s.changes_after _)

/-! ### Shared operations -/

theorem Dev.changes_post (d : Dev) (type prio : Nat) (body : List (BitVec 32)) : d.changes RegKind.reports (d.post type prio body) :=
  (d.reports_post type prio body).changes

theorem Dev.changes_alertUpdate (d : Dev) : d.changes RegKind.reports d.alertUpdate := d.reports_alertUpdate.changes

theorem Dev.changes_sendMsi (d : Dev) (p : Nat) (ks : RegKind → Bool) : d.changes ks (d.sendMsi p) := by
  unfold Dev.sendMsi
  refine Dev.changes_ite _ (fun _ => Dev.changes_ite _ (fun _ => ?_) (fun _ => ?_)) (fun _ => d.changes_refl)
  · exact Dev.changes_of_eq rfl rfl rfl
  · exact (d.changes_emit _).trans (Dev.changes_of_eq rfl rfl rfl)

/-- A Slot Status event lies in configuration space (R109). -/
theorem Dev.changes_slotEvent (d : Dev) (p k : Nat) (ks : RegKind → Bool) : d.changes ks (d.slotEvent p k) := by
  unfold Dev.slotEvent
  have hcf : ∀ v, d.changes ks (d.setCf (portFn p) slotCtlOff v) := fun v => Dev.changes_of_eq rfl rfl rfl
  exact Dev.changes_ite _ (fun _ => (hcf _).trans (Dev.changes_sendMsi _ p ks)) (fun _ => hcf _)

/-- The registers that a change of a slot's state writes. -/
def RegKind.slotKinds (k : RegKind) : Bool := k == .slotState || k.reports

theorem Dev.changes_toSlot (d : Dev) (p st : Nat) : d.changes RegKind.slotKinds (d.toSlot p st) := by
  have hset : d.changes RegKind.slotKinds (d.setF F.SLOT_STATE_STATE st p) := d.changes_setF _ _ _ _ rfl
  have hle : ∀ k : RegKind, k.slotKinds = false → k.reports = false := fun k h => (Bool.or_eq_false_iff.1 h).2
  unfold Dev.toSlot
  exact Dev.changes_ite _ (fun _ => hset) (fun _ => hset.trans ((Dev.changes_post _ _ _ _).mono hle))

theorem Dev.changes_cmdDone (d : Dev) (p : Nat) (w : Bool) (ks : RegKind → Bool) : d.changes ks (d.cmdDone p w) := by
  unfold Dev.cmdDone
  exact Dev.changes_ite _ (fun _ => d.changes_slotEvent p 4 ks) (fun _ => d.changes_refl)

end Sys2Proof.Machine
end

section
/-! SUPPORT. A fault of a slot power channel discharges its gate (R359). -/

namespace Sys2Proof.Machine

/-- A discharge: of the registers only STATE and PG of SPC_STATUS change. -/
theorem Dev.reg_spcDischarge (d : Dev) (n : Nat) (fault : Bool) (k : RegKind) (i j : Nat) :
    (d.spcDischarge n fault).reg k i j = ((d.setF F.SPC_STATUS_STATE 3 n).setB F.SPC_STATUS_PG false n).reg k i j := by
  unfold Dev.spcDischarge
  dsimp only
  split <;> rfl

theorem Dev.f_spcDischarge (d : Dev) (n : Nat) (fault : Bool) (f : Fld) (i : Nat) :
    (d.spcDischarge n fault).f f i = ((d.setF F.SPC_STATUS_STATE 3 n).setB F.SPC_STATUS_PG false n).f f i := by
  unfold Dev.f
  rw [d.reg_spcDischarge]

theorem Dev.spcDischarge_out (d : Dev) (n : Nat) (fault : Bool) : Out.gate n false ∈ (d.spcDischarge n fault).out := by
  unfold Dev.spcDischarge
  exact List.mem_append_right _ (List.mem_singleton_self _)

/-- The slot that a channel serves follows its fault; the channel's own registers do not. -/
theorem Dev.changes_spcFaultSeen (d : Dev) (n : Nat) (ks : RegKind → Bool) : d.changes ks (d.spcFaultSeen n) := by
  unfold Dev.spcFaultSeen
  exact Dev.changes_ite _ (fun _ => d.changes_slotEvent _ _ ks) (fun _ => d.changes_refl)

theorem Dev.changes_spcPowerEnds (d : Dev) (n : Nat) : d.changes RegKind.slotKinds (d.spcPowerEnds n) := by
  have hslot : ∀ (x : Dev) (p : Nat) (y : SlotSt), x.changes RegKind.slotKinds (x.setSlot p y) := fun x p y => Dev.changes_of_eq rfl rfl rfl
  unfold Dev.spcPowerEnds
  exact Dev.changes_ite _ (fun _ => ((d.changes_toSlot _ 1).trans (hslot _ _ _)).trans (Dev.changes_cmdDone _ _ _ _)) (fun _ => d.changes_refl)

/-- What a fault of a driven channel sets: a discharge with the cause's bit. -/
theorem Dev.spcFault_driven (d : Dev) (n : Nat) (f : Fld) (h : d.spcState n = 1 ∨ d.spcState n = 2) :
    ((d.spcDischarge n true).setB f true n).changes RegKind.slotKinds (d.spcFault n f) := by
  unfold Dev.spcFault
  rw [if_pos h]
  exact (Dev.changes_spcFaultSeen _ n _).trans (Dev.changes_spcPowerEnds _ n)

/-- A fault whose cause has a bit of its own in SPC_STATUS, above STATE and PG. -/
theorem State.spcFault_discharges (s : State) (n : Nat) (f : Fld) (h : s.dev.spcState n = 1 ∨ s.dev.spcState n = 2)
    (hk : f.kind = .spcStatus) (hlo : 4 ≤ f.lo) (hw : f.w = 1) (h64 : f.lo + f.w ≤ 64) :
    let t := s.after (s.dev.spcFault n f)
    t.dev.spcState n = 3 ∧ t.dev.b F.SPC_STATUS_PG n = false ∧ t.dev.b f n = true ∧ Out.gate n false ∈ t.dev.out := by
  have hle : ∀ k : RegKind, k.slotKinds = false → k.reports = false := fun k hk => (Bool.or_eq_false_iff.1 hk).2
  have hch := (s.dev.spcFault_driven n f h).trans ((s.changes_after (s.dev.spcFault n f)).mono hle)
  refine ⟨?_, ?_, ?_, hch.mem_out (s.dev.spcDischarge_out n true)⟩
  · unfold Dev.spcState
    rw [hch.f _ n 0 rfl, Dev.f_setB_other _ _ _ _ _ _ _ _ (.inr (.inl (Nat.le_trans (by decide) hlo))) (by decide), Dev.f_spcDischarge,
      Dev.f_setB_other _ _ _ _ _ _ _ _ (by decide) (by decide), Dev.f_setF_same _ _ _ _ _ (by decide)]
    rfl
  · rw [hch.b _ n 0 rfl, Dev.b_setB_other _ f F.SPC_STATUS_PG _ _ _ _ _ (.inr (.inl hlo)) (by decide)]
    have hpg := Dev.b_setB_same (s.dev.setF F.SPC_STATUS_STATE 3 n) F.SPC_STATUS_PG false n 0 rfl (by decide)
    unfold Dev.b at hpg ⊢
    rw [Dev.f_spcDischarge]
    exact hpg
  · rw [hch.b f n 0 (by rw [hk]; rfl), Dev.b_setB_same _ _ _ _ _ hw h64]

/-- Settles O43: each of the three faults is `spcFault` with a bit of its own. -/
theorem channelFaultsDischarge : Obligations.ChannelFaultsDischarge := by
  unfold Obligations.ChannelFaultsDischarge
  intro s n hdriven x hx
  rcases List.mem_cons.1 hx with rfl | hx
  · exact ⟨_, rfl, s.spcFault_discharges n _ hdriven rfl (by decide) rfl (by decide)⟩
  rcases List.mem_cons.1 hx with rfl | hx
  · exact ⟨_, rfl, s.spcFault_discharges n _ hdriven rfl (by decide) rfl (by decide)⟩
  rcases List.mem_singleton.1 hx with rfl
  exact ⟨_, rfl, s.spcFault_discharges n _ hdriven rfl (by decide) rfl (by decide)⟩

end Sys2Proof.Machine
end

section
/-! SUPPORT. Buckets move to their PATH only when drained (R133), and a write that would leave reservations without cells is discarded (R145). -/

namespace Sys2Proof.Machine

/-! ### Buckets -/

/-- A bucket moved: EFF_PATH and the two bits that its move clears. -/
def Dev.moved (d : Dev) (b : Nat) : Dev :=
  ((d.setF F.BUCKET_EFF_PATH (d.f F.BUCKET_PATH b) b).setB F.BUCKET_PENDING false b).setB F.BUCKET_OLD_LIST false b

/-- A bucket with nothing in flight moves. -/
theorem Dev.reg_repin (d : Dev) (b : Nat) (h : d.f F.BUCKET_INFLIGHT b = 0) (k : RegKind) (i j : Nat) :
    (d.repin b).reg k i j = (d.moved b).reg k i j := by
  unfold Dev.repin
  rw [if_pos h]
  rfl

/-- A bucket with a TLP in flight stays where it is. -/
theorem Dev.repin_in_flight (d : Dev) (b : Nat) (h : d.f F.BUCKET_INFLIGHT b ≠ 0) : d.repin b = d := if_neg h

/-- A field of a register is a number below its width's power. -/
theorem Dev.f_lt (d : Dev) (f : Fld) (i j : Nat) : d.f f i j < 2 ^ f.w := Nat.mod_lt _ (Nat.two_pow_pos _)

theorem State.after_repin_f (s : State) (b : Nat) (h : s.dev.f F.BUCKET_INFLIGHT b = 0) (f : Fld) (hk : f.kind.reports = false) :
    (s.after (s.dev.repin b)).dev.f f b = (s.dev.moved b).f f b := by
  unfold Dev.f
  rw [s.after_reg _ _ _ _ hk, s.dev.reg_repin b h]

theorem State.after_repin_b (s : State) (b : Nat) (h : s.dev.f F.BUCKET_INFLIGHT b = 0) (f : Fld) (hk : f.kind.reports = false) :
    (s.after (s.dev.repin b)).dev.b f b = (s.dev.moved b).b f b := by
  unfold Dev.b
  rw [s.after_repin_f b h f hk]

theorem Dev.moved_effPath (d : Dev) (b : Nat) : (d.moved b).f F.BUCKET_EFF_PATH b = d.f F.BUCKET_PATH b := by
  unfold Dev.moved
  rw [Dev.f_setB_other _ _ _ _ _ _ _ _ (by decide) (by decide), Dev.f_setB_other _ _ _ _ _ _ _ _ (by decide) (by decide),
    Dev.f_setF_same _ _ _ _ _ (by decide)]
  exact Nat.mod_eq_of_lt (d.f_lt F.BUCKET_PATH b 0)

theorem Dev.moved_oldList (d : Dev) (b : Nat) : (d.moved b).b F.BUCKET_OLD_LIST b = false :=
  Dev.b_setB_same _ _ _ _ _ rfl (by decide)

theorem Dev.moved_pending (d : Dev) (b : Nat) : (d.moved b).b F.BUCKET_PENDING b = false := by
  unfold Dev.moved
  rw [Dev.b_setB_other _ _ _ _ _ _ _ _ (by decide) (by decide), Dev.b_setB_same _ _ _ _ _ rfl (by decide)]

theorem Dev.moved_path (d : Dev) (b : Nat) : (d.moved b).f F.BUCKET_PATH b = d.f F.BUCKET_PATH b := by
  unfold Dev.moved
  rw [Dev.f_setB_other _ _ _ _ _ _ _ _ (by decide) (by decide), Dev.f_setB_other _ _ _ _ _ _ _ _ (by decide) (by decide),
    Dev.f_setF_other _ _ _ _ _ _ _ _ (by decide) (by decide)]

theorem Dev.reg_moved_ne (d : Dev) (b : Nat) (k : RegKind) (i j : Nat) (h : k ≠ .bucket ∨ i ≠ b) : (d.moved b).reg k i j = d.reg k i j := by
  have h' : k ≠ .bucket ∨ i ≠ b ∨ j ≠ 0 := h.imp_right .inl
  unfold Dev.moved
  rw [Dev.reg_setB_ne _ _ _ _ _ _ _ _ h', Dev.reg_setB_ne _ _ _ _ _ _ _ _ h', Dev.reg_setF_ne _ _ _ _ _ _ _ _ h']

/-- A field of BUCKET but PENDING, after PATH is written. -/
theorem Dev.f_wrPath (d : Dev) (b path : Nat) (f : Fld) (h : f.lo + f.w ≤ 4 ∨ 5 ≤ f.lo) (h64 : f.lo + f.w ≤ 64) :
    (d.wrPath b path).f f b = (d.setF F.BUCKET_PATH path b).f f b :=
  Dev.f_setB_other _ F.BUCKET_PENDING f _ b 0 b 0 (.inr h) h64

/-- PATH written: PENDING says whether the bucket has still to move. -/
theorem Dev.wrPath_pending (d : Dev) (b path : Nat) :
    (d.wrPath b path).b F.BUCKET_PENDING b = (path != d.f F.BUCKET_EFF_PATH b) := by
  unfold Dev.wrPath
  rw [Dev.b_setB_same _ _ _ _ _ rfl (by decide), Dev.f_setF_other _ _ _ _ _ _ _ _ (by decide) (by decide)]

/-- A write of a bucket's PATH that is let through. -/
theorem exec_bucketPathWrite (s : State) (b : Fin 4096) (path : Fin 16) (h : s.dev.takes ⟨.bucket, b, 0⟩) :
    exec (.bucketPathWrite b path) s = .next (s.after (s.dev.wrPath b path).twinUpdate) := by
  have hpath : ∀ p : Fin 16, BitVec.ofNat 64 p &&& RegKind.bucket.info.rsv = 0 ∧ getBits (BitVec.ofNat 64 p) 0 4 = p := by decide
  obtain ⟨hrsv, hbits⟩ := hpath path
  refine (s.write64_takes ⟨.bucket, b, 0⟩ (BitVec.ofNat 64 path) rfl h hrsv).trans ?_
  show s.done (s.dev.wrPath b (getBits (BitVec.ofNat 64 path) 0 4)).twinUpdate = _
  rw [hbits]
  rfl

/-- Settles O45: BUCKET_REPIN by INFLIGHT, and what a write of PATH leaves of the bucket. -/
theorem bucketsMoveOnlyWhenDrained : Obligations.BucketsMoveOnlyWhenDrained := by
  unfold Obligations.BucketsMoveOnlyWhenDrained
  intro s b
  refine ⟨fun hfly => ?_, fun hdry => ⟨_, rfl, ?_, ?_, ?_, ?_, fun k i j hne hk => ?_⟩, fun path htakes =>
    ⟨_, exec_bucketPathWrite s b path htakes, ?_, ?_, ?_, ?_, ?_⟩⟩
  · show s.done (s.dev.repin b) = _
    rw [s.dev.repin_in_flight b hfly]
    rfl
  · rw [s.after_repin_f b hdry _ rfl, Dev.moved_effPath]
  · rw [s.after_repin_b b hdry _ rfl, Dev.moved_oldList]
  · rw [s.after_repin_b b hdry _ rfl, Dev.moved_pending]
  · rw [s.after_repin_f b hdry _ rfl, Dev.moved_path]
  · rw [s.after_reg _ k i j hk, s.dev.reg_repin b hdry, Dev.reg_moved_ne _ _ _ _ _ hne]
  · rw [s.afterTwin_f _ _ _ _ rfl, Dev.f_wrPath _ _ _ _ (by decide) (by decide), Dev.f_setF_same _ _ _ _ _ (by decide)]
    exact Nat.mod_eq_of_lt path.isLt
  · rw [s.afterTwin_f _ _ _ _ rfl, Dev.f_wrPath _ _ _ _ (by decide) (by decide), Dev.f_setF_other _ _ _ _ _ _ _ _ (by decide) (by decide)]
  · unfold Dev.b
    rw [s.afterTwin_f _ _ _ _ rfl, Dev.f_wrPath _ _ _ _ (by decide) (by decide), Dev.f_setF_other _ _ _ _ _ _ _ _ (by decide) (by decide)]
  · rw [s.afterTwin_f _ _ _ _ rfl, Dev.f_wrPath _ _ _ _ (by decide) (by decide), Dev.f_setF_other _ _ _ _ _ _ _ _ (by decide) (by decide)]
  · rw [s.afterTwin_b _ _ _ _ rfl, Dev.wrPath_pending, bne_iff_ne]

/-! ### Reservations (R145) -/

theorem Dev.uncovered_eq_true (d : Dev) (h : Nat) : d.uncovered h = true ↔ d.freeRsv h < d.unspent h := decide_eq_true_iff

theorem Dev.uncovered_eq_false (d : Dev) (h : Nat) : d.uncovered h = false ↔ d.unspent h ≤ d.freeRsv h := by
  unfold Dev.uncovered
  rw [decide_eq_false_iff_not, Nat.not_lt]

/-- A write that would uncover a reservation of a half is discarded. -/
theorem Dev.wrGroups_discarded (d : Dev) (r : RegId) (v : Word)
    (h : ∃ n : Nat, n < 2 ∧ (d.storeReg r v).freeRsv n < (d.storeReg r v).unspent n ∧ d.unspent n ≤ d.freeRsv n) :
    d.wrGroups r v = d.setB F.FLOOR_STATUS_FLOOR_CFG_ERR true := by
  obtain ⟨n, hn, hshort, hwas⟩ := h
  have hshort := (Dev.uncovered_eq_true _ n).2 hshort
  have hwas := (d.uncovered_eq_false n).2 hwas
  refine if_pos ?_
  interval_cases n <;> simp [hshort, hwas]

/-- A write that leaves every reservation its cells is stored. -/
theorem Dev.wrGroups_stored (d : Dev) (r : RegId) (v : Word)
    (h : ∀ n : Nat, n < 2 → (d.storeReg r v).unspent n ≤ (d.storeReg r v).freeRsv n) : d.wrGroups r v = d.storeReg r v := by
  have h0 := (Dev.uncovered_eq_false _ 0).2 (h 0 (by decide))
  have h1 := (Dev.uncovered_eq_false _ 1).2 (h 1 (by decide))
  exact if_neg (by simp [h0, h1])

/-- Settles O48: the write of either register is `wrGroups`. -/
theorem groupWritesKeepReservationsBacked : Obligations.GroupWritesKeepReservationsBacked := by
  unfold Obligations.GroupWritesKeepReservationsBacked
  intro s v
  refine ⟨fun g htakes hrsv => ?_, fun htakes hrsv => ?_⟩
  · have hstep : exec (.groupCtlWrite (some g) v) s = .next (s.after (s.dev.wrGroups ⟨.groupCtl, g, 0⟩ (v.zeroExtend 64)).twinUpdate) :=
      s.write32_takes ⟨.groupCtl, g, 0⟩ v htakes hrsv
    exact ⟨fun h => by rw [hstep, s.dev.wrGroups_discarded _ _ h], fun h => by rw [hstep, s.dev.wrGroups_stored _ _ h]⟩
  · have hstep : exec (.groupCtlWrite none v) s = .next (s.after (s.dev.wrGroups ⟨.floorRsvGroups, 0, 0⟩ (v.zeroExtend 64)).twinUpdate) :=
      s.write32_takes ⟨.floorRsvGroups, 0, 0⟩ v htakes hrsv
    exact ⟨fun h => by rw [hstep, s.dev.wrGroups_discarded _ _ h], fun h => by rw [hstep, s.dev.wrGroups_stored _ _ h]⟩

end Sys2Proof.Machine
end

section
/-! SUPPORT. A write that names one field, bit by bit. -/

namespace Sys2Proof.Machine

/-- A field of one bit, as a number. -/
theorem getBits_one (v : Word) (lo : Nat) : getBits v lo 1 = b2n (v.getLsbD lo) := by
  have hbit := testBit_getBits v lo 1 0
  have hlt : getBits v lo 1 < 2 := Nat.mod_lt _ (by decide)
  simp only [Nat.testBit_zero, Nat.zero_lt_one, decide_true, Bool.true_and, Nat.add_zero] at hbit
  rw [← hbit]
  interval_cases getBits v lo 1 <;> rfl

/-- A bit of what a write that changes only the bits `m` makes. -/
theorem Dev.poked_bit (d : Dev) (r : RegId) (m x : Word) (n : Nat) (hn : n < 64) : (d.poked r m x).getLsbD n =
    (((((d.reg r.kind r.i r.j).getLsbD n && (r.kind.info.rw.getLsbD n || r.kind.info.rws.getLsbD n)) && !m.getLsbD n)
      || (x.getLsbD n && m.getLsbD n)) && r.width.getLsbD n) := by
  unfold Dev.poked Dev.same
  simp only [BitVec.getLsbD_or, BitVec.getLsbD_and, BitVec.getLsbD_not, hn, decide_true, Bool.true_and]

/-- A register's low 32 bits are within its width. -/
theorem RegId.width_bit (r : RegId) (n : Nat) (h : n < 32) : r.width.getLsbD n = true := by
  unfold RegId.width
  split
  · rw [show (0xFFFFFFFFFFFFFFFF : Word) = BitVec.allOnes 64 from rfl, BitVec.getLsbD_allOnes, decide_eq_true (by omega)]
  · show (2 ^ 32 - 1 : Nat).testBit n = true
    rw [Nat.testBit_two_pow_sub_one, decide_eq_true h]

/-- A named bit takes its new value. -/
theorem Dev.poked_bit_named (d : Dev) (r : RegId) (m x : Word) (n : Nat) (hn : n < 32) (hm : m.getLsbD n = true) :
    (d.poked r m x).getLsbD n = x.getLsbD n := by
  rw [d.poked_bit r m x n (by omega), r.width_bit n hn, hm]
  simp

/-- A bit that is neither named nor RW is written 0. -/
theorem Dev.poked_bit_unstored (d : Dev) (r : RegId) (m x : Word) (n : Nat) (hn : n < 64) (hm : m.getLsbD n = false)
    (hrw : (r.kind.info.rw ||| r.kind.info.rws).getLsbD n = false) : (d.poked r m x).getLsbD n = false := by
  rw [BitVec.getLsbD_or] at hrw
  rw [d.poked_bit r m x n hn, hm, hrw]
  simp

/-- A stored bit that is not named keeps its value. -/
theorem Dev.poked_bit_kept (d : Dev) (r : RegId) (m x : Word) (n : Nat) (hn : n < 32) (hm : m.getLsbD n = false)
    (hrw : (r.kind.info.rw ||| r.kind.info.rws).getLsbD n = true) : (d.poked r m x).getLsbD n = (d.reg r.kind r.i r.j).getLsbD n := by
  rw [BitVec.getLsbD_or] at hrw
  rw [d.poked_bit r m x n (by omega), r.width_bit n hn, hm, hrw]
  simp

/-- A register's stored bits within a mask that is not named are written as they are. -/
theorem Dev.poked_and (d : Dev) (r : RegId) (m x a : Word) (hm : m &&& a = 0) (hrw : a &&& ~~~(r.kind.info.rw ||| r.kind.info.rws) = 0)
    (hw : r.kind.info.wide = true) : d.poked r m x &&& a = d.reg r.kind r.i r.j &&& a := by
  apply BitVec.eq_of_getLsbD_eq
  intro n hn
  have h1 := getLsbD_disjoint hm n
  have h2 := getLsbD_disjoint hrw n
  have hwidth : r.width.getLsbD n = true := by
    unfold RegId.width
    rw [if_pos hw, show (0xFFFFFFFFFFFFFFFF : Word) = BitVec.allOnes 64 from rfl, BitVec.getLsbD_allOnes, decide_eq_true hn]
  rw [BitVec.getLsbD_not, BitVec.getLsbD_or, decide_eq_true hn, Bool.true_and] at h2
  rw [BitVec.getLsbD_and, BitVec.getLsbD_and, d.poked_bit r m x n hn, hwidth]
  cases ha : a.getLsbD n
  · simp
  · rw [ha, Bool.and_true] at h1
    rw [ha, Bool.true_and, Bool.not_eq_false'] at h2
    rw [h1, h2]
    simp

end Sys2Proof.Machine
end

section
/-! SUPPORT. Powering a domain on (R378). -/

namespace Sys2Proof.Machine

/-- A write of DOMAIN_CTL that names PWR_EN and is let through. -/
theorem exec_domainPowerOn (s : State) (n : Fin 208) (h : s.dev.takes ⟨.domainCtl, n, 0⟩) :
    exec (.domainPowerOn n) s = .next (s.after (s.dev.wrDomain n (s.dev.poked ⟨.domainCtl, n, 0⟩ 1 1)).twinUpdate) :=
  have hrsv : (1 : Word) &&& RegKind.domainCtl.info.rsv = 0 := by decide
  s.poke_takes ⟨.domainCtl, n, 0⟩ 1 1 h hrsv

/-- It sets PWR_EN and leaves CLK_EN. -/
theorem Dev.poked_pwrEn (d : Dev) (n : Nat) : getBits (d.poked ⟨.domainCtl, n, 0⟩ 1 1) 0 1 = 1 := by
  rw [getBits_one, d.poked_bit_named _ _ _ 0 (by decide) (by decide)]
  decide

theorem Dev.poked_clkEn (d : Dev) (n : Nat) :
    getBits (d.poked ⟨.domainCtl, n, 0⟩ 1 1) 1 1 = b2n (d.b F.DOMAIN_CTL_CLK_EN n) := by
  have hrw : (RegKind.domainCtl.info.rw ||| RegKind.domainCtl.info.rws).getLsbD 1 = true := by decide
  rw [getBits_one, d.poked_bit_kept ⟨.domainCtl, n, 0⟩ _ _ 1 (by decide) (by decide) hrw, d.b_eq_getLsbD _ _ _ rfl]
  rfl

/-- What powers a domain on is accepted where its dependency is powered and no thermal trip has occurred (R378, R340). -/
theorem Dev.domainAccepts_on (d : Dev) (n : Nat) (v : Word) (hon : getBits v 0 1 = 1) (hclk : getBits v 1 1 = b2n (d.b F.DOMAIN_CTL_CLK_EN n))
    (hoff : d.b F.DOMAIN_CTL_PWR_EN n = false) : d.domainAccepts n v = true ↔
      (∀ e : Nat, dependsOn n = some e → d.b F.DOMAIN_CTL_PWR_EN e = true) ∧ d.rst.tripped = false := by
  have hrun : (d.b F.DOMAIN_CTL_CLK_EN n && !(b2n (d.b F.DOMAIN_CTL_CLK_EN n) == 1)) = false := by
    cases d.b F.DOMAIN_CTL_CLK_EN n <;> rfl
  unfold Dev.domainAccepts
  dsimp only
  rw [hon, hclk, hoff, hrun]
  cases hdep : dependsOn n <;> simp

/-- A domain that is no Aisle end and whose clocks block runs takes what is accepted, and reports what is not. -/
theorem Dev.wrDomain_one (d : Dev) (n : Nat) (v : Word) (hn : n < 204) (hsafe : d.safe (84 + domHalf n) = false) :
    d.wrDomain n v = if d.domainAccepts n v then d.domainApply n v else d.setB F.PWR_STATUS_DOMAIN_CFG_ERR true := by
  unfold Dev.wrDomain
  have hend : ¬ 204 ≤ n := by omega
  have hon : ¬ 206 ≤ n := by omega
  simp [hend, hon, hsafe]

/-- An OFF domain with PWR_EN set waits to wake. -/
def Dev.poweredOn (d : Dev) (n : Nat) (v : Word) : Dev := (d.setReg .domainCtl (v &&& 3) n).setDomState n 1 false true false true

theorem Dev.poweredOn_state (d : Dev) (n : Nat) (v : Word) : (d.poweredOn n v).reg .domainState n = 0x29 := Dev.reg_setReg_same _ _ _ _ _

theorem Dev.poweredOn_ctl (d : Dev) (n : Nat) (v : Word) : (d.poweredOn n v).reg .domainCtl n = v &&& 3 := by
  unfold Dev.poweredOn Dev.setDomState
  rw [Dev.reg_setReg_kind _ _ _ _ _ _ _ _ (by decide), Dev.reg_setReg_same]

theorem Dev.reg_poweredOn_ne (d : Dev) (n : Nat) (v : Word) (k : RegKind) (i j : Nat) (h : (k ≠ .domainCtl ∧ k ≠ .domainState) ∨ i ≠ n) :
    (d.poweredOn n v).reg k i j = d.reg k i j := by
  unfold Dev.poweredOn Dev.setDomState
  rcases h with ⟨hctl, hst⟩ | hi
  · rw [Dev.reg_setReg_kind _ _ _ _ _ _ _ _ hst, Dev.reg_setReg_kind _ _ _ _ _ _ _ _ hctl]
  · have hne : ∀ k' : RegKind, (⟨k, i, j⟩ : RegId) ≠ ⟨k', n, 0⟩ := fun k' e => hi (congrArg RegId.i e)
    rw [Dev.reg_setReg_ne _ _ _ _ _ _ _ _ (hne _), Dev.reg_setReg_ne _ _ _ _ _ _ _ _ (hne _)]

theorem Dev.poweredOn_power (d : Dev) (n : Nat) (v : Word) : (d.poweredOn n v).power n = 1 := by
  unfold Dev.power Dev.f
  rw [show F.DOMAIN_STATE_POWER.kind = .domainState from rfl, d.poweredOn_state]
  decide

/-- A flag of DOMAIN_STATE of a domain that waits to wake. -/
theorem Dev.poweredOn_flag (d : Dev) (n : Nat) (v : Word) (f : Fld) (hk : f.kind = .domainState) (hw : f.w = 1) :
    (d.poweredOn n v).b f n = (0x29 : Word).getLsbD f.lo := by
  rw [Dev.b_eq_getLsbD _ _ _ _ hw, hk, d.poweredOn_state]

theorem Dev.domainApply_on (d : Dev) (n : Nat) (v : Word) (hon : getBits v 0 1 = 1) (hoff : d.b F.DOMAIN_CTL_PWR_EN n = false)
    (hpower : d.power n = 0) : d.domainApply n v = d.poweredOn n v := by
  have hstill : (d.setReg .domainCtl (v &&& 3) n).power n = 0 := by
    unfold Dev.power
    rw [d.f_setReg_kind _ _ _ _ _ _ _ (by decide)]
    exact hpower
  unfold Dev.domainApply
  simp only [hon, hoff, Dev.powerOn, hstill]
  show (d.poweredOn n v).clockFollow n = _
  unfold Dev.clockFollow
  rw [d.poweredOn_power, if_neg (by decide)]

/-- Settles O54: the write is accepted where the dependency is powered and nothing tripped, and then the OFF domain waits to wake. -/
theorem domainPowerOn : Obligations.DomainPowerOn := by
  unfold Obligations.DomainPowerOn
  intro s n
  dsimp only
  intro hn htakes hsafe hoff
  have hstep := exec_domainPowerOn s n htakes
  have hon := s.dev.poked_pwrEn n
  have haccept := s.dev.domainAccepts_on n _ hon (s.dev.poked_clkEn n) hoff
  rw [s.dev.wrDomain_one n _ hn hsafe] at hstep
  constructor
  · intro hrefused
    rw [if_neg ?_] at hstep
    · exact hstep
    · rw [haccept]
      rintro ⟨hdep, hcold⟩
      rcases hrefused with ⟨e, he, hdown⟩ | htripped
      · rw [hdep e he] at hdown
        cases hdown
      · rw [hcold] at htripped
        cases htripped
  · intro hdep hcold hpower
    rw [if_pos (haccept.2 ⟨hdep, hcold⟩), s.dev.domainApply_on n _ hon hoff hpower] at hstep
    refine ⟨_, hstep, ?_, ?_, ?_, ?_, fun k i j hne hk => ?_⟩
    · rw [s.afterTwin_b _ _ _ _ rfl, Dev.b_eq_getLsbD _ _ _ _ rfl, show F.DOMAIN_CTL_PWR_EN.kind = .domainCtl from rfl, Dev.poweredOn_ctl,
        BitVec.getLsbD_and, s.dev.poked_bit_named _ _ _ _ (by decide) (by decide)]
      decide
    · exact (s.afterTwin_f _ F.DOMAIN_STATE_POWER _ _ rfl).trans (Dev.poweredOn_power _ _ _)
    · rw [s.afterTwin_b _ _ _ _ rfl, Dev.poweredOn_flag _ _ _ _ rfl rfl]
      decide
    · rw [s.afterTwin_b _ _ _ _ rfl, Dev.poweredOn_flag _ _ _ _ rfl rfl]
      decide
    · rw [s.afterTwin_reg _ k i j hk, Dev.reg_poweredOn_ne _ _ _ _ _ _ hne]

end Sys2Proof.Machine
end

section
/-! SUPPORT. Enabling a DISABLED ring and disabling a HALTED one (R280). -/

namespace Sys2Proof.Machine

/-- A write of a ring's RING_CTL that names EN and is let through. -/
theorem exec_ringEnable (s : State) (st : Fin 1024) (r : Fin 8) (h : s.dev.takesStall st ⟨.ringCtl, st, r⟩) :
    exec (.ringEnable st r) s = .next (s.after (s.dev.wrRingCtl st r (s.dev.poked ⟨.ringCtl, st, r⟩ 1 1)).twinUpdate) :=
  have hrsv : (1 : Word) &&& RegKind.ringCtl.info.rsv = 0 := by decide
  s.pokeStall_takes st ⟨.ringCtl, st, r⟩ 1 1 h hrsv

theorem exec_ringDisable (s : State) (st : Fin 1024) (r : Fin 8) (h : s.dev.takesStall st ⟨.ringCtl, st, r⟩) :
    exec (.ringDisable st r) s = .next (s.after (s.dev.wrRingCtl st r (s.dev.poked ⟨.ringCtl, st, r⟩ 1 0)).twinUpdate) :=
  have hrsv : (1 : Word) &&& RegKind.ringCtl.info.rsv = 0 := by decide
  s.pokeStall_takes st ⟨.ringCtl, st, r⟩ 1 0 h hrsv

/-- What names EN alone writes the ring's settings as they are, and no RESUME. -/
theorem Dev.wrRingCtl_en (d : Dev) (st r : Nat) (x : Word) : d.wrRingCtl st r (d.poked ⟨.ringCtl, st, r⟩ 1 x) =
    if x.getLsbD 0 then (if d.b F.RING_CTL_EN st r then d else d.ringEnable (8 * st + r))
    else if d.b F.RING_CTL_EN st r || d.rstate (8 * st + r) == 4 then d.ringDisable (8 * st + r) else d := by
  have hrw : ringSetup &&& ~~~(RegKind.ringCtl.info.rw ||| RegKind.ringCtl.info.rws) = 0 := by decide
  have hwo : (RegKind.ringCtl.info.rw ||| RegKind.ringCtl.info.rws).getLsbD 17 = false := by decide
  have hsetup := d.poked_and ⟨.ringCtl, st, r⟩ 1 x ringSetup (by decide) hrw rfl
  have hen : getBits (d.poked ⟨.ringCtl, st, r⟩ 1 x) 0 1 = b2n (x.getLsbD 0) := by
    rw [getBits_one, d.poked_bit_named _ _ _ 0 (by decide) (by decide)]
  have hres : getBits (d.poked ⟨.ringCtl, st, r⟩ 1 x) 17 1 = 0 := by
    rw [getBits_one, d.poked_bit_unstored ⟨.ringCtl, st, r⟩ _ _ 17 (by decide) (by decide) hwo]
    rfl
  unfold Dev.wrRingCtl
  dsimp only at hsetup ⊢
  rw [if_pos hsetup.symm, hen, hres, if_neg (by decide)]
  cases x.getLsbD 0 <;> simp [b2n]

/-- The place of ring `r` of Stall `st` in the rings' order. -/
theorem ring_div (st r : Nat) (h : r < 8) : (8 * st + r) / 8 = st := by omega

theorem ring_mod (st r : Nat) (h : r < 8) : (8 * st + r) % 8 = r := by omega

/-- A ring just enabled: EN, CI from RING_START, PHASE, IDLE. -/
def Dev.ringUp (d : Dev) (st r : Nat) : Dev :=
  (((d.setB F.RING_CTL_EN true st r).setF F.RING_STATUS_CI (d.f F.RING_START_CI st r) st r).setB F.RING_STATUS_PHASE true st r).setF
    F.RING_STATUS_STATE 1 st r

/-- Beside the ring's own registers enabling it writes ACTIVE of its Stall. -/
theorem Dev.ringEnable_disabled (d : Dev) (st r : Nat) (hr : r < 8) (h : d.rstate (8 * st + r) = 0) :
    (∀ (k : RegKind) (i j : Nat), k ≠ .stallStatus → (d.ringEnable (8 * st + r)).reg k i j = (d.ringUp st r).reg k i j)
      ∧ (d.ringEnable (8 * st + r)).rings = d.rings.put {} (8 * st + r) { pi := d.f F.RING_START_CI st r, fetch := d.f F.RING_START_CI st r } := by
  unfold Dev.ringEnable
  rw [if_pos h]
  simp only [ring_div st r hr, ring_mod st r hr, Dev.setCi, Dev.setRstate]
  refine ⟨fun k i j hk => ?_, rfl⟩
  exact Dev.reg_setB_ne _ F.STALL_STATUS_ACTIVE true st 0 k i j (.inl hk)

theorem Dev.f_of_ringEnable (d : Dev) (st r : Nat) (hr : r < 8) (h : d.rstate (8 * st + r) = 0) (f : Fld) (hk : f.kind ≠ .stallStatus) :
    (d.ringEnable (8 * st + r)).f f st r = (d.ringUp st r).f f st r := by
  unfold Dev.f
  rw [(d.ringEnable_disabled st r hr h).1 _ _ _ hk]

/-- The record of a ring is no part of error reporting. -/
theorem Dev.onlyReports.rings {d t : Dev} (h : d.onlyReports t) : t.rings = d.rings := by
  obtain ⟨-, -, -, -, -, -, -, hrest⟩ := h
  exact (congrArg Dev.rings hrest :)

theorem State.afterTwin_ring (s : State) (d : Dev) (k : Nat) : (s.after d.twinUpdate).dev.ring k = d.ring k := by
  obtain ⟨n, l, o, t, h⟩ := d.reports_twinUpdate
  unfold Dev.ring
  rw [(s.reports_after _).rings, h.rings]

theorem Dev.ring_setRing_same (d : Dev) (k : Nat) (x : RingSt) : (d.setRing k x).ring k = x := Tbl.look_put_same _ d.rings k x

/-- A HALTED ring just disabled. -/
theorem Dev.ringDisable_halted (d : Dev) (k : Nat) (h : d.rstate k = 4) :
    d.ringDisable k = ((d.setB F.RING_CTL_EN false (k / 8) (k % 8)).setRing k {}).setRstate k 0 := by
  unfold Dev.ringDisable
  simp [h]

/-- Settles O58: the write of EN is `ringEnable` on a DISABLED ring, `ringDisable` on a HALTED one. -/
theorem ringEnableAndHaltedDisable : Obligations.RingEnableAndHaltedDisable := by
  unfold Obligations.RingEnableAndHaltedDisable
  intro s st r
  dsimp only
  intro htakes
  have hr : r.val < 8 := r.isLt
  refine ⟨fun hidle hoff => ?_, fun hhalted hon => ?_⟩
  · have hstep := exec_ringEnable s st r htakes
    rw [s.dev.wrRingCtl_en, if_pos (by decide), if_neg (by rw [hoff]; decide)] at hstep
    have hf := fun f hk => s.dev.f_of_ringEnable st r hr hidle f hk
    refine ⟨_, hstep, ?_, ?_, ?_, ?_, ?_⟩
    · rw [s.afterTwin_b _ _ _ _ rfl]
      unfold Dev.b
      rw [hf _ (by decide)]
      unfold Dev.ringUp
      rw [Dev.f_setF_other _ _ _ _ _ _ _ _ (by decide) (by decide), Dev.f_setB_other _ _ _ _ _ _ _ _ (by decide) (by decide),
        Dev.f_setF_other _ _ _ _ _ _ _ _ (by decide) (by decide)]
      exact Dev.b_setB_same s.dev F.RING_CTL_EN true st r rfl (by decide)
    · unfold Dev.rstate
      rw [ring_div _ _ hr, ring_mod _ _ hr, s.afterTwin_f _ _ _ _ rfl, hf _ (by decide)]
      exact Dev.f_setF_same _ _ _ _ _ (by decide)
    · unfold Dev.rci
      rw [ring_div _ _ hr, ring_mod _ _ hr, s.afterTwin_f _ _ _ _ rfl, hf _ (by decide)]
      unfold Dev.ringUp
      rw [Dev.f_setF_other _ _ _ _ _ _ _ _ (by decide) (by decide), Dev.f_setB_other _ _ _ _ _ _ _ _ (by decide) (by decide),
        Dev.f_setF_same _ _ _ _ _ (by decide)]
      exact Nat.mod_eq_of_lt (s.dev.f_lt F.RING_START_CI st r)
    · unfold Dev.rphase Dev.b
      rw [ring_div _ _ hr, ring_mod _ _ hr, s.afterTwin_f _ _ _ _ rfl, hf _ (by decide)]
      unfold Dev.ringUp
      rw [Dev.f_setF_other _ _ _ _ _ _ _ _ (by decide) (by decide)]
      exact Dev.b_setB_same _ F.RING_STATUS_PHASE true st r rfl (by decide)
    · rw [s.afterTwin_ring]
      unfold Dev.ring
      rw [(s.dev.ringEnable_disabled st r hr hidle).2, Tbl.look_put_same]
  · have hstep := exec_ringDisable s st r htakes
    rw [s.dev.wrRingCtl_en, if_neg (by decide), if_pos (by rw [hon]; rfl), s.dev.ringDisable_halted _ hhalted, ring_div _ _ hr,
      ring_mod _ _ hr] at hstep
    refine ⟨_, hstep, ?_, ?_, ?_⟩
    · rw [s.afterTwin_b _ _ _ _ rfl]
      unfold Dev.setRstate
      rw [Dev.b_setF_other _ _ _ _ _ _ _ _ (by decide) (by decide)]
      exact Dev.b_setB_same s.dev F.RING_CTL_EN false st r rfl (by decide)
    · unfold Dev.rstate Dev.setRstate
      rw [s.afterTwin_f _ _ _ _ rfl]
      exact Dev.f_setF_same _ _ _ _ _ (by decide)
    · rw [s.afterTwin_ring]
      exact Dev.ring_setRing_same (s.dev.setB F.RING_CTL_EN false st r) (8 * st + r) {}

end Sys2Proof.Machine
end

section
/-! SUPPORT. A message of a Stall to the manager, and its acknowledgement (R315). -/

namespace Sys2Proof.Machine

/-! ### Vectors -/

theorem Dev.changes_stallVec (d : Dev) (st e : Nat) (ks : RegKind → Bool) : d.changes ks (d.stallVec st e) := by
  have hpend : ∀ f : Fn, d.changes ks (d.setPendingBit f e true) := fun f => Dev.changes_of_eq rfl rfl rfl
  unfold Dev.stallVec Dev.stallMsg
  refine Dev.changes_ite _ (fun _ => ?_) (fun _ => hpend _)
  dsimp only
  exact Dev.changes_ite _ (fun _ => d.changes_refl) (fun _ => Dev.changes_ite _ (fun _ => Dev.changes_of_eq rfl rfl rfl) (fun _ => hpend _))

/-- A vector of the management PF. -/
theorem Dev.changes_sendMsix (d : Dev) (e : Nat) (ks : RegKind → Bool) : d.changes ks (d.sendMsix .mgmtPf e) := by
  unfold Dev.sendMsix
  refine Dev.changes_ite _ (fun _ => ?_) (fun _ => Dev.changes_of_eq rfl rfl rfl)
  exact (d.changes_emit (.msix .mgmtPf e)).trans (Dev.changes_of_eq rfl rfl rfl)

/-! ### SEND of a Stall -/

/-- The bits of MB_CTL that a SEND of length `len` names. -/
theorem sendWord_bit (len : BitVec 7) : (BitVec.ofNat 64 (2 * len.toNat + 1)).getLsbD 0 = true := by
  rw [BitVec.getLsbD_ofNat, Nat.testBit_zero]
  have hodd : (2 * len.toNat + 1) % 2 = 1 := by omega
  simp [hodd]

/-- A SEND of a Stall that is let through. -/
theorem exec_mailboxSend (s : State) (st : Fin 1024) (len : BitVec 7) (h : s.dev.takesStall st ⟨.mbCtl, st, 0⟩) :
    exec (.mailboxSend st len) s = .next (s.after
      (s.dev.wrMbCtl st (s.dev.poked ⟨.mbCtl, st, 0⟩ 0xFF (BitVec.ofNat 64 (2 * len.toNat + 1)))).twinUpdate) :=
  have hrsv : (0xFF : Word) &&& RegKind.mbCtl.info.rsv = 0 := by decide
  s.pokeStall_takes st ⟨.mbCtl, st, 0⟩ 0xFF _ h hrsv

/-- What names SEND and the length stores the length and sends; it acknowledges nothing. -/
theorem Dev.wrMbCtl_send (d : Dev) (st : Nat) (x : Word) (h : x.getLsbD 0 = true) :
    let v := d.poked ⟨.mbCtl, st, 0⟩ 0xFF x
    d.wrMbCtl st v = (d.storeReg ⟨.mbCtl, st, 0⟩ v).mbSend st (getBits v 1 7) := by
  have hwo : (RegKind.mbCtl.info.rw ||| RegKind.mbCtl.info.rws).getLsbD 10 = false := by decide
  have hsend : getBits (d.poked ⟨.mbCtl, st, 0⟩ 0xFF x) 0 1 = 1 := by
    rw [getBits_one, d.poked_bit_named _ _ _ 0 (by decide) (by decide), h]
    rfl
  have hack : getBits (d.poked ⟨.mbCtl, st, 0⟩ 0xFF x) 10 1 = 0 := by
    rw [getBits_one, d.poked_bit_unstored ⟨.mbCtl, st, 0⟩ _ _ 10 (by decide) (by decide) hwo]
    rfl
  unfold Dev.wrMbCtl
  dsimp only
  rw [hsend, hack, if_pos rfl, if_neg (by decide)]

/-- OUT_BUSY is the device's own bit. -/
theorem Dev.storeReg_outBusy (d : Dev) (st : Nat) (v : Word) :
    (d.storeReg ⟨.mbCtl, st, 0⟩ v).b F.MB_CTL_OUT_BUSY st = d.b F.MB_CTL_OUT_BUSY st := by
  have hbit := d.storeReg_bit ⟨.mbCtl, st, 0⟩ v 8 (by decide)
  have h1 : RegKind.mbCtl.info.rw.getLsbD 8 = false := by decide
  have h2 : RegKind.mbCtl.info.rws.getLsbD 8 = false := by decide
  have h3 : RegKind.mbCtl.info.w1c.getLsbD 8 = false := by decide
  have h4 : RegKind.mbCtl.info.w1s.getLsbD 8 = false := by decide
  rw [Dev.b_eq_getLsbD _ _ _ _ rfl, Dev.b_eq_getLsbD _ _ _ _ rfl]
  refine hbit.trans ?_
  simp only [h1, h2, h3, h4, Bool.or_false, Bool.not_false, Bool.and_true, Bool.and_false]
  rfl

/-- The registers that a SEND which finds OUT_BUSY set writes. -/
def RegKind.sendRefused (k : RegKind) : Bool := k == .mbCtl || k == .stallStatus

/-- The registers that a SEND writes. -/
def RegKind.sendTaken (k : RegKind) : Bool := k == .mbCtl || k == .mbMgrCtl || k == .mbPending

theorem Dev.changes_storeReg (d : Dev) (r : RegId) (v : Word) (ks : RegKind → Bool) (h : ks r.kind = true) : d.changes ks (d.storeReg r v) :=
  (d.changes_setReg r.kind _ r.i r.j h).trans (Dev.changes_of_eq rfl rfl rfl)

/-- With OUT_BUSY set a SEND is discarded with CFG_ERR. -/
theorem Dev.mbSend_busy (d : Dev) (st len : Nat) (h : d.b F.MB_CTL_OUT_BUSY st = true) :
    d.mbSend st len = (d.setF F.MB_CTL_OUT_LEN len st).cfgErr st := if_pos h

/-- With OUT_BUSY clear a SEND sets it, OUT_PEND and the bit of MB_PENDING. -/
theorem Dev.mbSend_free (d : Dev) (st len : Nat) (h : d.b F.MB_CTL_OUT_BUSY st = false) :
    d.mbSend st len = ((((d.setF F.MB_CTL_OUT_LEN len st).setB F.MB_CTL_OUT_BUSY true st).setB F.MB_MGR_CTL_OUT_PEND true st).setF
      F.MB_MGR_CTL_OUT_LEN (mbLen len) st).mbPend st true := if_neg (by simp [h])

/-- CFG_ERR is set, and a vector sent for it changes no register. -/
theorem Dev.cfgErr_changes (d : Dev) (st : Nat) (ks : RegKind → Bool) : (d.setB F.STALL_STATUS_CFG_ERR true st).changes ks (d.cfgErr st) :=
  Dev.changes_stallVec _ _ _ ks

/-- A Stall's bit of MB_PENDING set. -/
theorem Dev.mbPend_changes (d : Dev) (st : Nat) (ks : RegKind → Bool) :
    (d.setB ⟨.mbPending, st % 64, 1⟩ true (st / 64)).changes ks (d.mbPend st true) := by
  unfold Dev.mbPend
  exact Dev.changes_ite _ (fun _ => Dev.changes_sendMsix _ _ ks) (fun _ => Dev.changes_refl _)

/-- What a SEND that finds OUT_BUSY set leaves: CFG_ERR set, OUT_BUSY as it was, no message. -/
theorem Dev.mbSend_refused (d : Dev) (st len : Nat) (h : d.b F.MB_CTL_OUT_BUSY st = true) :
    (d.mbSend st len).b F.STALL_STATUS_CFG_ERR st = true ∧ (d.mbSend st len).b F.MB_CTL_OUT_BUSY st = true
      ∧ d.changes RegKind.sendRefused (d.mbSend st len) := by
  rw [d.mbSend_busy st len h]
  have hvec := fun ks => (d.setF F.MB_CTL_OUT_LEN len st).cfgErr_changes st ks
  refine ⟨?_, ?_, ?_⟩
  · rw [(hvec (fun _ => false)).b _ _ _ rfl]
    exact Dev.b_setB_same _ _ _ _ _ rfl (by decide)
  · rw [(hvec (fun _ => false)).b _ _ _ rfl, Dev.b_setB_other _ _ _ _ _ _ _ _ (by decide) (by decide),
      Dev.b_setF_other _ _ _ _ _ _ _ _ (by decide) (by decide), h]
  · exact ((d.changes_setF _ _ _ _ rfl).trans (Dev.changes_setB _ _ _ _ _ rfl)).trans (hvec _)

/-- What a SEND leaves: OUT_BUSY, OUT_PEND and the Stall's bit of MB_PENDING. -/
theorem Dev.mbSend_taken (d : Dev) (st len : Nat) (h : d.b F.MB_CTL_OUT_BUSY st = false) :
    (d.mbSend st len).b F.MB_CTL_OUT_BUSY st = true ∧ (d.mbSend st len).b F.MB_MGR_CTL_OUT_PEND st = true
      ∧ ((d.mbSend st len).reg .mbPending (st / 64)).getLsbD (st % 64) = true := by
  have hbit : st % 64 + 1 ≤ 64 := Nat.mod_lt st (by decide)
  rw [d.mbSend_free st len h]
  have hvec := fun x : Dev => x.mbPend_changes st (fun _ => false)
  refine ⟨?_, ?_, ?_⟩
  · rw [(hvec _).b _ _ _ rfl, Dev.b_setB_other _ ⟨.mbPending, st % 64, 1⟩ F.MB_CTL_OUT_BUSY _ _ _ _ _ (.inl (show RegKind.mbCtl ≠ RegKind.mbPending by decide)) (by decide),
      Dev.b_setF_other _ _ _ _ _ _ _ _ (by decide) (by decide), Dev.b_setB_other _ _ _ _ _ _ _ _ (by decide) (by decide)]
    exact Dev.b_setB_same _ _ _ _ _ rfl (by decide)
  · rw [(hvec _).b _ _ _ rfl, Dev.b_setB_other _ ⟨.mbPending, st % 64, 1⟩ F.MB_MGR_CTL_OUT_PEND _ _ _ _ _
      (.inl (show RegKind.mbMgrCtl ≠ RegKind.mbPending by decide)) (by decide),
      Dev.b_setF_other _ _ _ _ _ _ _ _ (by decide) (by decide)]
    exact Dev.b_setB_same _ _ _ _ _ rfl (by decide)
  · rw [(hvec _).reg _ _ _ rfl, ← Dev.b_eq_getLsbD _ ⟨.mbPending, st % 64, 1⟩ _ _ rfl]
    exact Dev.b_setB_same _ _ _ _ _ rfl hbit

/-! ### ACK of the manager -/

/-- An ACK of the manager that is let through. -/
theorem exec_mailboxMgrAck (s : State) (st : Fin 1024) (h : s.dev.takes ⟨.mbMgrCtl, st, 0⟩) :
    exec (.mailboxMgrAck st) s = .next (s.after (s.dev.wrMbMgrCtl st (s.dev.poked ⟨.mbMgrCtl, st, 0⟩ 0x400 0x400)).twinUpdate) :=
  have hrsv : (0x400 : Word) &&& RegKind.mbMgrCtl.info.rsv = 0 := by decide
  s.poke_takes ⟨.mbMgrCtl, st, 0⟩ 0x400 0x400 h hrsv

/-- What names ACK alone sends nothing and clears nothing else. -/
theorem Dev.wrMbMgrCtl_ack (d : Dev) (st : Nat) :
    let v := d.poked ⟨.mbMgrCtl, st, 0⟩ 0x400 0x400
    d.wrMbMgrCtl st v = (d.storeReg ⟨.mbMgrCtl, st, 0⟩ v).mbMgrAck st := by
  have hack : getBits (d.poked ⟨.mbMgrCtl, st, 0⟩ 0x400 0x400) 10 1 = 1 := by
    rw [getBits_one, d.poked_bit_named _ _ _ 10 (by decide) (by decide)]
    decide
  have hwo : ∀ n ∈ [0, 19], (RegKind.mbMgrCtl.info.rw ||| RegKind.mbMgrCtl.info.rws).getLsbD n = false := by decide
  have hsend : getBits (d.poked ⟨.mbMgrCtl, st, 0⟩ 0x400 0x400) 0 1 = 0 := by
    rw [getBits_one, d.poked_bit_unstored ⟨.mbMgrCtl, st, 0⟩ _ _ 0 (by decide) (by decide) (hwo 0 (by decide))]
    rfl
  have hclear : getBits (d.poked ⟨.mbMgrCtl, st, 0⟩ 0x400 0x400) 19 1 = 0 := by
    rw [getBits_one, d.poked_bit_unstored ⟨.mbMgrCtl, st, 0⟩ _ _ 19 (by decide) (by decide) (hwo 19 (by decide))]
    rfl
  unfold Dev.wrMbMgrCtl
  dsimp only
  rw [hack, hsend, hclear, if_pos rfl, if_neg (by decide), if_neg (by decide)]

/-- The manager's ACK clears OUT_BUSY and OUT_PEND. -/
theorem Dev.mbMgrAck_clears (d : Dev) (st : Nat) :
    (d.mbMgrAck st).b F.MB_CTL_OUT_BUSY st = false ∧ (d.mbMgrAck st).b F.MB_MGR_CTL_OUT_PEND st = false := by
  have hvec : ((d.setB F.MB_CTL_OUT_BUSY false st).setB F.MB_MGR_CTL_OUT_PEND false st).changes (fun _ => false) (d.mbMgrAck st) :=
    Dev.changes_stallVec _ _ _ _
  refine ⟨?_, ?_⟩
  · rw [hvec.b _ _ _ rfl, Dev.b_setB_other _ _ _ _ _ _ _ _ (by decide) (by decide)]
    exact Dev.b_setB_same _ _ _ _ _ rfl (by decide)
  · rw [hvec.b _ _ _ rfl]
    exact Dev.b_setB_same _ _ _ _ _ rfl (by decide)

/-- Settles O59: SEND by OUT_BUSY, and the manager's ACK. -/
theorem mailboxOut : Obligations.MailboxOut := by
  unfold Obligations.MailboxOut
  intro s st
  dsimp only
  refine ⟨fun len htakes hbusy => ?_, fun len htakes hfree => ?_, fun htakes => ?_⟩
  · have hstep := exec_mailboxSend s st len htakes
    rw [s.dev.wrMbCtl_send st _ (sendWord_bit len)] at hstep
    generalize s.dev.poked ⟨.mbCtl, st, 0⟩ 0xFF (BitVec.ofNat 64 (2 * len.toNat + 1)) = v at hstep
    obtain ⟨herr, hstill, hch⟩ := Dev.mbSend_refused (s.dev.storeReg ⟨.mbCtl, st, 0⟩ v) st (getBits v 1 7)
      ((s.dev.storeReg_outBusy st v).trans hbusy)
    have hall := (s.dev.changes_storeReg ⟨.mbCtl, st, 0⟩ v RegKind.sendRefused rfl).trans hch
    refine ⟨_, hstep, ?_, ?_, ?_, fun i => ?_⟩
    · rw [s.afterTwin_b _ _ _ _ rfl, herr]
    · rw [s.afterTwin_b _ _ _ _ rfl, hstill]
    · rw [s.afterTwin_reg _ _ _ _ rfl, hall.reg _ _ _ rfl]
    · rw [s.afterTwin_reg _ _ _ _ rfl, hall.reg _ _ _ rfl]
  · have hstep := exec_mailboxSend s st len htakes
    rw [s.dev.wrMbCtl_send st _ (sendWord_bit len)] at hstep
    generalize s.dev.poked ⟨.mbCtl, st, 0⟩ 0xFF (BitVec.ofNat 64 (2 * len.toNat + 1)) = v at hstep
    obtain ⟨hout, hmgr, hpend⟩ := Dev.mbSend_taken (s.dev.storeReg ⟨.mbCtl, st, 0⟩ v) st (getBits v 1 7)
      ((s.dev.storeReg_outBusy st v).trans hfree)
    refine ⟨_, hstep, ?_, ?_, ?_⟩
    · rw [s.afterTwin_b _ _ _ _ rfl, hout]
    · rw [s.afterTwin_b _ _ _ _ rfl, hmgr]
    · rw [s.afterTwin_reg _ _ _ _ rfl, hpend]
  · have hstep := exec_mailboxMgrAck s st htakes
    rw [s.dev.wrMbMgrCtl_ack st] at hstep
    obtain ⟨hout, hmgr⟩ := Dev.mbMgrAck_clears (s.dev.storeReg ⟨.mbMgrCtl, st, 0⟩ (s.dev.poked ⟨.mbMgrCtl, st, 0⟩ 0x400 0x400)) st
    refine ⟨_, hstep, ?_, ?_⟩
    · rw [s.afterTwin_b _ _ _ _ rfl, hout]
    · rw [s.afterTwin_b _ _ _ _ rfl, hmgr]

end Sys2Proof.Machine
end

section
/-! SUPPORT. Two windows that match one address (R118), and what a Pitch checker decides (R247, R248). -/

namespace Sys2Proof.Machine

/-! ### Two windows -/

/-- Two windows match: a memory request does not resolve. -/
theorem Dev.resolveMem_twoWindows (s : Dev) (i q : Nat) (t : Tlp) (h : 2 ≤ (s.windowsAt q (t.addr.toNat / 4096)).length) :
    s.resolveMem i q t = .error .twoWindows := by
  unfold Dev.resolveMem
  match hw : s.windowsAt q (t.addr.toNat / 4096) with
  | [] => rw [hw] at h; simp at h
  | [_] => rw [hw] at h; simp at h
  | _ :: _ :: _ => rfl

/-- Nor does a read or a write that comes in at a port. -/
theorem Dev.resolve_twoWindows (s : Dev) (i q : Nat) (t : Tlp) (hi : i < 512) (ht : t.kind = .mrd ∨ t.kind = .mwr)
    (h : 2 ≤ (s.windowsAt q (t.addr.toNat / 4096)).length) : s.resolve i q t = .error .twoWindows := by
  unfold Dev.resolve
  rw [if_neg (show ¬ i = 1023 by omega)]
  rcases ht with ht | ht <;> rw [ht] <;> exact s.resolveMem_twoWindows i q t h

/-- A TLP that does not resolve reads no further word, so its lookup ends as the resolution does. -/
theorem Dev.lookup_twoWindows (s : Dev) (i q : Nat) (t : Tlp) (a b : Bool) (hout : s.outOf (66 + s.ingressHalf i) = false)
    (h : s.resolve i q t = .error .twoWindows) : s.lookup i q t a b = .error .twoWindows := by
  have hword : s.badFwd i q t = none := by
    unfold Dev.badFwd
    rw [h]
  unfold Dev.lookup
  rw [hword]
  dsimp only
  unfold Dev.lookupIn
  rw [if_neg (by rw [hout]; decide), h]
  rfl

/-- TLPs come in at an enabled USP or DSP whose link is active. -/
theorem Dev.hears_of (s : Dev) (p : Nat) (hen : s.b F.PORT_CTL_EN p = true) (hrole : s.role p < 2) (hdl : s.b F.PORT_STATUS_DL_ACTIVE p = true)
    (hlt : s.f F.PORT_STATUS_LTSSM p = 3 ∨ s.f F.PORT_STATUS_LTSSM p = 5) : s.hears p = true := by
  unfold Dev.hears
  simpa [hen, hrole, hdl] using hlt

/-- A TLP that is let in is looked up, and stops where the lookup does. -/
theorem Dev.tlpIn_twoWindows (s : Dev) (p : Nat) (t : Tlp) (shared : Bool) (hp : p < 512) (ht : t.kind = .mrd ∨ t.kind = .mwr)
    (hhears : s.hears p = true) (hep : t.ep = false) (hmal : s.malformed p t = false) (hopen : s.openedFrom p = none)
    (hout : s.outOf (66 + s.ingressHalf p) = false)
    (hroom : (s.pool p 0).covers (creditOf (clsOf t.kind) (b2n (shared && s.b F.PORT_STATUS_FLIT p))) (dataCredits t) = true)
    (hwin : 2 ≤ (s.windowsAt (s.partOf p) (t.addr.toNat / 4096)).length) : s.tlpIn p t shared = .error .twoWindows := by
  have hlock : ¬ t.kind = .mrdlk := by rcases ht with ht | ht <;> rw [ht] <;> decide
  have hlook : ∀ x : Pool, (s.setPool p 0 x).lookup p (s.partOf p) t false false = .error .twoWindows := fun x =>
    (s.setPool p 0 x).lookup_twoWindows p _ t _ _ hout ((s.setPool p 0 x).resolve_twoWindows p _ t hp ht hwin)
  unfold Dev.tlpIn
  simp only [hhears, hlock, hmal, hroom, hep, hopen, hlook, decide_false, Bool.false_and, Bool.not_true, Bool.or_false, Bool.false_eq_true,
    if_false]
  rfl

/-- Settles O44: what resolves by two windows does not resolve, and nothing comes before the lookup. That the arrival then stops is the model's
choice (log 97). -/
theorem twoWindowsStop : Obligations.TwoWindowsStop := by
  unfold Obligations.TwoWindowsStop
  intro s p t shared rx
  dsimp only
  intro hwhole ht hen hrole hdl hlt hep hmal hopen hout hroom hwin
  have hstop := (s.dev.rxErrors p rx).tlpIn_twoWindows p t shared p.isLt ht (Dev.hears_of _ _ hen hrole hdl hlt) hep hmal hopen hout hroom hwin
  show execTlpIngress p t shared rx s = _
  unfold execTlpIngress
  rw [hwhole]
  dsimp only
  rw [hstop]
  rfl

/-! ### Pitch checkers -/

section
variable (d : Dev) (c q k : Nat) (t : Tlp)

/-- A checker with CHECK_EN clear passes everything. -/
theorem Dev.verdict_off (h : d.b F.PITCH_CHK_CHECK_EN c = false) : d.verdict c q k t = (0, 0) := by
  unfold Dev.verdict
  rw [h]
  rfl

/-- A checker that checks goes by the Pitch, and by the default map for a privileged miss. -/
theorem Dev.verdict_on (h : d.b F.PITCH_CHK_CHECK_EN c = true) (hrun : d.outOf (76 + ingHalf c) = false) : d.verdict c q k t =
    let p := d.reg .pitch (d.f F.PITCH_CHK_TABLE c) k
    let m := d.reg .partDefmap q
    if p.getLsbD 0 then if !pitchAllows p t then (2, 1) else if p.getLsbD 9 && !privileged t then (2, 3) else (0, 0)
    else if !privileged t then (2, 0)
    else if m.getLsbD 0 && pitchAllows m t then (1, 0) else (2, 2) := by
  unfold Dev.verdict
  rw [h, hrun]
  rfl

end

/-- The three ways of a valid Pitch. -/
theorem Dev.verdict_valid (d : Dev) (c q k : Nat) (t : Tlp) (h : d.b F.PITCH_CHK_CHECK_EN c = true) (hrun : d.outOf (76 + ingHalf c) = false)
    (hp : (d.reg .pitch (d.f F.PITCH_CHK_TABLE c) k).getLsbD 0 = true) : d.verdict c q k t =
      if !pitchAllows (d.reg .pitch (d.f F.PITCH_CHK_TABLE c) k) t then (2, 1)
      else if (d.reg .pitch (d.f F.PITCH_CHK_TABLE c) k).getLsbD 9 && !privileged t then (2, 3) else (0, 0) :=
  (d.verdict_on c q k t h hrun).trans (if_pos hp)

/-- A miss: an invalid Pitch. -/
theorem Dev.verdict_miss (d : Dev) (c q k : Nat) (t : Tlp) (h : d.b F.PITCH_CHK_CHECK_EN c = true) (hrun : d.outOf (76 + ingHalf c) = false)
    (hp : (d.reg .pitch (d.f F.PITCH_CHK_TABLE c) k).getLsbD 0 = false) : d.verdict c q k t =
      if !privileged t then (2, 0)
      else if (d.reg .partDefmap q).getLsbD 0 && pitchAllows (d.reg .partDefmap q) t then (1, 0) else (2, 2) :=
  (d.verdict_on c q k t h hrun).trans (if_neg (by rw [hp]; decide))

/-- AT 3 allows nothing. -/
theorem pitchAllows_at3 (p : Word) (t : Tlp) (h : isMemReq t.kind = true ∨ t.kind = .xlatReq) (hat : t.atype = 3) : pitchAllows p t = false := by
  have hfield : atOf t = 3 := by
    unfold atOf
    rcases h with h | h <;> simp [h, hat]
  unfold pitchAllows
  rw [hfield]
  cases needBit (rtype t) <;> simp

/-- A memory write needs the WR bit, and for AT 2 the XLATED bit. -/
theorem pitchAllows_mwr (p : Word) (t : Tlp) (h : t.kind = .mwr) :
    pitchAllows p t = (p.getLsbD 2 && t.atype != 3 && (t.atype != 2 || p.getLsbD 8)) := by
  have hfield : atOf t = t.atype := by simp [atOf, h, isMemReq]
  have hneed : needBit (rtype t) = some 2 := by simp [rtype, h, needBit]
  unfold pitchAllows
  rw [hneed, hfield]

/-- AT of a message is 0. -/
theorem atOf_msg (t : Tlp) (h : t.kind = .msg) : atOf t = 0 := by simp [atOf, h, isMemReq]

/-- A routed message needs the MSG bit. -/
theorem pitchAllows_msg (p : Word) (t : Tlp) (h : t.kind = .msg) (hroute : t.route = .toRoot ∨ t.route = .byId ∨ t.route = .byAddr) :
    pitchAllows p t = p.getLsbD 7 := by
  have hneed : needBit (rtype t) = some 7 := by simp [rtype, h, hroute, needBit]
  unfold pitchAllows
  rw [hneed, atOf_msg t h]
  simp

/-- No bit allows a message that is local or broadcast. -/
theorem pitchAllows_msg_local (p : Word) (t : Tlp) (h : t.kind = .msg) (hroute : t.route = .terminate ∨ t.route = .broadcast) :
    pitchAllows p t = false := by
  have hneed : needBit (rtype t) = none := by
    rcases hroute with hr | hr <;> simp [rtype, h, hr, needBit]
  unfold pitchAllows
  rw [hneed]

/-- Settles O47: the checker that is off, a valid Pitch, a miss by privilege, and what a Pitch allows. -/
theorem pitchVerdicts : Obligations.PitchVerdicts := by
  unfold Obligations.PitchVerdicts
  intro d c q k t
  dsimp only
  refine ⟨d.verdict_off c q k t, fun hen hrun => ?_, pitchAllows_at3 _ t, pitchAllows_mwr _ t, pitchAllows_msg _ t, pitchAllows_msg_local _ t⟩
  have hvalid := d.verdict_valid c q k t hen hrun
  have hmiss := d.verdict_miss c q k t hen hrun
  refine ⟨fun hp hno => ?_, fun hp hall hpriv hun => ?_, fun hp hall hpass => ?_, fun hp hun => ?_, fun hp hpr hm hall => ?_,
    fun hp hpr hno => ?_⟩
  · rw [hvalid hp, hno]
    rfl
  · rw [hvalid hp, hall, hpriv, hun]
    rfl
  · rw [hvalid hp, hall]
    rcases hpass with h | h <;> rw [h] <;> simp
  · rw [hmiss hp, hun]
    rfl
  · rw [hmiss hp, hpr, hm, hall]
    rfl
  · rw [hmiss hp, hpr]
    rcases hno with h | h <;> rw [h] <;> simp

end Sys2Proof.Machine
end

section
/-! SUPPORT. A SAFE injection (R350, R338). -/

namespace Sys2Proof.Machine

/-! ### ERR_STATUS, SIGNALLED apart -/

/-- A field of ERR_STATUS beside SIGNALLED is as every bit of it beside SIGNALLED is. -/
theorem Dev.f_of_errBits {d t : Dev} {b : Nat} (h : ∀ n : Nat, n ≠ 6 → (t.reg .errStatus b).getLsbD n = (d.reg .errStatus b).getLsbD n)
    (f : Fld) (hk : f.kind = .errStatus) (hlo : f.lo + f.w ≤ 6) : t.f f b = d.f f b := by
  unfold Dev.f
  rw [hk]
  apply Nat.eq_of_testBit_eq
  intro k
  rw [testBit_getBits, testBit_getBits]
  by_cases hw : k < f.w
  · rw [h (f.lo + k) (by omega)]
  · simp [hw]

/-- A command's reporting leaves them. -/
theorem State.afterTwin_errF (s : State) (d : Dev) (b : Nat) (f : Fld) (hk : f.kind = .errStatus) (hlo : f.lo + f.w ≤ 6) :
    (s.after d.twinUpdate).dev.f f b = d.f f b := Dev.f_of_errBits (s.afterTwin_errBit d b) f hk hlo

/-- So does reporting within a command. -/
theorem Dev.onlyReports.errF {d t : Dev} (h : d.onlyReports t) (b : Nat) (f : Fld) (hk : f.kind = .errStatus) (hlo : f.lo + f.w ≤ 6) :
    t.f f b = d.f f b := by
  obtain ⟨-, herr, -⟩ := h
  refine Dev.f_of_errBits (fun n hn => ?_) f hk hlo
  have hbit := congrArg (fun x : Word => x.getLsbD n) (herr b)
  have h40 : (0x40 : Word).getLsbD n = false := by
    show (2 ^ 6 : Nat).testBit n = false
    rw [Nat.testBit_two_pow]
    simp [Ne.symm hn]
  simpa only [BitVec.getLsbD_or, h40, Bool.or_false] using hbit

/-! ### The injection -/

/-- A SAFE injection that is let through. -/
theorem exec_injectSafe (s : State) (b : Fin 88) (h : s.dev.takes ⟨.errInject, b, 0⟩) :
    exec (.injectSafe b) s = .next (s.after (s.dev.wrInject b 8).twinUpdate) := by
  have hrsv : (8 : BitVec 32).zeroExtend 64 &&& RegKind.errInject.info.rsv = 0 := by decide
  exact s.write32_takes ⟨.errInject, b, 0⟩ 8 h hrsv

/-- Outside MANUFACTURE or without TEST_MODE an injection is an internal error. -/
theorem Dev.wrInject_refused (d : Dev) (b : Nat) (h : d.lifecycle ≠ 0 ∨ d.rst.testMode = false) : d.wrInject b 8 = d.intErr b := by
  have hmay : d.mayInject = false := by
    unfold Dev.mayInject
    rcases h with h | h <;> simp [h]
  unfold Dev.wrInject
  rw [hmay]
  rfl

/-- In MANUFACTURE with TEST_MODE a SAFE injection arms nothing and sends the block to its safe state. -/
theorem Dev.wrInject_safe (d : Dev) (b : Nat) (hlc : d.lifecycle = 0) (htest : d.rst.testMode = true) :
    ∃ e : Tbl ErrSt, d.wrInject b 8 = ({ d with errs := e } : Dev).enterSafe b 4 := by
  have hmay : d.mayInject = true := by
    unfold Dev.mayInject
    rw [hlc, htest]
    rfl
  unfold Dev.wrInject
  rw [hmay]
  exact ⟨_, rfl⟩

/-- A block noted as in its safe state, and as the first one where none was. -/
def Dev.noteSafe (d : Dev) (b cause : Nat) : Dev :=
  let s1 := (d.setB F.ERR_STATUS_SAFE true b).setF F.ERR_STATUS_SAFE_CAUSE cause b
  if s1.b F.FLT_STATUS_FIRST_VALID then s1 else (s1.setF F.FLT_STATUS_FIRST_BLOCK b).setB F.FLT_STATUS_FIRST_VALID true

/-- The blocks whose safe state asks nothing of their logic. -/
def quietBlocks : List Nat := [32, 33, 66, 67, 70, 71, 76, 77, 87]

theorem Dev.safeAct_quiet (d : Dev) (b : Nat) (u : Option Nat) (hb : b ∈ quietBlocks) : d.safeAct b u = d := by
  have hall : b = 32 ∨ b = 33 ∨ b = 66 ∨ b = 67 ∨ b = 70 ∨ b = 71 ∨ b = 76 ∨ b = 77 ∨ b = 87 := by simpa [quietBlocks] using hb
  rcases hall with rfl | rfl | rfl | rfl | rfl | rfl | rfl | rfl | rfl <;> rfl

theorem Dev.enterSafe_quiet (d : Dev) (b cause : Nat) (hb : b ∈ quietBlocks) (h : d.safe b = false) :
    d.enterSafe b cause = (d.noteSafe b cause).aerU .mgmtPf AER.uncorrectableInternal := by
  unfold Dev.enterSafe
  rw [if_neg (by rw [h]; decide)]
  dsimp only
  rw [Dev.safeAct_quiet _ _ _ hb]
  rfl

/-! ### What is noted -/

section
variable (d : Dev) (b cause : Nat)

/-- The two fields of ERR_STATUS after SAFE and SAFE_CAUSE have been set. -/
theorem Dev.safe_noteSafe : (d.noteSafe b cause).safe b = true := by
  have hset : ((d.setB F.ERR_STATUS_SAFE true b).setF F.ERR_STATUS_SAFE_CAUSE cause b).b F.ERR_STATUS_SAFE b = true := by
    rw [Dev.b_setF_other _ _ _ _ _ _ _ _ (by decide) (by decide)]
    exact Dev.b_setB_same _ _ _ _ _ rfl (by decide)
  unfold Dev.safe Dev.noteSafe
  dsimp only
  split
  · exact hset
  · rw [Dev.b_setB_other _ _ _ _ _ _ _ _ (by decide) (by decide), Dev.b_setF_other _ _ _ _ _ _ _ _ (by decide) (by decide), hset]

theorem Dev.cause_noteSafe : (d.noteSafe b cause).f F.ERR_STATUS_SAFE_CAUSE b = cause % 8 := by
  have hset : ((d.setB F.ERR_STATUS_SAFE true b).setF F.ERR_STATUS_SAFE_CAUSE cause b).f F.ERR_STATUS_SAFE_CAUSE b = cause % 8 :=
    Dev.f_setF_same _ _ _ _ _ (by decide)
  unfold Dev.noteSafe
  dsimp only
  split
  · exact hset
  · rw [Dev.f_setB_other _ _ _ _ _ _ _ _ (by decide) (by decide), Dev.f_setF_other _ _ _ _ _ _ _ _ (by decide) (by decide), hset]

/-- Setting SAFE and SAFE_CAUSE leaves FLT_STATUS. -/
theorem Dev.flt_noted (f : Fld) (hk : f.kind = .fltStatus) (i : Nat) :
    ((d.setB F.ERR_STATUS_SAFE true b).setF F.ERR_STATUS_SAFE_CAUSE cause b).f f i = d.f f i := by
  unfold Dev.f
  rw [hk, Dev.reg_setF_ne _ _ _ _ _ _ _ _ (.inl (by decide)), Dev.reg_setB_ne _ _ _ _ _ _ _ _ (.inl (by decide))]

theorem Dev.firstValid_noteSafe : (d.noteSafe b cause).b F.FLT_STATUS_FIRST_VALID = true := by
  unfold Dev.noteSafe
  dsimp only
  split
  · next h => exact h
  · exact Dev.b_setB_same _ _ _ _ _ rfl (by decide)

theorem Dev.firstBlock_noteSafe (hb : b < 128) : (d.noteSafe b cause).f F.FLT_STATUS_FIRST_BLOCK =
    if d.b F.FLT_STATUS_FIRST_VALID then d.f F.FLT_STATUS_FIRST_BLOCK else b := by
  have hvalid : ((d.setB F.ERR_STATUS_SAFE true b).setF F.ERR_STATUS_SAFE_CAUSE cause b).b F.FLT_STATUS_FIRST_VALID =
      d.b F.FLT_STATUS_FIRST_VALID := by
    unfold Dev.b
    rw [d.flt_noted b cause _ rfl]
  unfold Dev.noteSafe
  dsimp only
  rw [hvalid]
  split
  · exact d.flt_noted b cause _ rfl 0
  · rw [Dev.f_setB_other _ _ _ _ _ _ _ _ (by decide) (by decide), Dev.f_setF_same _ _ _ _ _ (by decide)]
    exact Nat.mod_eq_of_lt hb

/-- No other register than FLT_STATUS and ERR_STATUS is written. -/
theorem Dev.changes_noteSafe : d.changes (fun k => k == .fltStatus || k.reports) (d.noteSafe b cause) := by
  have hset := (d.changes_setB (ks := fun k => k == .fltStatus || k.reports) F.ERR_STATUS_SAFE true b 0 rfl).trans
    (Dev.changes_setF _ F.ERR_STATUS_SAFE_CAUSE cause b 0 rfl)
  unfold Dev.noteSafe
  exact Dev.changes_ite _ (fun _ => hset) (fun _ => (hset.trans (Dev.changes_setF _ _ _ _ _ rfl)).trans (Dev.changes_setB _ _ _ _ _ rfl))

end

/-- Settles O49: an injection by MANUFACTURE and TEST_MODE, and what the nine quiet blocks' entry notes. -/
theorem safeInjections : Obligations.SafeInjections := by
  unfold Obligations.SafeInjections
  intro s b
  dsimp only
  intro htakes
  have hstep := exec_injectSafe s b htakes
  constructor
  · intro hno
    rw [hstep, s.dev.wrInject_refused b hno]
  · intro hb hlc htest hsafe
    obtain ⟨e, he⟩ := s.dev.wrInject_safe b hlc htest
    rw [he, Dev.enterSafe_quiet ({ s.dev with errs := e } : Dev) b 4 hb hsafe] at hstep
    have haer := Dev.reports_aerU (({ s.dev with errs := e } : Dev).noteSafe b 4) AER.uncorrectableInternal
    have hall := haer.changes
    refine ⟨_, hstep, ?_, ?_, ?_, ?_, fun k i j hk hrep => ?_⟩
    · show (_ : Dev).b F.ERR_STATUS_SAFE b = true
      unfold Dev.b
      rw [s.afterTwin_errF _ _ _ rfl (by decide), haer.errF _ _ rfl (by decide)]
      exact Dev.safe_noteSafe _ _ _
    · rw [s.afterTwin_errF _ _ _ rfl (by decide), haer.errF _ _ rfl (by decide), Dev.cause_noteSafe]
    · rw [s.afterTwin_b _ _ _ _ rfl, hall.b _ _ _ rfl, Dev.firstValid_noteSafe]
    · rw [s.afterTwin_f _ _ _ _ rfl, hall.f _ _ _ rfl, Dev.firstBlock_noteSafe _ _ _ (by omega)]
      rfl
    · rw [s.afterTwin_reg _ _ _ _ hrep, hall.reg _ _ _ hrep, (Dev.changes_noteSafe _ _ _).reg _ _ _ (by simp [hk, hrep])]
      rfl

end Sys2Proof.Machine
end

section
/-! SUPPORT. Who is in charge: the loss of heartbeats and serial-number votes (R393, R394, R402). -/

namespace Sys2Proof.Machine

/-! ### The standby takes charge -/

/-- What an access is answered that ends as to a domain in reset. -/
def Dev.resetAnswer (d : Dev) (a : Access) : Dev :=
  let v : BitVec 64 := if a.wide then 0xFFFFFFFFFFFFFFFF else 0xFFFFFFFF
  match a.door with
  | .mgmtPf => if a.write then d else if a.odd.isSome then d.emit (.readBytes (List.replicate a.bytes 0xFF)) else d.emit (.readData v)
  | .debug => if a.write then d else d.emit (.debugData (List.replicate a.bytes 0xFF))
  | .i3c =>
    let m := { d.mgmt with winBusy := false, winErr := true }
    { d with mgmt := if a.write then m else { m with winLo := v.truncate 32, winHi := if a.wide then 0xFFFFFFFF else 0 } }
  | .controller => d

/-- Such an access sets the internal error bit of the block that it names, if it names one, and is answered. -/
theorem Dev.endInReset_named (d : Dev) (a : Access) (b : Nat) (h : d.accessBlock a = some b) :
    d.endInReset a = (d.intErr b).resetAnswer a := by
  unfold Dev.endInReset
  rw [h]
  rfl

theorem Dev.endInReset_none (d : Dev) (a : Access) (h : d.accessBlock a = none) : d.endInReset a = d.resetAnswer a := by
  unfold Dev.endInReset
  rw [h]
  rfl

theorem Dev.changes_resetAnswer (d : Dev) (a : Access) (ks : RegKind → Bool) : d.changes ks (d.resetAnswer a) := by
  unfold Dev.resetAnswer
  dsimp only
  split
  · exact Dev.changes_ite _ (fun _ => d.changes_refl) (fun _ => Dev.changes_ite _ (fun _ => d.changes_emit _) (fun _ => d.changes_emit _))
  · exact Dev.changes_ite _ (fun _ => d.changes_refl) (fun _ => d.changes_emit _)
  · exact Dev.changes_of_eq rfl rfl rfl
  · exact d.changes_refl

theorem Dev.changes_endInReset (d : Dev) (a : Access) : d.changes RegKind.reports (d.endInReset a) := by
  match h : d.accessBlock a with
  | none =>
    rw [d.endInReset_none a h]
    exact d.changes_resetAnswer a _
  | some b =>
    rw [d.endInReset_named a b h]
    exact (d.changes_setB F.ERR_STATUS_INT_ERR true b 0 rfl).trans (Dev.changes_resetAnswer _ a _)

theorem Dev.changes_dropAccesses (d : Dev) : d.changes RegKind.reports d.dropAccesses := by
  have hnone : d.changes RegKind.reports { d with mgmt := { d.mgmt with slots := [], waiting := [], winAcc := none } } :=
    Dev.changes_of_eq rfl rfl rfl
  exact hnone.trans (Dev.changes_foldl Dev.endInReset Dev.changes_endInReset _ _)

/-- Half `h` in charge by takeover. -/
def Dev.takesCharge (d : Dev) (h : Nat) : Dev :=
  ((d.setF F.ROLE_STATUS_IN_CHARGE h).setB F.ROLE_STATUS_TAKEOVER true).setB F.ROLE_STATUS_STANDBY_OK false

/-- The half in charge by takeover, its queue with its first record. -/
def Dev.tookOver (d : Dev) : Dev :=
  ({ d.dropAccesses.takesCharge (1 - d.ic) with evq := { alert := false } } : Dev).post 0x03 0 [BitVec.ofNat 32 (1 - d.ic)]

theorem Dev.changes_tookOver (d : Dev) : (d.dropAccesses.takesCharge (1 - d.ic)).changes RegKind.reports d.tookOver :=
  (Dev.changes_of_eq rfl rfl rfl).trans (Dev.changes_post _ _ _ _)

/-- A takeover writes ROLE_STATUS. -/
theorem Dev.changes_takesCharge (d : Dev) (h : Nat) : d.changes (RegKind.only .roleStatus) (d.takesCharge h) :=
  ((d.changes_setF _ _ _ _ rfl).trans (Dev.changes_setB _ _ _ _ _ rfl)).trans (Dev.changes_setB _ _ _ _ _ rfl)

/-- A boot that had not ended starts over. -/
def Dev.bootOver (d : Dev) : Dev :=
  if d.f F.BOOT_STATUS_STAGE < 4 then
    { d.setF F.BOOT_STATUS_STAGE 2 with rst := { d.rst with image := none, sections := [], recIdx := 0, delaying := false } }
  else d

/-- While no pass is under way a takeover goes on to the boot alone. -/
theorem Dev.takeover_idle (d : Dev) (h : d.b F.TALLY_CTL_BUSY = false) : d.takeover = d.tookOver.bootOver := by
  have hpass : d.tookOver.b F.TALLY_CTL_BUSY = false := by
    rw [d.changes_tookOver.b _ _ _ rfl, (Dev.changes_takesCharge _ _).b _ _ _ rfl, d.changes_dropAccesses.b _ _ _ rfl, h]
  have htake : d.takeover = (if d.tookOver.b F.TALLY_CTL_BUSY then d.tookOver.tallyAbandon.tallyStart else d.tookOver).bootOver := rfl
  rw [htake, if_neg (by rw [hpass]; decide)]

theorem Dev.bootOver_roles (d : Dev) : d.bootOver.reg .roleStatus 0 = d.reg .roleStatus 0 ∧ d.bootOver.rst.elected = d.rst.elected := by
  unfold Dev.bootOver
  split
  · exact ⟨d.reg_setF_ne F.BOOT_STATUS_STAGE 2 0 0 _ 0 0 (.inl (by decide)), rfl⟩
  · exact ⟨rfl, rfl⟩

/-- ROLE_STATUS after a takeover, and whether the roles are known. -/
theorem Dev.takeover_roles (d : Dev) (h : d.b F.TALLY_CTL_BUSY = false) :
    d.takeover.reg .roleStatus 0 = (d.dropAccesses.takesCharge (1 - d.ic)).reg .roleStatus 0 ∧ d.takeover.rst.elected = d.rst.elected := by
  have hrst : d.tookOver.rst = d.rst :=
    (d.changes_tookOver.rst.trans (Dev.changes_takesCharge _ _).rst).trans d.changes_dropAccesses.rst
  obtain ⟨hreg, hel⟩ := d.tookOver.bootOver_roles
  rw [d.takeover_idle h]
  exact ⟨hreg.trans (d.changes_tookOver.reg _ _ _ rfl), hel.trans (congrArg ResetSt.elected hrst)⟩

section
variable (d : Dev) (h : d.b F.TALLY_CTL_BUSY = false)
include h

/-- A field of ROLE_STATUS after a takeover. -/
theorem Dev.f_takeover (f : Fld) (hk : f.kind = .roleStatus) : d.takeover.f f = (d.dropAccesses.takesCharge (1 - d.ic)).f f := by
  unfold Dev.f
  rw [hk, (d.takeover_roles h).1]

theorem Dev.b_takeover (f : Fld) (hk : f.kind = .roleStatus) : d.takeover.b f = (d.dropAccesses.takesCharge (1 - d.ic)).b f := by
  unfold Dev.b
  rw [d.f_takeover h f hk]

/-- The other half is in charge. -/
theorem Dev.ic_takeover : d.takeover.ic = 1 - d.ic := by
  unfold Dev.ic
  rw [d.f_takeover h _ rfl]
  unfold Dev.takesCharge
  rw [Dev.f_setB_other _ _ _ _ _ _ _ _ (by decide) (by decide), Dev.f_setB_other _ _ _ _ _ _ _ _ (by decide) (by decide),
    Dev.f_setF_same _ _ _ _ _ (by decide)]
  have hlt : 1 - d.ic < 2 := by omega
  exact Nat.mod_eq_of_lt hlt

theorem Dev.takeover_takeover : d.takeover.b F.ROLE_STATUS_TAKEOVER = true := by
  rw [d.b_takeover h _ rfl]
  unfold Dev.takesCharge
  rw [Dev.b_setB_other _ _ _ _ _ _ _ _ (by decide) (by decide)]
  exact Dev.b_setB_same _ _ _ _ _ rfl (by decide)

theorem Dev.standbyOk_takeover : d.takeover.b F.ROLE_STATUS_STANDBY_OK = false := by
  rw [d.b_takeover h _ rfl]
  exact Dev.b_setB_same _ _ _ _ _ rfl (by decide)

/-- A field of ROLE_STATUS beside those that a takeover writes stays. -/
theorem Dev.takeover_field (f : Fld) (hk : f.kind = .roleStatus) (hlo : 1 ≤ f.lo) (hhi : f.lo + f.w ≤ 7) : d.takeover.f f = d.f f := by
  rw [d.f_takeover h f hk]
  unfold Dev.takesCharge
  rw [Dev.f_setB_other _ F.ROLE_STATUS_STANDBY_OK f _ _ _ _ _ (.inr (.inl hhi)) (by omega),
    Dev.f_setB_other _ F.ROLE_STATUS_TAKEOVER f _ _ _ _ _ (.inr (.inl (Nat.le_succ_of_le hhi))) (by omega),
    Dev.f_setF_other _ F.ROLE_STATUS_IN_CHARGE f _ _ _ _ _ (.inr (.inr hlo)) (by omega), d.changes_dropAccesses.f f 0 0 (by rw [hk]; rfl)]

end

/-! ### The loss of heartbeats -/

/-- The standby claims: the roles are known, no STANDOFF, and its controller runs. -/
theorem Dev.heartbeatLost_claims (d : Dev) (disputed : Bool) (hel : d.rst.elected = true) (hso : d.b F.ROLE_STATUS_STANDOFF = false)
    (hdev : d.rst.deviceSafe = false) (hsafe : d.safe (83 - d.ic) = false) (hbusy : d.rst.blockBusy ≠ some (83 - d.ic)) :
    d.heartbeatLost disputed = if disputed then (d.setB F.ROLE_STATUS_STANDOFF true).alertUpdate else d.takeover := by
  unfold Dev.heartbeatLost
  simp [hel, hso, hdev, hsafe, hbusy]

/-- A standby whose controller is stopped or in reset claims nothing. -/
theorem Dev.heartbeatLost_silent (d : Dev) (disputed : Bool) (h : d.safe (83 - d.ic) = true ∨ d.rst.blockBusy = some (83 - d.ic)) :
    d.heartbeatLost disputed = d := by
  unfold Dev.heartbeatLost
  rcases h with h | h <;> simp [h]

/-- Settles O50: the claim in dispute, the takeover, and no claim. -/
theorem heartbeatLossMovesTheRole : Obligations.HeartbeatLossMovesTheRole := by
  unfold Obligations.HeartbeatLossMovesTheRole
  intro s
  dsimp only
  have hexec : ∀ x, exec (.halfHeartbeatLoss x) s = .next (s.after (s.dev.heartbeatLost x).twinUpdate) := fun _ => rfl
  refine ⟨fun hel hso hdev hsafe hbusy => ⟨?_, fun hpass => ?_⟩, fun x h => ?_⟩
  · have hstep := hexec true
    rw [s.dev.heartbeatLost_claims true hel hso hdev hsafe hbusy, if_pos rfl] at hstep
    refine ⟨_, hstep, ?_, ?_⟩
    · rw [s.afterTwin_b _ _ _ _ rfl, (Dev.changes_alertUpdate _).b _ _ _ rfl]
      exact Dev.b_setB_same _ _ _ _ _ rfl (by decide)
    · unfold Dev.ic
      rw [s.afterTwin_f _ _ _ _ rfl, (Dev.changes_alertUpdate _).f _ _ _ rfl, Dev.f_setB_other _ _ _ _ _ _ _ _ (by decide) (by decide)]
  · have hstep := hexec false
    rw [s.dev.heartbeatLost_claims false hel hso hdev hsafe hbusy, if_neg (by decide)] at hstep
    refine ⟨_, hstep, ?_, ?_, ?_, ?_⟩
    · exact (s.afterTwin_f _ F.ROLE_STATUS_IN_CHARGE _ _ rfl).trans (s.dev.ic_takeover hpass)
    · rw [s.afterTwin_b _ _ _ _ rfl, s.dev.takeover_takeover hpass]
    · rw [s.afterTwin_b _ _ _ _ rfl, s.dev.standbyOk_takeover hpass]
    · rw [s.afterTwin_b _ _ _ _ rfl, ← hso]
      unfold Dev.b
      rw [s.dev.takeover_field hpass _ rfl (by decide) (by decide)]
  · rw [hexec x, s.dev.heartbeatLost_silent x h]

/-! ### Serial-number votes -/

/-- A vote with both numbers sent, answered and unequal succeeds. -/
theorem Dev.serialVote_won (d : Dev) (hso : d.b F.ROLE_STATUS_STANDOFF = true) (hdev : d.rst.deviceSafe = false) (hw : d.rst.shadowW = some true)
    (he : d.rst.shadowE = some true) (hne : d.reg .dieSerial 0 ≠ d.reg .dieSerial 1) :
    d.serialVote true true true = d.voteWon (if (d.reg .dieSerial 0).toNat < (d.reg .dieSerial 1).toNat then 0 else 1) 1 := by
  unfold Dev.serialVote
  simp [hso, hdev, hw, he, hne]

/-- A vote with a number not sent, none answered, or equal numbers fails. -/
theorem Dev.serialVote_lost (d : Dev) (w e a : Bool) (hso : d.b F.ROLE_STATUS_STANDOFF = true) (hdev : d.rst.deviceSafe = false)
    (h : w = false ∨ e = false ∨ a = false ∨ d.reg .dieSerial 0 = d.reg .dieSerial 1) : d.serialVote w e a = d.voteLost := by
  unfold Dev.serialVote
  rcases h with h | h | h | h <;> simp [hso, hdev, h]

/-- IN_CHARGE is one bit: a half that is not in charge is the other one. -/
theorem Dev.other_ic (d : Dev) (w : Nat) (hw : w < 2) (h : d.ic ≠ w) : 1 - d.ic = w := by
  have hic : d.ic < 2 := d.f_lt F.ROLE_STATUS_IN_CHARGE 0 0
  omega

/-- STANDOFF ended by a vote by serial number. -/
def Dev.voted (d : Dev) (by' : Nat) : Dev := (d.setF F.ROLE_STATUS_VOTE_BY by').setB F.ROLE_STATUS_STANDOFF false

theorem Dev.voteBy_voted (d : Dev) : (d.voted 1).f F.ROLE_STATUS_VOTE_BY = 1 := by
  unfold Dev.voted
  rw [Dev.f_setB_other _ _ _ _ _ _ _ _ (by decide) (by decide), Dev.f_setF_same _ _ _ _ _ (by decide)]
  rfl

theorem Dev.standoff_voted (d : Dev) : (d.voted 1).f F.ROLE_STATUS_STANDOFF = 0 := Dev.f_setF_same _ _ _ _ _ (by decide)

theorem Dev.ic_voted (d : Dev) : (d.voted 1).ic = d.ic := by
  unfold Dev.ic Dev.voted
  rw [Dev.f_setB_other _ _ _ _ _ _ _ _ (by decide) (by decide), Dev.f_setF_other _ _ _ _ _ _ _ _ (by decide) (by decide)]

/-- The half of the vote is in charge: it was, it takes over, or the roles become known with it. -/
theorem Dev.voteWon_roles (d : Dev) (w : Nat) (hw : w < 2) (hpass : d.rst.elected = false ∨ d.b F.TALLY_CTL_BUSY = false) :
    (d.voteWon w 1).ic = w ∧ (d.voteWon w 1).f F.ROLE_STATUS_VOTE_BY = 1 ∧ (d.voteWon w 1).f F.ROLE_STATUS_STANDOFF = 0
      ∧ (d.voteWon w 1).rst.elected = true := by
  have hset : d.voteWon w 1 = if d.rst.elected then (if d.ic = w then (d.voted 1).alertUpdate else (d.voted 1).takeover)
      else { ((d.voted 1).setF F.ROLE_STATUS_IN_CHARGE w).setF F.BOOT_STATUS_STAGE 2 with rst := { (d.voted 1).rst with elected := true } } := rfl
  have hel : (d.voted 1).rst.elected = d.rst.elected := rfl
  rw [hset]
  by_cases hrole : d.rst.elected = true
  · rw [if_pos hrole]
    by_cases hic : d.ic = w
    · have hal := (d.voted 1).changes_alertUpdate
      rw [if_pos hic]
      refine ⟨?_, ?_, ?_, ?_⟩
      · rw [← hic, ← d.ic_voted]
        exact hal.f F.ROLE_STATUS_IN_CHARGE _ _ rfl
      · rw [hal.f _ _ _ rfl, d.voteBy_voted]
      · rw [hal.f _ _ _ rfl, d.standoff_voted]
      · rw [hal.rst, hel, hrole]
    · have hidle : (d.voted 1).b F.TALLY_CTL_BUSY = false := by
        rw [← hpass.resolve_left (by rw [hrole]; decide)]
        unfold Dev.voted
        rw [Dev.b_setB_other _ _ _ _ _ _ _ _ (by decide) (by decide), Dev.b_setF_other _ _ _ _ _ _ _ _ (by decide) (by decide)]
      rw [if_neg hic]
      refine ⟨?_, ?_, ?_, ?_⟩
      · rw [Dev.ic_takeover _ hidle, d.ic_voted]
        exact d.other_ic w hw hic
      · rw [Dev.takeover_field _ hidle _ rfl (by decide) (by decide), d.voteBy_voted]
      · rw [Dev.takeover_field _ hidle _ rfl (by decide) (by decide), d.standoff_voted]
      · rw [(Dev.takeover_roles _ hidle).2, hel, hrole]
  · rw [if_neg hrole]
    have hboot := fun (f : Fld) (hk : f.kind ≠ .bootStatus) (h64 : f.lo + f.w ≤ 64) =>
      Dev.f_setF_other ((d.voted 1).setF F.ROLE_STATUS_IN_CHARGE w) F.BOOT_STATUS_STAGE f 2 0 0 0 0 (.inl hk) h64
    have hrest := fun (f : Fld) (hlo : 1 ≤ f.lo) (h64 : f.lo + f.w ≤ 64) =>
      (d.voted 1).f_setF_other F.ROLE_STATUS_IN_CHARGE f w 0 0 0 0 (.inr (.inr hlo)) h64
    refine ⟨?_, ?_, ?_, rfl⟩
    · have hin := (d.voted 1).f_setF_same F.ROLE_STATUS_IN_CHARGE w 0 0 (by decide)
      exact ((hboot F.ROLE_STATUS_IN_CHARGE (by decide) (by decide)).trans hin).trans (Nat.mod_eq_of_lt hw)
    · exact ((hboot _ (by decide) (by decide)).trans (hrest _ (by decide) (by decide))).trans d.voteBy_voted
    · exact ((hboot _ (by decide) (by decide)).trans (hrest _ (by decide) (by decide))).trans d.standoff_voted

/-- STANDOFF set after a failed vote, the `n`th. -/
def Dev.standoffAgain (d : Dev) (n : Nat) : Dev := (d.setF F.ROLE_STATUS_VOTES_FAILED n).setB F.ROLE_STATUS_STANDOFF true

theorem Dev.standoff_standoffAgain (d : Dev) (n : Nat) : (d.standoffAgain n).b F.ROLE_STATUS_STANDOFF = true :=
  Dev.b_setB_same _ _ _ _ _ rfl (by decide)

/-- A failed vote is counted up to the third, which is the device-wide safe state. -/
theorem Dev.voteLost_eq (d : Dev) (n : Nat) (h : min (d.f F.ROLE_STATUS_VOTES_FAILED + 1) 3 = n) :
    d.voteLost = if n = 3 then (d.standoffAgain n).alertUpdate.deviceWideSafe else (d.standoffAgain n).alertUpdate := by
  unfold Dev.voteLost
  rw [h]
  rfl

/-- The first two failed votes. -/
theorem Dev.voteLost_early (d : Dev) (h : d.f F.ROLE_STATUS_VOTES_FAILED < 2) :
    d.voteLost = (d.standoffAgain (d.f F.ROLE_STATUS_VOTES_FAILED + 1)).alertUpdate := by
  rw [d.voteLost_eq (d.f F.ROLE_STATUS_VOTES_FAILED + 1) (by omega), if_neg (by omega)]

/-- In STANDOFF no half serves the queue: ALERT_N is deasserted. -/
theorem Dev.alertUpdate_standoff (d : Dev) (h : d.b F.ROLE_STATUS_STANDOFF = true) :
    d.alertUpdate = { d with evq := { d.evq with alert := false } } := by
  have hserved : d.served = false := by
    unfold Dev.served
    rw [h]
    simp
  unfold Dev.alertUpdate
  rw [hserved]
  rfl

/-- The device-wide safe state in STANDOFF: ALERT_N is deasserted in it whatever it was. -/
theorem Dev.deviceWideSafe_standoff (d : Dev) (h : d.b F.ROLE_STATUS_STANDOFF = true) : d.alertUpdate.deviceWideSafe = d.deviceWideSafe := by
  have hal := d.alertUpdate_standoff h
  have hsafe : ∀ x : Dev, x.b F.ROLE_STATUS_STANDOFF = true → x.deviceWideSafe = (List.range 88).foldl (fun s b => s.enterSafe b 5)
      { x with rst := { x.rst with deviceSafe := true }, evq := { x.evq with alert := false } } := by
    intro x hx
    unfold Dev.deviceWideSafe
    rw [Dev.alertUpdate_standoff ({ x with rst := { x.rst with deviceSafe := true } } : Dev) hx]
  rw [hsafe d h, hal, hsafe ({ d with evq := { d.evq with alert := false } } : Dev) h]

/-- The third failed vote, and any that follows. -/
theorem Dev.voteLost_third (d : Dev) (h : 2 ≤ d.f F.ROLE_STATUS_VOTES_FAILED) : d.voteLost = (d.standoffAgain 3).deviceWideSafe := by
  rw [d.voteLost_eq 3 (by omega), if_pos rfl, Dev.deviceWideSafe_standoff _ (d.standoff_standoffAgain 3)]

/-- Settles O51: the vote that succeeds, the first two that fail, and the third. -/
theorem serialVotesDecideStandoff : Obligations.SerialVotesDecideStandoff := by
  unfold Obligations.SerialVotesDecideStandoff
  intro s w e a
  dsimp only
  intro hso hdev
  have hexec : exec (.standoffVote w e a) s = .next (s.after (s.dev.serialVote w e a).twinUpdate) := rfl
  refine ⟨?_, fun hlost => ⟨fun hearly => ?_, fun hthird => ?_⟩⟩
  · rintro rfl rfl rfl hw he hne hpass
    rw [s.dev.serialVote_won hso hdev hw he hne] at hexec
    obtain ⟨hic, hby, hend, hel⟩ := s.dev.voteWon_roles (if (s.dev.reg .dieSerial 0).toNat < (s.dev.reg .dieSerial 1).toNat then 0 else 1)
      (by split <;> decide) hpass
    refine ⟨_, hexec, ?_, ?_, ?_, ?_⟩
    · exact (s.afterTwin_f _ F.ROLE_STATUS_IN_CHARGE _ _ rfl).trans hic
    · rw [s.afterTwin_f _ _ _ _ rfl, hby]
    · rw [s.afterTwin_b _ _ _ _ rfl]
      unfold Dev.b
      rw [hend]
      rfl
    · rw [(s.changes_afterTwin _).rst, hel]
  · rw [s.dev.serialVote_lost w e a hso hdev hlost, s.dev.voteLost_early hearly] at hexec
    have hal := (s.dev.standoffAgain (s.dev.f F.ROLE_STATUS_VOTES_FAILED + 1)).changes_alertUpdate
    refine ⟨_, hexec, ?_, ?_, ?_, ?_⟩
    · rw [s.afterTwin_f _ _ _ _ rfl, hal.f _ _ _ rfl]
      unfold Dev.standoffAgain
      rw [Dev.f_setB_other _ _ _ _ _ _ _ _ (by decide) (by decide), Dev.f_setF_same _ _ _ _ _ (by decide)]
      exact Nat.mod_eq_of_lt (Nat.lt_trans (Nat.succ_lt_succ hearly) (by decide))
    · rw [s.afterTwin_b _ _ _ _ rfl, hal.b _ _ _ rfl, Dev.standoff_standoffAgain]
    · unfold Dev.ic
      rw [s.afterTwin_f _ _ _ _ rfl, hal.f _ _ _ rfl]
      unfold Dev.standoffAgain
      rw [Dev.f_setB_other _ _ _ _ _ _ _ _ (by decide) (by decide), Dev.f_setF_other _ _ _ _ _ _ _ _ (by decide) (by decide)]
    · rw [(s.changes_afterTwin _).rst, hal.rst]
      rfl
  · rw [s.dev.serialVote_lost w e a hso hdev hlost, s.dev.voteLost_third hthird] at hexec
    unfold Dev.standoffAgain at hexec
    exact hexec

end Sys2Proof.Machine
end

section
/-! SUPPORT. GO of LC_CTL (R400, R401). -/

namespace Sys2Proof.Machine

/-! ### The write -/

/-- What LC_GO of TARGET `t` writes. -/
def lcGoWord (t : BitVec 2) : BitVec 32 := t.zeroExtend 32 ||| 8

/-- Its fields: TARGET, GO without ARM, and no LC_ERR. -/
theorem lcGoWord_fields (t : BitVec 2) :
    getBits ((lcGoWord t).zeroExtend 64) 0 2 = t.toNat ∧ getBits ((lcGoWord t).zeroExtend 64) 2 1 = 0
      ∧ getBits ((lcGoWord t).zeroExtend 64) 3 1 = 1 ∧ (∀ n ∈ [4, 5, 6], ((lcGoWord t).zeroExtend 64).getLsbD n = false)
      ∧ (lcGoWord t).zeroExtend 64 &&& RegKind.lcCtl.info.rsv = 0 := by
  revert t
  decide

/-- It is one dword. -/
theorem lcGoWord_dword (t : BitVec 2) : ((lcGoWord t).zeroExtend 64).truncate 32 = lcGoWord t
    ∧ (lcGoWord t).zeroExtend 64 &&& (0xFFFFFFFF : Word) = (lcGoWord t).zeroExtend 64 := by
  revert t
  decide

/-- LC_CTL lies at its offset. -/
theorem targetMgmt_lcCtl : targetMgmt 0x3200108 = .reg ⟨.lcCtl, 0, 0⟩ false := by decide +kernel

/-- A 32-bit write of a register that is let through. -/
theorem Dev.writeDword_reg (d : Dev) (off : Nat) (v : BitVec 32) (r : RegId) (b : Option Nat) (hgate : d.gateAt .mgmtPf .mgmt off = (.act, b))
    (htarget : targetMgmt off = .reg r false) : d.writeDword .mgmtPf .mgmt off v = d.regWrite .mgmtPf r (v.zeroExtend 64) 0xFFFFFFFF := by
  unfold Dev.writeDword
  rw [hgate]
  simp only [targetOf, htarget, Dev.writeTarget]
  rfl

/-- GO by the management PF that is let through. -/
theorem exec_lcGo (s : State) (t : BitVec 2) (hgate : s.dev.gateAt .mgmtPf .mgmt 0x3200108 = (.act, some 87))
    (hslot : s.dev.freeSlot.isSome = true) (hsafe : s.dev.regSafe ⟨.lcCtl, 0, 0⟩ = false) (hpar : (s.dev.errs.look {} 87).parity = []) :
    exec (.lcGo .mgmtPf t) s = .next (s.after (s.dev.wrLcCtl .mgmtPf ((lcGoWord t).zeroExtend 64)).twinUpdate) := by
  have hexec : exec (.lcGo .mgmtPf t) s = s.doneReg (s.dev.request (write32At 0x3200108 ((lcGoWord t).zeroExtend 64))) := rfl
  obtain ⟨hword, hmask⟩ := lcGoWord_dword t
  obtain ⟨-, -, -, -, hrsv⟩ := lcGoWord_fields t
  have hwhole := s.dev.regWrite_whole .mgmtPf ⟨.lcCtl, 0, 0⟩ ((lcGoWord t).zeroExtend 64) rfl (by rw [hsafe]; rfl) hpar
    ((congrArg (· &&& RegKind.lcCtl.info.rsv) hmask).trans hrsv)
  rw [hexec, s.dev.request_made _ _ (by decide) (by rw [hgate]; decide) (by rw [hgate]; decide) hslot, hword,
    s.dev.writeDword_reg _ _ _ _ hgate targetMgmt_lcCtl]
  refine (congrArg s.doneReg hwhole).trans ?_
  show s.doneReg (s.dev.regAct .mgmtPf ⟨.lcCtl, 0, 0⟩ ((lcGoWord t).zeroExtend 64 &&& 0xFFFFFFFF)) = _
  rw [hmask]
  rfl

/-! ### What it does -/

/-- GO of TARGET `t` is accepted: an allowed TARGET that the last ARM named, with no TEST_MODE, reset, wipe, burn or STANDOFF (R401; that of the
last ARM is the model's choice, log 43). -/
def Dev.mayGo (d : Dev) (t : Nat) : Prop :=
  d.b F.LC_CTL_ARMED = true ∧ d.rst.armTarget = t
    ∧ (t = d.lifecycle + 1 ∨ ((d.burnPartial = true ∨ d.lcSplit = true) ∧ t = d.lifecycle))
    ∧ d.rst.testMode = false ∧ d.rst.wipe = false ∧ d.rst.blockBusy = none ∧ d.b F.LC_CTL_BUSY = false
    ∧ d.b F.ROLE_STATUS_STANDOFF = false ∧ d.safe 87 = false ∧ d.rst.deviceSafe = false

/-- TARGET of the burn under way. -/
def Dev.burning (d : Dev) (t : Nat) : Dev := { d with rst := { d.rst with burnTarget := t } }

theorem Dev.b_burning (d : Dev) (t : Nat) (f : Fld) (i j : Nat) : (d.burning t).b f i j = d.b f i j := rfl

theorem Dev.lcGo_begins (d : Dev) (t : Nat) (h : d.mayGo t) :
    d.lcGo t = ((d.setB F.LC_CTL_ARMED false).setB F.LC_CTL_BUSY true).burning t := by
  obtain ⟨harm, htgt, hallow, htest, hwipe, hblock, hbusy, hso, hsafe, hdev⟩ := h
  have hok : d.lcTarget t = true := by
    unfold Dev.lcTarget
    simpa using hallow
  exact if_pos (by simp [harm, htgt, hok, htest, hwipe, hblock, hbusy, hso, hsafe, hdev])

theorem Dev.lcGo_refused (d : Dev) (t : Nat) (h : ¬ d.mayGo t) : d.lcGo t = d.setB F.LC_CTL_LC_ERR true := by
  unfold Dev.lcGo
  refine if_neg (fun hok => h ?_)
  unfold Dev.lcTarget at hok
  simp only [Bool.and_eq_true, Bool.not_eq_true', beq_iff_eq, Option.isNone_iff_eq_none, Bool.or_eq_true] at hok
  obtain ⟨⟨⟨⟨⟨⟨⟨⟨⟨harm, htgt⟩, hallow⟩, htest⟩, hwipe⟩, hblock⟩, hbusy⟩, hso⟩, hsafe⟩, hdev⟩ := hok
  exact ⟨harm, htgt, hallow, htest, hwipe, hblock, hbusy, hso, hsafe, hdev⟩

/-- A bit that is no RW or RWS bit and is written 0 stays. -/
theorem Dev.storeReg_unnamed (d : Dev) (f : Fld) (i j : Nat) (v : Word) (hw : f.w = 1) (hn : f.lo < 64)
    (hrw : (f.kind.info.rw ||| f.kind.info.rws).getLsbD f.lo = false) (hv : v.getLsbD f.lo = false) :
    (d.storeReg ⟨f.kind, i, j⟩ v).b f i j = d.b f i j := by
  have hbit := d.storeReg_bit ⟨f.kind, i, j⟩ v f.lo hn
  rw [BitVec.getLsbD_or, Bool.or_eq_false_iff] at hrw
  rw [Dev.b_eq_getLsbD _ _ _ _ hw, Dev.b_eq_getLsbD _ _ _ _ hw]
  refine hbit.trans ?_
  simp only [hrw, hv, Bool.or_false, Bool.not_false, Bool.and_true, Bool.false_and]

/-- What writes LC_CTL alone leaves the lifecycle state. -/
theorem Dev.changes.lifecycle {d t : Dev} (h : d.changes (RegKind.only .lcCtl) t) :
    t.lifecycle = d.lifecycle ∧ t.burnPartial = d.burnPartial ∧ t.lcSplit = d.lcSplit := by
  have hdie : ∀ n : Nat, t.dieState n = d.dieState n := by
    intro n
    unfold Dev.dieState
    rw [h.f _ _ _ rfl, h.f _ _ _ rfl]
  refine ⟨?_, ?_, ?_⟩
  · unfold Dev.lifecycle
    rw [hdie, hdie]
  · unfold Dev.burnPartial
    simp only [h.f F.LC_FUSE_COPY0 _ _ rfl, h.f F.LC_FUSE_COPY1 _ _ rfl]
  · unfold Dev.lcSplit
    rw [hdie, hdie]

/-- So whether GO is accepted stays, if ARMED and BUSY do. -/
theorem Dev.changes.mayGo {d t : Dev} (h : d.changes (RegKind.only .lcCtl) t) (harm : t.b F.LC_CTL_ARMED = d.b F.LC_CTL_ARMED)
    (hbusy : t.b F.LC_CTL_BUSY = d.b F.LC_CTL_BUSY) (n : Nat) : t.mayGo n ↔ d.mayGo n := by
  obtain ⟨hlc, hpart, hsplit⟩ := h.lifecycle
  have hsafe : t.safe 87 = d.safe 87 := h.b F.ERR_STATUS_SAFE 87 0 rfl
  unfold Dev.mayGo
  rw [harm, hbusy, hlc, hpart, hsplit, hsafe, h.rst, h.b F.ROLE_STATUS_STANDOFF _ _ rfl]

/-- A GO word stores TARGET, and GO follows. -/
theorem Dev.wrLcCtl_go (d : Dev) (t : BitVec 2) (hlc : d.lifecycle < 3) :
    d.wrLcCtl .mgmtPf ((lcGoWord t).zeroExtend 64) = (d.storeReg ⟨.lcCtl, 0, 0⟩ ((lcGoWord t).zeroExtend 64)).lcGo t.toNat := by
  obtain ⟨htgt, harm, hgo, -, -⟩ := lcGoWord_fields t
  have hst := (d.changes_storeReg ⟨.lcCtl, 0, 0⟩ ((lcGoWord t).zeroExtend 64) (RegKind.only .lcCtl) rfl).lifecycle
  have hdoor : (d.storeReg ⟨.lcCtl, 0, 0⟩ ((lcGoWord t).zeroExtend 64)).lcDoor .mgmtPf = true := by
    show decide (_ < 3) = true
    rw [hst.1]
    exact decide_eq_true hlc
  unfold Dev.wrLcCtl
  dsimp only
  rw [hdoor, htgt, harm, hgo]
  rfl

/-- Settles O53: the write stores TARGET and leaves ARMED, BUSY and LC_ERR, so GO is accepted on it as before it. -/
theorem lifecycleGo : Obligations.LifecycleGo := by
  unfold Obligations.LifecycleGo
  intro s t
  dsimp only
  intro hgate hslot hsafe hpar hlc
  have hstep := exec_lcGo s t hgate hslot hsafe hpar
  rw [s.dev.wrLcCtl_go t hlc] at hstep
  obtain ⟨-, -, -, hbits, -⟩ := lcGoWord_fields t
  have harm := s.dev.storeReg_unnamed F.LC_CTL_ARMED 0 0 _ rfl (by decide) (by decide) (hbits 4 (by decide))
  have hbusy := s.dev.storeReg_unnamed F.LC_CTL_BUSY 0 0 _ rfl (by decide) (by decide) (hbits 5 (by decide))
  have herr := s.dev.storeReg_unnamed F.LC_CTL_LC_ERR 0 0 _ rfl (by decide) (by decide) (hbits 6 (by decide))
  have hst := s.dev.changes_storeReg ⟨.lcCtl, 0, 0⟩ ((lcGoWord t).zeroExtend 64) (RegKind.only .lcCtl) rfl
  have hgo := hst.mayGo harm hbusy t.toNat
  constructor
  · intro hyes
    rw [Dev.lcGo_begins _ _ (hgo.2 hyes)] at hstep
    refine ⟨_, hstep, ?_, ?_, ?_, ?_, s.after_fuses _⟩
    · rw [s.afterTwin_b _ _ _ _ rfl, Dev.b_burning]
      exact Dev.b_setB_same _ _ _ _ _ rfl (by decide)
    · rw [s.afterTwin_b _ _ _ _ rfl, Dev.b_burning, Dev.b_setB_other _ _ _ _ _ _ _ _ (by decide) (by decide)]
      exact Dev.b_setB_same _ _ _ _ _ rfl (by decide)
    · rw [s.afterTwin_b _ _ _ _ rfl, Dev.b_burning, Dev.b_setB_other _ _ _ _ _ _ _ _ (by decide) (by decide),
        Dev.b_setB_other _ _ _ _ _ _ _ _ (by decide) (by decide)]
      exact herr
    · rw [(s.changes_afterTwin _).rst]
      rfl
  · intro hno
    rw [Dev.lcGo_refused _ _ (fun h => hno (hgo.1 h))] at hstep
    refine ⟨_, hstep, ?_, ?_, ?_, s.after_fuses _⟩
    · rw [s.afterTwin_b _ _ _ _ rfl]
      exact Dev.b_setB_same _ _ _ _ _ rfl (by decide)
    · rw [s.afterTwin_b _ _ _ _ rfl, Dev.b_setB_other _ _ _ _ _ _ _ _ (by decide) (by decide)]
      exact hbusy
    · rw [(s.changes_afterTwin _).rst]
      rfl

end Sys2Proof.Machine
end

section
/-! SUPPORT. Reads of the event queue (R412). -/

namespace Sys2Proof.Machine

/-! ### The record being read -/

/-- Draining the backlog leaves the record being read. -/
theorem EvqSt.drain_current (q : EvqSt) (n : Nat) : (q.drain n).current = q.current := by
  induction n generalizing q with
  | zero => rfl
  | succ n ih =>
    unfold EvqSt.drain
    split
    · rfl
    · dsimp only
      split
      · exact ih _
      · rfl

theorem Dev.current_alertUpdate (d : Dev) : d.alertUpdate.evq.current = d.evq.current := by
  unfold Dev.alertUpdate
  dsimp only
  split
  · rfl
  · split <;> rfl

/-- So does a posted record. -/
theorem Dev.current_post (d : Dev) (type prio : Nat) (body : List (BitVec 32)) : (d.post type prio body).evq.current = d.evq.current := by
  unfold Dev.post
  split
  · dsimp only
    split
    · rfl
    · rw [Dev.current_alertUpdate]
      exact EvqSt.drain_current _ 1
  · rfl

theorem Dev.evq_sendMsix (d : Dev) (e : Nat) : (d.sendMsix .mgmtPf e).evq = d.evq := by
  unfold Dev.sendMsix
  split <;> rfl

theorem Dev.evq_errTell (d : Dev) (f : Fn) (k : Nat) (c : BitVec 8) (x : Bool) : (d.errTell f k c x).evq = d.evq := by
  unfold Dev.errTell Dev.errMsg
  repeat' split
  all_goals rfl

theorem Dev.evq_aerC (d : Dev) (f : Fn) (bit : Nat) : (d.aerC f bit).evq = d.evq := by
  unfold Dev.aerC Dev.setCfBits
  dsimp only
  split
  · rfl
  · rw [Dev.evq_errTell]
    rfl

/-- What a block signals leaves it. -/
theorem Dev.current_signal (d : Dev) (b : Nat) : (d.signal b).evq.current = d.evq.current := by
  have hmsix : (if d.b F.ERR_ROUTE_MSIX b then d.sendMsix .mgmtPf (d.f F.ERR_ROUTE_VEC b) else d).evq = d.evq := by
    split
    · exact d.evq_sendMsix _
    · rfl
  unfold Dev.signal
  dsimp only
  split
  · rw [Dev.current_post, hmsix]
  · rw [hmsix]

theorem Dev.current_settleBlock (d : Dev) (b : Nat) : (d.settleBlock b).evq.current = d.evq.current := by
  unfold Dev.settleBlock
  dsimp only
  split
  · exact d.current_signal b
  · split <;> rfl

/-- A fold of steps that leave the record being read leaves it. -/
theorem Dev.current_foldl {α : Type} (f : Dev → α → Dev) (h : ∀ (d : Dev) (x : α), (f d x).evq.current = d.evq.current) (l : List α) (d : Dev) :
    (l.foldl f d).evq.current = d.evq.current := by
  induction l generalizing d with
  | nil => rfl
  | cons x l ih => exact (ih _).trans (h d x)

theorem Dev.evq_memLost (old d : Dev) (b : Nat) : (Dev.memLost old d b).evq = d.evq := by
  unfold Dev.memLost
  split
  · dsimp only
    rw [Dev.evq_aerC]
    rfl
  · split <;> rfl

theorem Dev.evq_injectOne (old d : Dev) (b : Nat) : (Dev.injectOne old d b).evq = d.evq := by
  unfold Dev.injectOne
  dsimp only
  split
  · split
    · rw [Dev.evq_memLost]
      split
      · rw [Dev.evq_aerC]
        rfl
      · rfl
    · split
      · rw [Dev.evq_aerC]
        rfl
      · rfl
  · rfl

/-- A command's reporting leaves the record being read. -/
theorem State.after_current (s : State) (d : Dev) : (s.after d).dev.evq.current = d.evq.current := by
  have hinj : (Dev.injectAll s.dev d).evq.current = d.evq.current := by
    unfold Dev.injectAll
    split
    · rfl
    · exact Dev.current_foldl _ (fun x b => congrArg EvqSt.current (Dev.evq_injectOne s.dev x b)) _ d
  rw [State.after_dev, Dev.settle]
  generalize List.range 88 = blocks
  exact (Dev.current_foldl Dev.settleBlock Dev.current_settleBlock blocks _).trans hinj

/-! ### A read -/

/-- Within a record a read looks for no other. -/
theorem Dev.evqSelect_within (d : Dev) (w : BitVec 32) (l : List (BitVec 32)) (h : d.evq.current = w :: l) : d.evqSelect = d := by
  have hsound : ∀ n, d.evqSound n = d := by
    intro n
    cases n with
    | zero => rfl
    | succ n =>
      unfold Dev.evqSound
      rw [h]
      rfl
  unfold Dev.evqSelect Dev.evqPick
  rw [hsound, h]
  rfl

/-- With no bad word in its block the queue has no record to drop. -/
theorem Dev.evqSound_sound (d : Dev) (n : Nat) (h : (d.errs.look {} (82 + d.ic)).bad = []) : d.evqSound n = d := by
  have hword : ∀ p, d.badWord (82 + d.ic) p = none := by
    intro p
    unfold Dev.badWord
    rw [h]
    rfl
  cases n with
  | zero => rfl
  | succ n =>
    unfold Dev.evqSound
    split
    · split
      · simp only [hword]
      · rfl
    · rfl

/-- With an empty chain there is none to begin. -/
theorem Dev.evqSelect_empty (d : Dev) (hcur : d.evq.current = []) (hchain : d.evq.chain = []) : d.evqSelect = d := by
  have hsound : d.evqSound d.evq.chain.length = d := by
    rw [hchain]
    rfl
  unfold Dev.evqSelect Dev.evqPick
  rw [hsound, hcur, hchain]
  rfl

/-- Else a read begins the first record of lowest PRIO. -/
theorem Dev.evqSelect_first (d : Dev) (i : Nat) (hbad : (d.errs.look {} (82 + d.ic)).bad = []) (hcur : d.evq.current = [])
    (hi : firstPrio d.evq.chain = some i) :
    d.evqSelect = { d with evq := { d.evq with current := d.evq.chain.getD i [], chain := d.evq.chain.eraseIdx i } } := by
  unfold Dev.evqSelect Dev.evqPick
  rw [d.evqSound_sound _ hbad, hcur, hi]
  rfl

/-- A read of a served queue returns and removes a word of what it selects. -/
theorem Dev.evqDataRead_served (d : Dev) (hs : d.served = true) :
    d.evqDataRead = d.evqSelect.evqPop.emit (.i3cData (leBytes d.evqSelect.evqPeek.toNat 4)) := by
  unfold Dev.evqDataRead
  rw [if_pos hs]

/-- It is the first word of the record. -/
theorem Dev.evqDataRead_word (d : Dev) (w : BitVec 32) (l : List (BitVec 32)) (hs : d.served = true) (hsel : d.evqSelect.served = true)
    (h : d.evqSelect.evq.current = w :: l) :
    d.evqDataRead.evq.current = l ∧ Out.i3cData (leBytes w.toNat 4) ∈ d.evqDataRead.out := by
  have hpeek : d.evqSelect.evqPeek = w := by
    unfold Dev.evqPeek
    rw [if_pos hsel, h]
    rfl
  have hpop : d.evqSelect.evqPop.evq.current = l := by
    unfold Dev.evqPop
    rw [if_pos hsel, h]
    exact (Dev.current_alertUpdate _).trans (EvqSt.drain_current _ _)
  rw [d.evqDataRead_served hs, hpeek]
  exact ⟨hpop, List.mem_append_right _ (List.mem_singleton.2 rfl)⟩

/-- Of a served queue with nothing in it 0. -/
theorem Dev.evqDataRead_empty (d : Dev) (hs : d.served = true) (hcur : d.evq.current = []) (hchain : d.evq.chain = []) :
    d.evqDataRead = d.emit (.i3cData [0, 0, 0, 0]) := by
  rw [d.evqDataRead_served hs, d.evqSelect_empty hcur hchain]
  unfold Dev.evqPop Dev.evqPeek
  rw [if_pos hs, if_pos hs, hcur]
  rfl

/-! ### The record that is begun -/

/-- The record that is begun has the lowest PRIO and is the first that has it. -/
theorem firstPrio_spec (l : List (List (BitVec 32))) (i : Nat) (h : firstPrio l = some i) :
    ∃ p, l.findIdx? (fun r => recPrio r == p) = some i ∧ ∀ r ∈ l, p ≤ recPrio r := by
  obtain ⟨lower, p, higher, hsplit, hidx, hnone⟩ := List.findSome?_eq_some_iff.1 h
  refine ⟨p, hidx, fun r hr => ?_⟩
  have hmem : recPrio r ∈ lower ++ p :: higher := by
    rw [← hsplit]
    exact List.mem_range.2 (Nat.mod_lt _ (by decide))
  have hsorted : List.Pairwise (· < ·) (lower ++ p :: higher) := by
    rw [← hsplit]
    exact List.pairwise_lt_range
  rcases List.mem_append.1 hmem with hlow | hhigh
  · have hno := List.findIdx?_eq_none_iff.1 (hnone _ hlow) r hr
    simp at hno
  · rcases List.mem_cons.1 hhigh with heq | hgt
    · exact heq.ge
    · exact (List.rel_of_pairwise_cons (List.pairwise_append.1 hsorted).2.1 hgt).le

/-- Settles O55: the queue with nothing in it, a record being read, the record that a read begins. -/
theorem eventQueueReads : Obligations.EventQueueReads := by
  unfold Obligations.EventQueueReads
  intro s
  dsimp only
  intro halive hserved
  have hexec : exec .evqDataRead s = .next (s.after s.dev.evqDataRead) := by
    show s.done (if s.dev.i3cAlive then s.dev.evqDataRead else s.dev) = _
    rw [if_pos halive]
    rfl
  have hread : ∀ w l, s.dev.evqSelect.served = true → s.dev.evqSelect.evq.current = w :: l → ∃ t : State, exec .evqDataRead s = .next t
      ∧ t.dev.evq.current = l ∧ Out.i3cData (leBytes w.toNat 4) ∈ t.dev.out := by
    intro w l hsel hcur
    obtain ⟨hrest, hout⟩ := s.dev.evqDataRead_word w l hserved hsel hcur
    exact ⟨_, hexec, (s.after_current _).trans hrest, (s.changes_after _).mem_out hout⟩
  refine ⟨fun hcur hchain => ?_, fun w l hcur => ?_, fun i w l hbad hcur hi hrec => ?_, fun l i hi => ?_⟩
  · rw [hexec, s.dev.evqDataRead_empty hserved hcur hchain]
  · have hsel := s.dev.evqSelect_within w l hcur
    exact hread w l (by rw [hsel, hserved]) (by rw [hsel, hcur])
  · have hsel := s.dev.evqSelect_first i hbad hcur hi
    exact hread w l (by rw [hsel]; exact hserved) (by rw [hsel]; exact hrec)
  · obtain ⟨p, hidx, hlow⟩ := firstPrio_spec l i hi
    obtain ⟨hlt, hat, hbefore⟩ := List.findIdx?_eq_some_iff_getElem.1 hidx
    have hp : recPrio (l.getD i []) = p := by
      rw [List.getD_eq_getElem _ _ hlt]
      exact beq_iff_eq.1 hat
    refine ⟨hlt, fun k hk => ?_, fun k hk => ?_⟩
    · rw [hp, List.getD_eq_getElem _ _ hk]
      exact hlow _ (List.getElem_mem hk)
    · have hkl : k < l.length := hk.trans hlt
      have hne : recPrio l[k] ≠ p := fun he => hbefore k hk (beq_iff_eq.2 he)
      rw [hp, List.getD_eq_getElem _ _ hkl]
      exact lt_of_le_of_ne (hlow _ (List.getElem_mem hkl)) hne.symm

end Sys2Proof.Machine
end

section
/-! SUPPORT. Device time (R421): the statement on a state in which a parameter write of a port's scheduler waits that names TIME_STATUS. -/

namespace Sys2Proof.Machine

/-- The reset device with its controllers running, port 0 gated and in a round, and a write of TIME_STATUS among the parameter writes that wait for
the round's end (R188). -/
def pendingTimeStatus : Dev :=
  { (((State.reset.dev.setB F.CLK_STATUS_PLL_LOCK true 0).setB F.CLK_STATUS_PLL_LOCK true 1).setB F.GATE_CTL_EN true 0) with
    rst := { State.reset.dev.rst with elected := true, wipe := false }
    scheds := [(0, { round := true, pend := [(⟨.timeStatus, 0, 0⟩, 0)] })] }

/-- TIME_SET that is let through. -/
theorem exec_timeSet (s : State) (v : Word) (h : s.dev.takes ⟨.timeSetReg, 0, 0⟩) (hrsv : v &&& RegKind.timeSetReg.info.rsv = 0) :
    exec (.timeSet v) s = .next (s.after (s.dev.stepTo v.toNat).twinUpdate) :=
  s.write64_takes ⟨.timeSetReg, 0, 0⟩ v rfl h hrsv

/-- The gates follow the step of device time: the round of port 0 ends, and the write that waits for its end clears STEPPED. -/
theorem pendingTimeStatus_stepTo : (pendingTimeStatus.stepTo 0).b F.TIME_STATUS_STEPPED = false := by decide +kernel

/-- Refutes O57: STEPPED does not stay set after TIME_SET where a scheduler's waiting parameter write names TIME_STATUS. The statement is about
every state; it lacks the hypothesis that what waits at a scheduler names the scheduler's own registers. -/
theorem not_deviceTime : ¬ Obligations.DeviceTime := by
  unfold Obligations.DeviceTime
  intro h
  have htakes : pendingTimeStatus.takes ⟨.timeSetReg, 0, 0⟩ := by decide +kernel
  have hrsv : (0 : Word) &&& RegKind.timeSetReg.info.rsv = 0 := by decide
  obtain ⟨hset, -⟩ := h { State.reset with dev := pendingTimeStatus }
  obtain ⟨t, ht, -, -, hstepped⟩ := hset 0 htakes hrsv
  rw [exec_timeSet { State.reset with dev := pendingTimeStatus } 0 htakes hrsv] at ht
  cases ht
  rw [State.afterTwin_b _ _ _ _ _ rfl, show (0 : Word).toNat = 0 from rfl, pendingTimeStatus_stepTo] at hstepped
  cases hstepped

end Sys2Proof.Machine
end

section
/-! SUPPORT. A step on an empty queue (log 2). -/

namespace Sys2Proof.Machine

/-! ### What gating changes -/

/-- `t` is `d` but for registers and the schedulers' records. -/
def Dev.schedules (d t : Dev) : Prop := ∃ (r : Store RegId Word) (x : Tbl SchedSt), t = { d with regs := r, scheds := x }

theorem Dev.schedules_refl (d : Dev) : d.schedules d := ⟨d.regs, d.scheds, rfl⟩

theorem Dev.schedules.trans {a b c : Dev} (h1 : a.schedules b) (h2 : b.schedules c) : a.schedules c := by
  obtain ⟨r1, x1, rfl⟩ := h1
  obtain ⟨r2, x2, rfl⟩ := h2
  exact ⟨r2, x2, rfl⟩

theorem Dev.schedules.mgmtQ {d t : Dev} (h : d.schedules t) : t.mgmtQ = d.mgmtQ := by
  obtain ⟨r, x, rfl⟩ := h
  rfl

theorem Dev.schedules_setSched (d : Dev) (p : Nat) (x : SchedSt) : d.schedules (d.setSched p x) := ⟨d.regs, _, rfl⟩

theorem Dev.schedules_setF (d : Dev) (f : Fld) (v i j : Nat) : d.schedules (d.setF f v i j) := ⟨_, d.scheds, rfl⟩

theorem Dev.schedules_setB (d : Dev) (f : Fld) (v : Bool) (i j : Nat) : d.schedules (d.setB f v i j) := d.schedules_setF f _ i j

/-- A fold of such operations is one. -/
theorem Dev.schedules_foldl {α : Type} (f : Dev → α → Dev) (h : ∀ (d : Dev) (x : α), d.schedules (f d x)) (l : List α) (d : Dev) :
    d.schedules (l.foldl f d) := by
  induction l generalizing d with
  | nil => exact d.schedules_refl
  | cons x l ih => exact (h d x).trans (ih _)

theorem Dev.schedules_applyPending (d : Dev) (p : Nat) : d.schedules (d.applyPending p) := by
  have hpend := Dev.schedules_foldl (fun s (e : RegId × Word) => { s with regs := Store.set RegId.ord RegId.reset s.regs e.1 e.2 })
    (fun x _ => ⟨_, x.scheds, rfl⟩) (d.sched p).pend d
  unfold Dev.applyPending
  exact (hpend.trans (Dev.schedules_setSched _ p _)).trans (Dev.schedules_setB _ _ _ _ _)

theorem Dev.schedules_endRound (d : Dev) (p : Nat) : d.schedules (d.endRound p) :=
  ((d.schedules_setSched p _).trans (Dev.schedules_setF _ _ _ _ _)).trans (Dev.schedules_applyPending _ p)

theorem Dev.schedules_leaveGroup (d : Dev) (p g : Nat) : d.schedules (d.leaveGroup p g) := by
  unfold Dev.leaveGroup
  dsimp only
  split
  · exact d.schedules_setSched p _
  · exact d.schedules_setSched p _

theorem Dev.schedules_settleRound (d : Dev) (p : Nat) : d.schedules (d.settleRound p) := by
  unfold Dev.settleRound
  dsimp only
  split
  · split
    · split
      · exact (d.schedules_leaveGroup p _).trans (Dev.schedules_endRound _ p)
      · exact d.schedules_endRound p
    · exact d.schedules_endRound p
  · exact d.schedules_refl

theorem Dev.schedules_gateStart1 (d : Dev) (p : Nat) : d.schedules (d.gateStart1 p) := by
  unfold Dev.gateStart1
  dsimp only
  split
  · exact d.schedules_setSched p _
  · exact d.schedules_refl

theorem Dev.schedules_gateTake (d : Dev) (p : Nat) : d.schedules (d.gateTake p) := by
  unfold Dev.gateTake
  dsimp only
  split
  · exact ((d.schedules_setF _ _ _ _).trans (Dev.schedules_setB _ _ _ _ _)).trans (Dev.schedules_setSched _ p _)
  · exact d.schedules_refl

theorem Dev.schedules_gateEntry (d : Dev) (p : Nat) : d.schedules (d.gateEntry p) := by
  unfold Dev.gateEntry
  split
  · exact d.schedules_setF _ _ _ _
  · exact d.schedules_refl

theorem Dev.schedules_gateDue (d : Dev) (p : Nat) : d.schedules (d.gateDue p) := by
  unfold Dev.gateDue Dev.gateNow
  split
  · exact (((d.schedules_gateStart1 p).trans (Dev.schedules_gateTake _ p)).trans (Dev.schedules_gateEntry _ p)).trans
      (Dev.schedules_settleRound _ p)
  · exact d.schedules_refl

theorem Dev.mgmtQ_cclkCount (d : Dev) (h : Nat) : (d.cclkCount h).mgmtQ = d.mgmtQ := by
  unfold Dev.cclkCount
  dsimp only
  split
  · rfl
  · rfl

/-- A TCLK edge leaves the management PF's requests that wait. -/
theorem Dev.mgmtQ_timeEdgeHalf (d : Dev) (h : Nat) : (d.timeEdgeHalf h).mgmtQ = d.mgmtQ := by
  unfold Dev.timeEdgeHalf
  split
  · exact Dev.mgmtQ_cclkCount _ h
  · rfl

theorem Dev.mgmtQ_timeEdge (d : Dev) : d.timeEdge.mgmtQ = d.mgmtQ := by
  unfold Dev.timeEdge Dev.gatesNow
  rw [(Dev.schedules_foldl Dev.gateDue Dev.schedules_gateDue _ _).mgmtQ, Dev.mgmtQ_timeEdgeHalf, Dev.mgmtQ_timeEdgeHalf]

/-! ### The step -/

/-- On an empty queue a step binds what waits, after the edge and the management PF's requests. -/
theorem step_idle (s : State) (h : s.pending = []) :
    let d := s.dev.timeEdge.mgmtGoes s.dev.timeEdge.mgmtQ
    step s = s.doneOr (Dev.bindOwns d.own { d with own := [] }) := by
  unfold step
  rw [h]
  rfl

/-- Settles O2: the edge leaves the management PF's queue, and no message or one is bound after it. -/
theorem idleStepIsOneTimeEdge : Obligations.IdleStepIsOneTimeEdge := by
  unfold Obligations.IdleStepIsOneTimeEdge
  intro s hpending
  have hstep := step_idle s hpending
  dsimp only at hstep ⊢
  refine ⟨fun hq => ?_, ?_⟩
  · rw [s.dev.mgmtQ_timeEdge, hq]
    rfl
  · generalize s.dev.timeEdge.mgmtGoes s.dev.timeEdge.mgmtQ = d at hstep ⊢
    refine ⟨fun hown => ?_, fun r x hown hbind => ?_⟩
    · have hsame : ({ d with own := [] } : Dev) = d := by rw [← hown]
      rw [hstep, hown, hsame]
      rfl
    · have hlast : Dev.bindOwns [r] { d with own := [] } = .ok x := by
        unfold Dev.bindOwns
        rw [hbind]
        rfl
      rw [hstep, hown, hlast]
      rfl

end Sys2Proof.Machine
end

section
/-! SUPPORT. The place of a Floor cell (R139), the fault pins (R348), the choice of a boot image (R396), lifecycle states (R399). -/

namespace Sys2Proof.Machine

/-! ### Floor cells -/

/-- A cell's bank and its row there name the cell. -/
theorem bankCell_cellBank (c : Nat) (h : c < 393216) : bankCell (cellBank c) (c % 196608 % 12288 / 16) = c := by
  have hc : c = 196608 * (c / 196608) + 12288 * (c % 196608 / 12288) + 16 * (c % 196608 % 12288 / 16) + c % 16 := by omega
  have hhalf : c / 196608 < 2 := by omega
  have hgroup : c % 196608 / 12288 < 16 := by omega
  unfold bankCell cellBank cellGroup cellHalf groupBase
  omega

/-- A bank and a row are those of the cell that they name. -/
theorem cellBank_bankCell (b r : Nat) (hb : b < 512) (hr : r < 768) :
    bankCell b r < 393216 ∧ cellBank (bankCell b r) = b ∧ bankCell b r % 196608 % 12288 / 16 = r := by
  have hcell : bankCell b r = 196608 * (b / 16 / 16) + (12288 * (b / 16 % 16) + (16 * r + b % 16)) := by
    unfold bankCell groupBase
    omega
  have hlow : 12288 * (b / 16 % 16) + (16 * r + b % 16) < 196608 := by omega
  have hrow : 16 * r + b % 16 < 12288 := by omega
  rw [hcell]
  unfold cellBank cellGroup cellHalf
  refine ⟨by omega, ?_, ?_⟩
  · omega
  · omega

/-- Settles O46: a cell is its half, group, row and place in the row, as numbers. -/
theorem floorCellLayout : Obligations.FloorCellLayout := by
  unfold Obligations.FloorCellLayout
  refine ⟨fun c hc => ?_, fun b r hb hr => cellBank_bankCell b r hb hr, fun c n hpos hn hgroup => ?_⟩
  · refine ⟨rfl, rfl, ?_, ?_, by omega, bankCell_cellBank c hc⟩
    · unfold cellBank
      omega
    · unfold cellBank cellGroup cellHalf
      omega
  · unfold cellBank
    rw [hgroup]
    omega

/-! ### Fault pins -/

/-- Settles O52: the pins are low without PERST or VDD_IO, and else tell a fault from none. -/
theorem faultPinStates : Obligations.FaultPinStates := by
  unfold Obligations.FaultPinStates
  intro d
  unfold Dev.fltPins
  cases d.rst.perstLow <;> cases d.rst.vddIo <;> cases d.fltAsserted <;> decide

/-! ### Boot images -/

theorem filter_valid (l : List Byte) (h : imgValid l = true) : (some l).filter imgValid = some l := by simp [h]

theorem filter_invalid (l : List Byte) (h : imgValid l = false) : (some l).filter imgValid = none := by simp [h]

/-- Settles O56: the four combinations of valid copies, two valid ones by SEQ. -/
theorem imageChoice : Obligations.ImageChoice := by
  unfold Obligations.ImageChoice imgChoose
  intro a b
  refine ⟨fun ha hb hlt => ?_, fun ha hb hle => ?_, fun ha hb => ?_, fun ha hb => ?_, fun ha hb => ?_, fun l hl => ?_⟩
  · rw [filter_valid a ha, filter_valid b hb]
    exact if_pos hlt
  · rw [filter_valid a ha, filter_valid b hb]
    exact if_neg (Nat.not_lt.2 hle)
  · rw [filter_valid a ha, filter_invalid b hb]
  · rw [filter_invalid a ha, filter_valid b hb]
  · rw [filter_invalid a ha, filter_invalid b hb]
  · unfold imgValid at hl
    simp only [Bool.and_eq_true, beq_iff_eq] at hl
    obtain ⟨⟨⟨⟨⟨⟨hmagic, hdev⟩, hhdr⟩, -⟩, -⟩, -⟩, hone⟩ := hl
    exact ⟨hmagic, hdev, hhdr, hone⟩

/-! ### Lifecycle states -/

/-- A die's state depends on the AND of its copies alone. -/
theorem dieStateOf_and (a b : BitVec 3) : dieStateOf a b = dieStateOf (a &&& b) (a &&& b) := by
  unfold dieStateOf
  rw [BitVec.and_self]

/-- It counts the ones from bit 0 up. -/
theorem dieStateOf_ones (c : BitVec 3) :
    dieStateOf c c ≤ 3 ∧ ∀ n < 3, n < dieStateOf c c ↔ ∀ k ≤ n, c.getLsbD k = true := by
  revert c
  decide

/-- Settles O60: the codes, the count of ones, the lower of the dies, the split and the burn that was cut short. -/
theorem lifecycleStates : Obligations.LifecycleStates := by
  unfold Obligations.LifecycleStates
  refine ⟨by decide, fun a b => ?_, fun d => ⟨rfl, ?_, ?_⟩⟩
  · rw [dieStateOf_and a b]
    exact ⟨rfl, dieStateOf_ones (a &&& b)⟩
  · unfold Dev.lcSplit
    exact bne_iff_ne
  · unfold Dev.burnPartial
    rw [Bool.or_eq_true, bne_iff_ne, bne_iff_ne]
    constructor
    · rintro (h | h)
      · exact ⟨0, by decide, h⟩
      · exact ⟨1, by decide, h⟩
    · rintro ⟨h, hlt, hne⟩
      have hh : h = 0 ∨ h = 1 := by omega
      rcases hh with rfl | rfl
      · exact .inl hne
      · exact .inr hne

end Sys2Proof.Machine
end

section
/-! SUPPORT. Commands of Rows, lanes, ports and slots complete with their effects. -/

namespace Sys2Proof.Machine

/-- A write by the management PF that names bits `m` of a register of kind `k` and is let through. -/
theorem State.poke_kind (s : State) (k : RegKind) (i j : Nat) (m x : Word) (h : s.dev.takes ⟨k, i, j⟩) (hm : m &&& k.info.rsv = 0) :
    s.poke ⟨k, i, j⟩ m x = s.doneReg (s.dev.regAct .mgmtPf ⟨k, i, j⟩ (s.dev.poked ⟨k, i, j⟩ m x)) := s.poke_takes ⟨k, i, j⟩ m x h hm

/-- A command that acts under a condition. -/
theorem State.done_pos (s : State) {c : Prop} [Decidable c] {a b : Dev} (h : c) : s.done (if c then a else b) = .next (s.after a) :=
  congrArg s.done (if_pos h)

theorem State.done_neg (s : State) {c : Prop} [Decidable c] {a b : Dev} (h : ¬ c) : s.done (if c then a else b) = .next (s.after b) :=
  congrArg s.done (if_neg h)

/-- Settles O5: each is a write of its register. -/
theorem rowRegisterWritesComplete : Obligations.RowRegisterWritesComplete := by
  unfold Obligations.RowRegisterWritesComplete
  intro s
  exact ⟨fun r v h hv => s.write32_takes ⟨.rowSplit, r, 0⟩ v h hv,
    fun r lane h => s.poke_kind .rowSpareCtl r 0 0x7C0 (BitVec.ofNat 64 (64 * lane + 0x400)) h (by decide),
    fun r m v h hv => s.write32_takes ⟨.lanePrbsCtl, r, m⟩ v h hv,
    fun r m h => s.poke_kind .lanePrbsCtl r m 0x40 0x40 h (by decide),
    fun r m h => s.poke_kind .lanePrbsCtl r m 0x100 0x100 h (by decide)⟩

/-! ### Events of lanes -/

/-- A partner's request for coefficients while the lane answers. -/
theorem exec_eqPartnerRequest (s : State) (r : Fin 32) (m : Fin 17) (a b c e : BitVec 6) (pre : Bool) (h : s.dev.eqAnswers r m = true) :
    let x := s.dev.lane r m
    let ok := coefOk x.rate a.toNat b.toNat c.toNat e.toNat
    let y : LaneSt := { x with txPre := decide (5 ≤ x.rate) && pre }
    exec (.eqPartnerRequest r m a b c e pre) s = .next (s.after (
      (s.dev.emit (.eqAnswer r m ok)).setLane r m (if ok then { y with tx := [a.toNat, b.toNat, c.toNat, e.toNat] } else y))) :=
  s.done_pos h

/-- Settles O6: each event acts under the conditions named. -/
theorem laneEventsComplete : Obligations.LaneEventsComplete := by
  unfold Obligations.LaneEventsComplete
  intro s
  refine ⟨fun _ _ => rfl, fun r m a b c e pre hans hok => ?_, fun r m a b c e pre hans hok => ?_, fun r m a b c e pre hans => ?_,
    fun _ _ _ _ => rfl, fun r m hused hlt hlock hsub => ?_, fun _ _ => rfl, fun _ _ _ => rfl, fun r m hexp hsafe htx => ?_,
    fun r m c errs hused hlo hhi hdl => ?_⟩
  · have h := exec_eqPartnerRequest s r m a b c e pre hans
    dsimp only at h
    rw [hok] at h
    exact h
  · have h := exec_eqPartnerRequest s r m a b c e pre hans
    dsimp only at h
    rw [hok] at h
    exact h
  · exact s.done_neg (by simp [hans])
  · exact s.done_pos (by simp [hused, hlt, hlock, hsub])
  · have hinj : s.dev.prbsInject r m = s.dev.emit (.prbsError r m) := if_pos htx
    rw [← hinj]
    exact s.done_pos ⟨hexp, hsafe⟩
  · exact s.done_pos (by simp [Dev.marginable, hused, hlo, hhi, hdl])

/-! ### Sparing -/

/-- Settles O7: each message and event acts under the conditions named. -/
theorem sparingEventsComplete : Obligations.SparingEventsComplete := by
  unfold Obligations.SparingEventsComplete
  intro s
  dsimp only
  refine ⟨fun r hav hsent hsil hgot hrx => ?_, fun r hav hsent hsil hgot hrx => ?_, fun r cap hav hsil hsent => ?_, fun r cap hav hsil => ?_,
    fun r magic cap hno => ?_, fun r hav hrx htx hheard => ?_, fun r hheard => ?_, fun r hrx => s.done_pos hrx, fun r hrx => s.done_pos hrx,
    fun _ _ => rfl, fun r lane flit hav hlane htx => ?_, fun r lane flit hno => ?_, fun r lane seq hrx hl => s.done_pos ⟨hrx, hl⟩,
    fun r lane hrx hl => s.done_pos ⟨hrx, hl⟩, fun r m hrx hseq hlane => ?_⟩
  · refine (s.done_pos (by simp [hav, hsent, hsil])).trans ?_
    dsimp only
    rw [if_neg (show ¬ s.dev.rxSpare r = 0 from hrx), hgot]
    rfl
  · refine (s.done_pos (by simp [hav, hsent, hsil])).trans ?_
    dsimp only
    rw [if_pos (show s.dev.rxSpare r = 0 from hrx), hgot]
    rfl
  · refine (s.done_pos ⟨rfl, hav, hsil⟩).trans ?_
    dsimp only
    rw [hsent]
    rfl
  · exact s.done_pos ⟨rfl, hav, hsil⟩
  · have hnot : ¬ (magic = 0x6A ∧ s.dev.spareAvail r = true ∧ (s.dev.row r).silent = false) := by
      rintro ⟨hm, hav, hsil⟩
      rcases hno with h | h | h
      · exact h hm
      · rw [hav] at h
        cases h
      · rw [hsil] at h
        cases h
    exact ⟨s.done_neg hnot, s.done_neg hnot⟩
  · refine (s.done_pos (by simp [hav, hheard])).trans ?_
    dsimp only
    rw [if_neg (by omega), if_neg (by omega)]
  · exact s.done_neg (by simp [hheard])
  · exact (s.done_pos (by simp [hav, hlane])).trans (congrArg s.done (if_pos htx))
  · refine s.done_neg ?_
    rcases hno with h | h <;> simp [h]
  · show execSpareSubstitution r s = _
    unfold execSpareSubstitution
    dsimp only
    rw [hlane]
    exact s.done_pos ⟨hrx, hseq⟩

end Sys2Proof.Machine
end

section
/-! SUPPORT. Commands of ports, links and slots complete with their effects. -/

namespace Sys2Proof.Machine

/-! ### Writes that set or clear a bit of their value -/

/-- Bits set in a 32-bit value. -/
theorem zeroExtend_or (v m : BitVec 32) : (v ||| m).zeroExtend 64 = v.zeroExtend 64 ||| m.zeroExtend 64 := BitVec.setWidth_or

/-- Bits cleared in a 32-bit value. -/
theorem zeroExtend_and_not (v m : BitVec 32) : (v &&& ~~~m).zeroExtend 64 = v.zeroExtend 64 &&& ~~~(m.zeroExtend 64) := by
  apply BitVec.eq_of_getLsbD_eq
  intro i hi
  by_cases h32 : i < 32
  · simp [hi, h32]
  · simp [BitVec.getLsbD_of_ge v i (by omega)]

/-- A write by the management PF that is let through, of a value with bits `m` set. -/
theorem State.write32_set (s : State) (r : RegId) (v m : BitVec 32) (h : s.dev.takes r) (hv : v.zeroExtend 64 &&& r.kind.info.rsv = 0)
    (hm : m.zeroExtend 64 &&& r.kind.info.rsv = 0) :
    s.write r (v.zeroExtend 64 ||| m.zeroExtend 64) = s.doneReg (s.dev.regAct .mgmtPf r (v.zeroExtend 64 ||| m.zeroExtend 64)) := by
  rw [← zeroExtend_or]
  refine s.write32_takes r (v ||| m) h ?_
  rw [zeroExtend_or, BitVec.and_comm, BitVec.and_or_distrib_left, BitVec.and_comm _ (v.zeroExtend 64), hv, BitVec.and_comm _ (m.zeroExtend 64), hm]
  rfl

/-- The same with bits `m` cleared. -/
theorem State.write32_clear (s : State) (r : RegId) (v m : BitVec 32) (h : s.dev.takes r) (hv : v.zeroExtend 64 &&& r.kind.info.rsv = 0) :
    s.write r (v.zeroExtend 64 &&& ~~~(m.zeroExtend 64)) = s.doneReg (s.dev.regAct .mgmtPf r (v.zeroExtend 64 &&& ~~~(m.zeroExtend 64))) := by
  rw [← zeroExtend_and_not]
  refine s.write32_takes r (v &&& ~~~m) h ?_
  rw [zeroExtend_and_not, BitVec.and_assoc, BitVec.and_comm _ r.kind.info.rsv, ← BitVec.and_assoc, hv]
  simp

/-- Settles O8: each is a write of its register. -/
theorem portRegisterWritesComplete : Obligations.PortRegisterWritesComplete := by
  unfold Obligations.PortRegisterWritesComplete
  intro s
  have hone : (1 : BitVec 32).zeroExtend 64 &&& RegKind.portCtl.info.rsv = 0 := by decide
  exact ⟨fun p v h hv => ⟨s.write32_set ⟨.portCtl, p, 0⟩ v 1 h hv hone, s.write32_clear ⟨.portCtl, p, 0⟩ v 1 h hv⟩,
    fun q v h hv => s.write32_takes ⟨.partCtl, q, 0⟩ v h hv,
    fun q h => s.poke_kind .partCtl q 0 2 2 h (by decide),
    fun v h hv => s.write32_takes ⟨.svcCtl, 0, 0⟩ v h hv,
    fun k v h hv => s.write32_takes ⟨.sbCtl, k, 0⟩ v h hv,
    fun p v h hv => s.write64_takes ⟨.slotCfg, p, 0⟩ v rfl h hv,
    fun n v h hv => s.write64_takes ⟨.spcCfg, n, 0⟩ v rfl h hv⟩

/-! ### Links -/

/-- DL_UP while the data link layer is down. -/
theorem exec_dlUp_fresh (s : State) (p : Fin 512) (w : Fin 17) (rate : Fin 7) (flit : Bool) (credits : List Nat) (hpcie : s.dev.isPcie p = true)
    (hw : s.dev.widthOk p w = true) (hrate : rate.val ≤ s.dev.maxRate p) (hflit : flitOk rate flit = true)
    (hdl : s.dev.b F.PORT_STATUS_DL_ACTIVE p = false) (htrain : s.dev.mayTrain p = true) :
    exec (.dlUp p w rate flit credits) s = .next (s.after (s.dev.pcieUp p w rate flit credits)) := by
  show execDlUp p w rate flit credits s = _
  unfold execDlUp
  simp only [hpcie, hw, hrate, hflit, hdl, htrain, decide_true, Bool.and_self, Bool.not_true, Bool.false_eq_true, if_false, if_true]
  rfl

/-- DL_UP from recovery or L1, in the mode that the link has. -/
theorem exec_dlUp_back (s : State) (p : Fin 512) (w : Fin 17) (rate : Fin 7) (credits : List Nat) (hpcie : s.dev.isPcie p = true)
    (hw : s.dev.widthOk p w = true) (hrate : rate.val ≤ s.dev.maxRate p) (hflit : flitOk rate (s.dev.b F.PORT_STATUS_FLIT p) = true)
    (hdl : s.dev.b F.PORT_STATUS_DL_ACTIVE p = true) (hlt : s.dev.f F.PORT_STATUS_LTSSM p = 4 ∨ s.dev.f F.PORT_STATUS_LTSSM p = 6) :
    exec (.dlUp p w rate (s.dev.b F.PORT_STATUS_FLIT p) credits) s = .next (s.after (s.dev.backToL0 p w rate)) := by
  have hin : (s.dev.f F.PORT_STATUS_LTSSM p == 4 || s.dev.f F.PORT_STATUS_LTSSM p == 6) = true := by simpa using hlt
  show execDlUp p w rate _ credits s = _
  unfold execDlUp
  simp only [hpcie, hw, hrate, hflit, hdl, hin, decide_true, Bool.and_self, Bool.not_true, Bool.false_eq_true, if_false, if_true, beq_self_eq_true]
  rfl

/-- ACK and NAK of a link that is up. -/
theorem exec_ackDllp (s : State) (p : Fin 512) (nak : Bool) (seq : BitVec 12) (good : Bool) (hpcie : s.dev.isPcie p = true)
    (hdl : s.dev.b F.PORT_STATUS_DL_ACTIVE p = true) : exec (.ackDllp p nak seq good) s = .next (s.after (
      if !good then s.dev.aerC (portFn p) AER.badDllp
      else match s.dev.ackTo p seq.toNat with
        | .ok x => if nak then x.pcieReplay p else x
        | .error _ => (s.dev.aerU (portFn p) AER.dlp).linkDown p)) := s.done_pos (by simp [hpcie, hdl])

/-- Settles O9: each event acts under the conditions named. -/
theorem linkEventsComplete : Obligations.LinkEventsComplete := by
  unfold Obligations.LinkEventsComplete
  intro s
  dsimp only
  refine ⟨fun _ => rfl, fun p hpurge => s.done_pos hpurge, fun p hpcie hrole hdl => s.done_pos (by simp [hpcie, hrole, hdl]), fun _ _ _ => rfl,
    fun p hpcie hlt hflit haspm hidle => s.done_pos (by simp [hpcie, hlt, hflit, haspm, hidle]), fun p hflit => s.done_neg (by simp [hflit]),
    fun p hpcie hrole hlt hdl haspm hidle hrest => s.done_pos (by simp [hpcie, hrole, hlt, hdl, haspm, hidle, hrest]),
    fun p pm hpcie hrole hlt hdl => s.done_pos (by simp [hpcie, hrole, hlt, hdl]),
    fun p hon hinit hidle hw => s.done_pos (by simp [hon, hinit, hidle, hw]),
    fun p hon hinit hidle hw => s.done_pos (by simp [hon, hinit, hidle, hw]),
    fun p w hon hin hw => s.done_pos (by simpa [hon, hw] using hin),
    fun p c hen hrole hdpc harm => s.done_pos (by simp [hen, hrole, hdpc, harm]), fun _ => rfl,
    exec_dlUp_fresh s, exec_dlUp_back s,
    fun p rate hen hdl hlt => ?_,
    fun p rate htrain => s.done_pos (by simp [htrain]),
    fun p k n hpcie hdl hroom hinf => ?_, fun p k n hpcie hdl hover => ?_, fun p seq x hpcie hdl hack => ?_, fun p nak seq hpcie hdl hack => ?_,
    fun p nak seq hpcie hdl => exec_ackDllp s p nak seq false hpcie hdl,
    fun p hpcie hdl hrep => s.done_pos (by simp [hpcie, hdl, hrep])⟩
  · have hin : (s.dev.f F.PORT_STATUS_LTSSM p == 3 || s.dev.f F.PORT_STATUS_LTSSM p == 5 || s.dev.f F.PORT_STATUS_LTSSM p == 6) = true := by
      simpa [or_assoc] using hlt
    exact s.done_pos (by rw [hen, hdl, hin]; rfl)
  · refine (s.done_pos (by simp [hpcie, hdl])).trans (congrArg s.done (if_neg ?_))
    rintro (hlt | ⟨hmem, hne⟩)
    · omega
    · rcases hinf with h | h
      · rw [h] at hmem
        cases hmem
      · exact hne h
  · exact (s.done_pos (by simp [hpcie, hdl])).trans (congrArg s.done (if_pos hover))
  · rw [exec_ackDllp s p false seq true hpcie hdl, exec_ackDllp s p true seq true hpcie hdl, hack]
    exact ⟨rfl, rfl⟩
  · rw [exec_ackDllp s p nak seq true hpcie hdl, hack]
    rfl

/-! ### Slots -/

/-- A press while the slot cools, has lost its adapter or its button is down, or in the frame of a loss, is discarded. -/
theorem exec_attentionButton_discarded (s : State) (p : Fin 512) (h : s.dev.slotState p = 5 ∨ (s.dev.slot p).lost = true
      ∨ (s.dev.slot p).btnDown = true ∨ ((s.dev.slot p).present = true ∧ lossAhead p s.pending = true)) :
    exec (.attentionButtonPressed p) s = .next (s.after s.dev) := by
  refine s.done_neg ?_
  unfold Dev.pressTaken
  rcases h with h | h | h | ⟨h, hloss⟩
  · simp [h]
  · simp [h]
  · simp [h]
  · simp [h, hloss]

/-- An adapter's power is off at once where nothing waits for its gate. -/
theorem Dev.powerOffDone_rest (d : Dev) (p : Nat) (hst : d.slotState p = 4) (hload : (d.slot p).offAtLoad = false)
    (hgate : (d.slot p).gateWait = false) : d.powerOffDone p = d.slotRest p := by
  unfold Dev.powerOffDone
  dsimp only
  rw [if_pos ⟨hst, hload⟩, hgate]
  rfl

/-- Settles O10: each event acts under the conditions named. -/
theorem slotEventsComplete : Obligations.SlotEventsComplete := by
  unfold Obligations.SlotEventsComplete
  intro s
  dsimp only
  refine ⟨fun _ _ => rfl, fun h hruns => s.done_pos hruns, fun _ _ => rfl, fun p hfrozen hslot hbtn hst hlost hdown hagrees hloss => ?_,
    exec_attentionButton_discarded s, fun _ _ => rfl,
    fun p fault hfrozen hslot hagrees hrun => s.done_neg (by simpa [hfrozen, hslot, hagrees] using Nat.lt_of_succ_le hrun),
    fun p fault hrun => s.done_pos (by simp [hrun]), fun p hfn => ⟨s.done_pos hfn, s.done_pos hfn⟩, fun p power attn hfn => s.done_pos hfn,
    fun p hst => s.done_pos hst, fun _ _ => rfl, fun p hst hpow => s.done_pos ⟨hst, hpow⟩, fun _ => rfl, fun _ _ _ => rfl,
    fun p => s.dev.powerOffDone_rest p⟩
  refine s.done_pos ?_
  unfold Dev.pressTaken
  rcases hloss with h | h <;> simp [hfrozen, hslot, hbtn, hst, hlost, hdown, hagrees, h]

/-- Settles O11: each event acts under the conditions named. -/
theorem slotPowerEventsComplete : Obligations.SlotPowerEventsComplete := by
  unfold Obligations.SlotPowerEventsComplete
  intro s
  exact ⟨fun _ _ _ _ => rfl, fun _ => ⟨rfl, rfl, rfl, rfl⟩, fun n hst => s.done_pos hst,
    fun n hen hst => s.done_pos (by simpa [hen, or_assoc] using hst), fun n hhold hst => s.done_pos (by simp [hhold, hst])⟩

end Sys2Proof.Machine
end

section
/-! SUPPORT. Commands of forwarding, the Floor and egress complete with their effects. -/

namespace Sys2Proof.Machine

/-! ### Forwarding -/

/-- A TLP that comes in whole is what its arrival answers. -/
theorem exec_tlpIngress_whole (s : State) (p : Fin 512) (t : Tlp) (shared : Bool) (rx : RxErr) (hwhole : rx.badEnd = none) (x : Dev)
    (hx : (s.dev.rxErrors p rx).tlpIn p t shared = .ok x) : exec (.tlpIngress p t shared rx) s = .next (s.after x) := by
  show execTlpIngress p t shared rx s = _
  unfold execTlpIngress
  rw [hwhole]
  dsimp only
  rw [hx]
  rfl

/-- A TLP whose check fails. -/
theorem exec_tlpIngress_bad (s : State) (p : Fin 512) (t : Tlp) (shared : Bool) (rx : RxErr) (k : Nat) (hbad : rx.badEnd = some k) :
    exec (.tlpIngress p t shared rx) s = .next (s.after ((s.dev.rxErrors p rx).badTlp p t k)) := by
  show execTlpIngress p t shared rx s = _
  unfold execTlpIngress
  rw [hbad]
  rfl

/-- A request of a running Porter. -/
theorem exec_porterRequestIngress (s : State) (n : Fin 64) (hon : s.dev.porterOn n = true) (x : Dev) (hx : s.dev.bindPorter n = .ok x) :
    exec (.porterRequestIngress n) s = .next (s.after x) := by
  show s.doneOr (if s.dev.porterOn n then s.dev.bindPorter n else .ok s.dev) = _
  rw [if_pos hon, hx]
  rfl

/-- A host's write of a bridge register, taken or refused. -/
theorem exec_hostBridgeWrite (s : State) (q : Fin 128) (f : BridgeFn) (off : BitVec 12) (be : BitVec 4) (v : BitVec 32) :
    exec (.hostBridgeWrite q f off be v) s = .next (s.after
      ((s.dev.bridgeWrite q f (off.toNat / 4 * 4) be v { q := q }).getD (s.dev.emit (.cfgDone q .ur)))) := by
  show execHostBridgeWrite q f off be v s = _
  unfold execHostBridgeWrite
  cases s.dev.bridgeWrite q f (off.toNat / 4 * 4) be v { q := q } <;> rfl

/-- WIN_COMMIT outside a Hall that is let through. -/
theorem exec_winCommit (s : State) (h : s.dev.takes ⟨.fwdCtl, 0, 0⟩) (hhall : s.dev.b F.HALL_CTL_EN = false) : exec .winCommit s =
    .next (s.after (((s.dev.storeReg ⟨.fwdCtl, 0, 0⟩ (s.dev.poked ⟨.fwdCtl, 0, 0⟩ 1 1)).commitReq).twinUpdate).twinUpdate) := by
  have hgo : getBits (s.dev.poked ⟨.fwdCtl, 0, 0⟩ 1 1) 0 1 = 1 := by
    rw [getBits_one, s.dev.poked_bit_named _ _ _ 0 (by decide) (by decide)]
    decide
  have hen : ∀ v, (s.dev.storeReg ⟨.fwdCtl, 0, 0⟩ v).b F.HALL_CTL_EN = false := fun v =>
    ((s.dev.changes_storeReg ⟨.fwdCtl, 0, 0⟩ v (RegKind.only .fwdCtl) rfl).b F.HALL_CTL_EN 0 0 rfl).trans hhall
  refine (s.poke_kind .fwdCtl 0 0 1 1 h (by decide)).trans ?_
  show s.doneReg (s.dev.wrFwdCtl _) = _
  unfold Dev.wrFwdCtl
  dsimp only
  rw [if_pos hgo, hen]
  rfl

/-- A fence on a checker. -/
theorem exec_pitchFence (s : State) (c : Fin 576) (h : s.dev.takes ⟨.pitchFence, c, 0⟩) :
    exec (.pitchFence c) s = .next (s.after (s.dev.fence c).twinUpdate) :=
  have hrsv : (1 : BitVec 32).zeroExtend 64 &&& RegKind.pitchFence.info.rsv = 0 := by decide
  s.write32_takes ⟨.pitchFence, c, 0⟩ 1 h hrsv

/-- Settles O12: arrivals and requests by their lookups, the writes by their registers. -/
theorem forwardingCommandsComplete : Obligations.ForwardingCommandsComplete := by
  unfold Obligations.ForwardingCommandsComplete
  intro s
  dsimp only
  refine ⟨fun p t shared rx hwhole hmem hroute => ?_, fun p t shared rx hwhole hwin => ?_, fun p t shared rx k => exec_tlpIngress_bad s p t shared rx k,
    fun n q rest hon hport hwin => ?_, fun _ _ _ _ _ _ => rfl, fun q f off be v x hx => ?_, fun q f off be v hx => ?_,
    fun q hheld => s.done_neg (by simp [hheld]), exec_winCommit s, rfl, rfl, fun v h hv => s.write32_takes ⟨.hashSeed, 0, 0⟩ v h hv,
    exec_bucketPathWrite s, fun _ => rfl, exec_pitchFence s, fun _ => rfl, exec_sealWrite_pitch s, exec_sealWrite_win s⟩
  · obtain ⟨x, hx⟩ := (s.dev.rxErrors p rx).tlpIn_ok p t shared (.inl ⟨hmem, hroute⟩)
    exact ⟨x, hx, exec_tlpIngress_whole s p t shared rx hwhole x hx⟩
  · obtain ⟨x, hx⟩ := (s.dev.rxErrors p rx).tlpIn_ok p t shared (.inr hwin)
    exact ⟨x, hx, exec_tlpIngress_whole s p t shared rx hwhole x hx⟩
  · obtain ⟨x, hx⟩ := s.dev.bindPorter_ok n (fun y hy => by
      rw [hport] at hy
      cases hy
      exact hwin)
    exact ⟨x, hx, exec_porterRequestIngress s n hon x hx⟩
  · rw [exec_hostBridgeWrite, hx]
    rfl
  · rw [exec_hostBridgeWrite, hx]
    rfl

end Sys2Proof.Machine
end

section
/-! SUPPORT. Commands of the Floor complete with their effects. -/

namespace Sys2Proof.Machine

/-! ### Scrub steps and windows -/

/-- The scrub steps of a bank and the windows of its group go to the group's domain. -/
theorem pulseDomain_bank (b : Fin 512) : pulseDomain b = 160 + b / 16 := by
  unfold pulseDomain
  rw [if_pos b.isLt]

theorem pulseDomain_window (b : Fin 512) : pulseDomain (512 + b / 16) = 160 + b / 16 := by
  unfold pulseDomain
  rw [if_neg (by omega)]
  omega

section
variable (d : Dev) (k upset : Nat)

/-- A pulse toward a block in reset is lost. -/
theorem Dev.raisePulse_reset (h : d.rst.blockBusy = some (68 + domHalf (pulseDomain k))) :
    d.raisePulse k upset = d.inc .cdcLost 1 (domHalf (pulseDomain k)) := if_pos h

/-- A destination that runs acts on it. -/
theorem Dev.raisePulse_acts (h : d.rst.blockBusy ≠ some (68 + domHalf (pulseDomain k)))
    (hready : d.b F.DOMAIN_STATE_READY (pulseDomain k) = true) : d.raisePulse k upset = d.pulseAct k upset :=
  (if_neg h).trans (if_pos hready)

/-- Toward stopped clocks it waits as the outstanding one, is counted, or finds the counter full. -/
theorem Dev.raisePulse_stopped (h : d.rst.blockBusy ≠ some (68 + domHalf (pulseDomain k)))
    (hready : d.b F.DOMAIN_STATE_READY (pulseDomain k) = false) (hpow : d.f F.DOMAIN_STATE_POWER (pulseDomain k) = 2) : d.raisePulse k upset =
      if (d.pulses.look {} k).out = 0 then d.setPulse k { d.pulses.look {} k with out := 1 }
      else if (d.pulses.look {} k).acc < 15 then d.setPulse k { d.pulses.look {} k with acc := (d.pulses.look {} k).acc + 1 }
      else d.pulseOvf (pulseDomain k) := by
  unfold Dev.raisePulse
  dsimp only
  rw [if_neg h, hready, if_neg (by decide), if_pos hpow]

/-- Toward a domain without power it is lost. -/
theorem Dev.raisePulse_off (h : d.rst.blockBusy ≠ some (68 + domHalf (pulseDomain k)))
    (hready : d.b F.DOMAIN_STATE_READY (pulseDomain k) = false) (hpow : d.f F.DOMAIN_STATE_POWER (pulseDomain k) ≠ 2) :
    d.raisePulse k upset = d.inc .cdcLost 1 (domHalf (pulseDomain k)) := by
  unfold Dev.raisePulse
  dsimp only
  rw [if_neg h, hready, if_neg (by decide), if_neg hpow]

end

/-- A full counter sets CDC_OVF, and names the domain where CDC_OVF was clear. -/
theorem Dev.pulseOvf_noted (d : Dev) (n : Nat) (hn : n < 256) : (d.pulseOvf n).b F.CLK_STATUS_CDC_OVF (domHalf n) = true
    ∧ (d.pulseOvf n).pulses = d.pulses ∧ (d.pulseOvf n).f F.CLK_STATUS_OVF_DOMAIN (domHalf n) =
      (if d.b F.CLK_STATUS_CDC_OVF (domHalf n) then d.f F.CLK_STATUS_OVF_DOMAIN (domHalf n) else n) := by
  unfold Dev.pulseOvf
  refine ⟨Dev.b_setB_same _ _ _ _ _ rfl (by decide), ?_, ?_⟩
  · dsimp only
    split <;> rfl
  · rw [Dev.f_setB_other _ _ _ _ _ _ _ _ (by decide) (by decide)]
    split
    · rfl
    · rw [Dev.f_setF_same _ _ _ _ _ (by decide)]
      exact Nat.mod_eq_of_lt hn

/-- The handshakes are no part of error reporting. -/
theorem Dev.onlyReports.pulses {d t : Dev} (h : d.onlyReports t) : t.pulses = d.pulses := by
  obtain ⟨-, -, -, -, -, -, -, hrest⟩ := h
  exact (congrArg Dev.pulses hrest :)

/-! ### The commands -/

/-- A scrub step is a pulse toward its group. -/
theorem exec_scrubRow (s : State) (b : Fin 512) (upset : Nat) : exec (.scrubRow b upset) s = .next (s.after (s.dev.raisePulse b upset)) := rfl

/-- A group that is live scrubs the bank's next chunk row. -/
theorem Dev.pulseAct_scrub (d : Dev) (b : Fin 512) (upset : Nat) (hlive : (d.group (b / 16)).live = true) :
    let x := d.floor.banks.look {} b
    let d1 := d.scrubChunk b (bankCell b (x.row / 4)) (x.row % 4) upset
    d.pulseAct b upset = { d1 with floor := { d1.floor with
      banks := d1.floor.banks.put {} b { d1.floor.banks.look {} b with row := (x.row + 1) % 3072 } } } := by
  have hact : d.pulseAct b upset = d.scrubRow b upset := if_pos b.isLt
  rw [hact]
  exact if_pos hlive

/-- A sweep of a queue's link memory. -/
theorem exec_sweep_none (s : State) (e : Fin 578) (q : Fin 9) (pos single : Nat) : exec (.linkMemorySweepDone e q pos single none) s =
    .next (s.after (if ((s.dev.entriesCorrected single).queue e q).isEmpty then s.dev.entriesCorrected single
      else (s.dev.entriesCorrected single).sweepQueue e q pos)) := rfl

/-- Corrected link entries leave the queues. -/
theorem Dev.queue_entriesCorrected (d : Dev) (n e q : Nat) : (d.entriesCorrected n).queue e q = d.queue e q := by
  have haer : ∀ x : Dev, (x.aerC .mgmtPf AER.correctedInternal).queue e q = x.queue e q := by
    intro x
    obtain ⟨-, -, -, -, -, -, -, hrest⟩ := x.reports_aerC AER.correctedInternal
    have hfloor := congrArg Dev.floor hrest
    unfold Dev.queue
    rw [hfloor]
  unfold Dev.entriesCorrected
  split
  · rfl
  · rw [haer]
    rfl

/-- Settles O13: pulses by their destination, the writes by their registers. -/
theorem floorCommandsComplete : Obligations.FloorCommandsComplete := by
  unfold Obligations.FloorCommandsComplete
  intro s
  dsimp only
  have hbank : (0x2000000000000 : Word) &&& RegKind.floorBank.info.rsv = 0 := by decide
  have hlost : ∀ (b : Fin 512) (upset : Nat), s.dev.rst.blockBusy = some (68 + domHalf (160 + b / 16)) →
      exec (.scrubRow b upset) s = .next (s.after (s.dev.inc .cdcLost 1 (domHalf (160 + b / 16)))) := by
    intro b upset hbusy
    rw [← pulseDomain_bank] at hbusy ⊢
    rw [exec_scrubRow, s.dev.raisePulse_reset b upset hbusy]
  refine ⟨fun b upset hready hlive hbusy => ?_, fun b upset hbusy hready => ⟨fun hpow => ⟨fun hout => ?_, fun hout hacc => ?_, fun hout hacc => ?_⟩,
    fun hpow => ?_⟩, hlost, fun e q pos single hempty => ?_, fun e q pos hfull => ?_, fun e q pos single c => ?_, fun b hready hbusy => ?_,
    fun b h => s.write64_takes ⟨.floorBank, b, 0⟩ 0x2000000000000 rfl h hbank, fun _ => rfl, fun _ => rfl,
    fun g v h hv => s.write32_takes ⟨.groupCtl, g, 0⟩ v h hv, fun v h hv => s.write32_takes ⟨.floorRsvGroups, 0, 0⟩ v h hv, fun _ _ => rfl,
    fun h => s.poke_kind .floorCtl 0 0 1 1 h (by decide), fun hwiping hlate => ?_⟩
  · rw [← pulseDomain_bank] at hready hbusy
    rw [exec_scrubRow, s.dev.raisePulse_acts b upset hbusy hready, s.dev.pulseAct_scrub b upset hlive]
  · rw [← pulseDomain_bank] at hready hbusy hpow
    rw [exec_scrubRow, s.dev.raisePulse_stopped b upset hbusy hready hpow, if_pos hout]
  · rw [← pulseDomain_bank] at hready hbusy hpow
    rw [exec_scrubRow, s.dev.raisePulse_stopped b upset hbusy hready hpow, if_neg (by omega), if_pos hacc]
  · rw [← pulseDomain_bank] at hready hbusy hpow ⊢
    have hstep := exec_scrubRow s b upset
    rw [s.dev.raisePulse_stopped b upset hbusy hready hpow, if_neg (by omega), if_neg (by omega)] at hstep
    obtain ⟨hovf, hpulses, hdom⟩ := s.dev.pulseOvf_noted (pulseDomain b) (by rw [pulseDomain_bank]; omega)
    refine ⟨_, hstep, ?_, ?_, ?_⟩
    · rw [s.after_b _ _ _ _ rfl, hovf]
    · rw [(s.reports_after _).pulses, hpulses]
    · rw [s.after_f _ _ _ _ rfl, hdom]
  · rw [← pulseDomain_bank] at hready hbusy hpow ⊢
    rw [exec_scrubRow, s.dev.raisePulse_off b upset hbusy hready hpow]
  · refine (exec_sweep_none s e q pos single).trans (s.done_pos ?_)
    rw [s.dev.queue_entriesCorrected, hempty]
    rfl
  · refine (exec_sweep_none s e q pos 0).trans (s.done_neg ?_)
    rw [s.dev.queue_entriesCorrected]
    simpa using hfull
  · have hstep : exec (.linkMemorySweepDone e q pos single (some c)) s = s.done (if (((s.dev.entriesCorrected single).logEntry c 3).queue e q).isEmpty
        then (s.dev.entriesCorrected single).logEntry c 3 else ((s.dev.entriesCorrected single).logEntry c 3).sweepQueue e q pos) := rfl
    rw [hstep]
    simp only [List.isEmpty_iff]
    rfl
  · have hstep : exec (.retireWindow b) s = .next (s.after (s.dev.raisePulse (512 + b / 16) 0)) := rfl
    have hact : s.dev.pulseAct (512 + b / 16) 0 = s.dev.retireWindow (b / 16) := by
      unfold Dev.pulseAct
      rw [if_neg (by omega), Nat.add_sub_cancel_left]
    rw [← pulseDomain_window] at hready hbusy
    rw [hstep, s.dev.raisePulse_acts _ 0 hbusy hready, hact]
    rfl
  · have hends : s.dev.wipeEnds =
        ({ s.dev with floor := { s.dev.floor with wiping := false, wipeHalf := none, late := [] } } : Dev).setB F.FLOOR_CTL_FLOOR_WIPED true := by
      unfold Dev.wipeEnds
      rw [hlate, List.mergeSort_nil]
      rfl
    rw [← hends]
    exact s.done_pos hwiping

end Sys2Proof.Machine
end

section
/-! SUPPORT. Commands of arbitration, schedulers, gates and the debug port complete with their effects. -/

namespace Sys2Proof.Machine

/-! ### The TAPs (R443) -/

/-- The controller of a TAP moves on by TMS. -/
theorem TapSt.clock_st (x : TapSt) (tms tdi : Bool) (pins : List Bool) (high : BitVec 6) : (x.clock tms tdi pins high).st = x.st.next tms := rfl

/-- Test-Logic-Reset selects BYPASS. -/
theorem TapSt.clock_reset (x : TapSt) (tms tdi : Bool) (pins : List Bool) (high : BitVec 6) (h : x.st = .testLogicReset) :
    (x.clock tms tdi pins high).ir = 0xFF := by
  unfold TapSt.clock
  rw [h]

/-- Shift-DR shifts TDI in. -/
theorem TapSt.clock_shiftDr (x : TapSt) (tms tdi : Bool) (pins : List Bool) (high : BitVec 6) (h : x.st = .shiftDr) :
    (x.clock tms tdi pins high).sr = x.sr.drop 1 ++ [tdi] := by
  unfold TapSt.clock
  rw [h]

theorem Dev.jtag_driveBoundary (d : Dev) (die : Nat) (old new : TapSt) : (d.driveBoundary die old new).jtag = d.jtag := by
  unfold Dev.driveBoundary
  split <;> rfl

/-- A TCK cycle clocks both TAPs, the East one with the West one's TDO. -/
theorem Dev.jtag_tck (d : Dev) (tms tdi : Bool) : ∃ (p1 p2 : List Bool) (h1 h2 : BitVec 6),
    (d.tck tms tdi).jtag.w = d.jtag.w.clock tms tdi p1 h1 ∧ (d.tck tms tdi).jtag.e = d.jtag.e.clock tms d.jtag.w.tdo p2 h2 := by
  refine ⟨d.pinLevels, ((d.useFree pinWords).useFree).pinLevels, ((d.useFree pinWords).freeVal.truncate 6),
    ((((d.useFree pinWords).useFree).useFree pinWords).freeVal.truncate 6), ?_⟩
  have hdrive := fun (x : Dev) (w w1 e e1 : TapSt) =>
    (Dev.jtag_driveBoundary (x.driveBoundary 0 w w1) 1 e e1).trans (x.jtag_driveBoundary 0 w w1)
  unfold Dev.tck
  dsimp only
  split
  · exact ⟨congrArg JtagSt.w (hdrive _ _ _ _ _), congrArg JtagSt.e (hdrive _ _ _ _ _)⟩
  · exact ⟨congrArg JtagSt.w (hdrive _ _ _ _ _), congrArg JtagSt.e (hdrive _ _ _ _ _)⟩

/-- The TAPs are no part of error reporting. -/
theorem Dev.onlyReports.jtag {d t : Dev} (h : d.onlyReports t) : t.jtag = d.jtag := by
  obtain ⟨-, -, -, -, -, -, -, hrest⟩ := h
  exact (congrArg Dev.jtag hrest :)

theorem State.afterTwin_jtag (s : State) (d : Dev) : (s.after d.twinUpdate).dev.jtag = d.jtag := by
  obtain ⟨n, l, o, t, h⟩ := d.reports_twinUpdate
  rw [(s.reports_after _).jtag, h.jtag]

/-! ### The commands -/

/-- An access of the debug port that answers. -/
theorem exec_debugPortAccess (s : State) (t : DbgTarget) (write : Bool) (v : BitVec 512) (busy : Bool) (k : Fin 5) (x : Dev)
    (h : s.dev.dbgAccess t write v busy k = .ok x) : exec (.debugPortAccess t write v busy k) s = .next (s.after x.twinUpdate) :=
  congrArg s.doneReg h

/-- A takeover whose instant has come. -/
theorem Dev.gateTakeover_due (d : Dev) (p : Nat) (hen : d.b F.GATE_CTL_EN p = true) (hpend : d.b F.GATE_CTL_SWITCH_PEND p = true)
    (hdue : d.gateFirst p (1 - d.gateList p) (d.sched p).swFrom ≤ d.nowNs) :
    let d1 := ((d.setF F.GATE_CTL_ACTIVE (1 - d.gateList p) p).setB F.GATE_CTL_SWITCH_PEND false p).setSched p
      { d.sched p with gateStarted := true }
    d.gateTakeover p = (d1.gateEntry p).settleRound p := by
  have htake : d.gateTake p = ((d.setF F.GATE_CTL_ACTIVE (1 - d.gateList p) p).setB F.GATE_CTL_SWITCH_PEND false p).setSched p
      { d.sched p with gateStarted := true } := if_pos (by simp [hpend, hdue])
  dsimp only
  rw [← htake]
  exact if_pos hen

/-- A write of a scheduler parameter that is let through. -/
theorem exec_schedulerParameterWrite (s : State) (p : Fin 512) (r : SchedReg) (v : Word) (h : s.dev.takes (schedRegId p r))
    (hv : v &&& (schedRegId p r).width &&& (schedRegId p r).kind.info.rsv = 0) :
    exec (.schedulerParameterWrite p r v) s =
      .next (s.after (s.dev.wrSched (schedRegId p r) (v &&& (schedRegId p r).width)).twinUpdate) := by
  refine (s.write_takes (schedRegId p r) v h hv).trans ?_
  generalize v &&& (schedRegId p r).width = x
  cases r <;> rfl

/-- Settles O14: each command by its operation, the writes by their registers, the TAPs by their clock. -/
theorem egressCommandsComplete : Obligations.EgressCommandsComplete := by
  unfold Obligations.EgressCommandsComplete
  intro s
  dsimp only
  refine ⟨fun _ _ _ => rfl, fun _ => rfl, rfl, fun _ => rfl,
    fun p h => ⟨s.poke_kind .gateCtl p 0 1 1 h (by decide), s.poke_kind .gateCtl p 0 8 8 h (by decide)⟩, fun _ => rfl,
    fun p hen hpend hdue => ?_, fun _ _ => rfl, exec_schedulerParameterWrite s, fun p hround => s.done_neg (by simp [hround]),
    exec_debugPortAccess s, fun write v busy k => ⟨rfl, fun tms tdi => ?_⟩⟩
  · rw [← s.dev.gateTakeover_due p hen hpend hdue]
    rfl
  · obtain ⟨p1, p2, h1, h2, hw, he⟩ := s.dev.jtag_tck tms tdi
    have hstep : exec (.debugPortAccess (.pins (.tck tms tdi)) write v busy k) s = .next (s.after (s.dev.tck tms tdi).twinUpdate) := rfl
    refine ⟨_, hstep, ?_⟩
    rw [s.afterTwin_jtag, hw, he]
    exact ⟨rfl, rfl, TapSt.clock_reset _ _ _ _ _, TapSt.clock_reset _ _ _ _ _, TapSt.clock_shiftDr _ _ _ _ _, TapSt.clock_shiftDr _ _ _ _ _⟩

end Sys2Proof.Machine
end

section
/-! SUPPORT. Control flits of a Hall (R206, R211): the statements on a state in which a flit that comes lay among a segment's data flits. -/

namespace Sys2Proof.Machine

/-- The reset device with port 0 a fabric port in L0 whose link is ACTIVE; it expects SEQ 10, and SEQ 5 lay among the data flits of a segment, so
that the control flit with SEQ 5 has been accepted before its command. -/
def amongFlits : Dev :=
  ((((State.reset.dev.setB F.PORT_CTL_EN true 0).setF F.PORT_CTL_ROLE 2 0).setF F.NERUP_STATUS_STATE 5 0).setF F.PORT_STATUS_LTSSM 3 0).setNerup 0
    { rx := 10, among := [5] }

/-- The port of `amongFlits` with the flit of SEQ 5 heard. -/
def amongHeard : Dev := amongFlits.setNerup 0 { amongFlits.nerupOf 0 with among := (amongFlits.nerupOf 0).among.erase 5 }

theorem amongFlits_hears : amongFlits.hearsFlits 0 = true := by decide +kernel

/-- A control flit that lay among a segment's data flits is heard, whatever SEQ is expected next. -/
theorem amongFlits_ctlFlit (k : Dev → Dev) : amongFlits.ctlFlit 0 5 true k = k amongHeard := by
  have hamong : (true && (amongFlits.nerupOf 0).among.contains 5) = true := by decide +kernel
  unfold Dev.ctlFlit
  dsimp only
  rw [amongFlits_hears, if_neg (by decide), if_pos hamong]
  rfl

/-- Were it not, it would be a flit accepted before, and discarded. -/
theorem amongFlits_missed : amongFlits.flitMissed 0 5 true = amongFlits := by
  have hold : (true && decide (512 ≤ (5 + 1024 - (amongFlits.nerupOf 0).rx) % 1024)) = true := by decide +kernel
  unfold Dev.flitMissed
  dsimp only
  rw [if_pos hold]

/-- The message of a flit that is heard can be counted as discarded. -/
theorem amongHeard_dropMsg : (amongHeard.dropMsg 0).reg .hallMsgDrop 0 0 ≠ amongFlits.reg .hallMsgDrop 0 0 := by decide +kernel

/-- A message of no listed type for another member. -/
def unlistedMsg : CtlMsg := { mtype := 0, src := 0, dst := 0, hallId := 0 }

theorem exec_controlMessageRelay_among : exec (.controlMessageRelay 0 5 true unlistedMsg) { State.reset with dev := amongFlits } =
    .next ({ State.reset with dev := amongFlits }.after (amongHeard.dropMsg 0)) := by
  have hown : ¬ amongFlits.ownCommand (0 : Fin 512) unlistedMsg = true := by decide +kernel
  refine (State.done_neg _ hown).trans (congrArg (fun t => Host.Outcome.next (State.after _ t)) ((amongFlits_ctlFlit _).trans (if_pos ?_)))
  simp [unlistedMsg, relayed]

/-- Refutes O15: a control flit that lay among the data flits of a segment is no missed flit, though its SEQ is not the next expected one. -/
theorem not_hallMembershipCommandsComplete : ¬ Obligations.HallMembershipCommandsComplete := by
  unfold Obligations.HallMembershipCommandsComplete
  intro h
  obtain ⟨-, -, -, -, -, -, -, -, hmiss, -⟩ := h { State.reset with dev := amongFlits }
  have hseq : (5 : BitVec 10).toNat ≠ (amongFlits.nerupOf (0 : Fin 512)).rx := by decide +kernel
  have hrun := hmiss 0 5 true unlistedMsg (by decide +kernel) amongFlits_hears (Or.inr hseq)
  rw [exec_controlMessageRelay_among, show (5 : BitVec 10).toNat = 5 from rfl, show ((0 : Fin 512) : Nat) = 0 from rfl, amongFlits_missed] at hrun
  have hstate := congrArg (fun t : State => t.dev.reg .hallMsgDrop 0 0) (Host.Outcome.next.inj hrun)
  dsimp only at hstate
  rw [State.after_reg _ _ _ _ _ rfl, State.after_reg _ _ _ _ _ rfl] at hstate
  exact amongHeard_dropMsg hstate

/-- A HELLO at its fifteenth link, in the flit of SEQ 5. -/
def farHello : MsgHdr := { port := 0, src := 1, hallId := 0, hops := 15, seq := 5 }

theorem exec_hello_among : exec (.hello farHello 0 false false) { State.reset with dev := amongFlits } =
    .next ({ State.reset with dev := amongFlits }.after (amongHeard.dropMsg 0).twinUpdate) :=
  congrArg (State.doneTwin _) (amongFlits_ctlFlit _)

/-- Refutes O16: a HELLO in a control flit that lay among the data flits of a segment is heard, though its SEQ is not the next expected one. -/
theorem not_nerupLinkCommandsComplete : ¬ Obligations.NerupLinkCommandsComplete := by
  unfold Obligations.NerupLinkCommandsComplete
  intro h
  obtain ⟨-, -, -, -, hmiss, -⟩ := h { State.reset with dev := amongFlits }
  have hseq : farHello.seq.toNat ≠ (amongFlits.nerupOf farHello.port).rx := by decide +kernel
  have hrun := hmiss farHello 0 false false amongFlits_hears (Or.inr hseq)
  rw [exec_hello_among, show amongFlits.flitMissed farHello.port farHello.seq.toNat farHello.good = amongFlits from amongFlits_missed] at hrun
  have hstate := congrArg (fun t : State => t.dev.reg .hallMsgDrop 0 0) (Host.Outcome.next.inj hrun)
  dsimp only at hstate
  rw [State.afterTwin_reg _ _ _ _ _ rfl, State.afterTwin_reg _ _ _ _ _ rfl] at hstate
  exact amongHeard_dropMsg hstate

end Sys2Proof.Machine
end

section
/-! SUPPORT. Commands of the Hall Commit, of bus locks and of the Twin Hall complete with their effects. -/

namespace Sys2Proof.Machine

/-- A command that acts under a condition, with what the Twin Hall's summary follows. -/
theorem State.doneTwin_pos (s : State) {c : Prop} [Decidable c] {a b : Dev} (h : c) :
    s.doneTwin (if c then a else b) = .next (s.after a.twinUpdate) := congrArg s.doneTwin (if_pos h)

theorem State.doneTwin_neg (s : State) {c : Prop} [Decidable c] {a b : Dev} (h : ¬ c) :
    s.doneTwin (if c then a else b) = .next (s.after b.twinUpdate) := congrArg s.doneTwin (if_neg h)

/-! ### The phases of a Hall commit (R213, R214) -/

/-- A PREPARE_ACK with a code other than 0. -/
theorem exec_prepareAck_failed (s : State) (m : MsgHdr) (code : BitVec 8) (h : code ≠ 0) :
    exec (.prepareAck m code) s = .next (s.after (s.dev.onMsg m (fun d =>
      if d.isMaster && d.f F.HALL_STATUS_PHASE == 2 && d.hall.inCommit.contains m.src.val then d.commitAbort else d)).twinUpdate) := by
  show execPrepareAck m code s = _
  unfold execPrepareAck
  simp only [if_neg h]
  rfl

/-- A phase that times out at the master. -/
theorem exec_phaseTimeout (s : State) (hen : s.dev.b F.HALL_CTL_EN = true) (hm : s.dev.isMaster = true) (hw : s.dev.hall.waits ≠ []) :
    exec .phaseTimeout s = s.doneTwin (match s.dev.f F.HALL_STATUS_PHASE with
      | 0 => s.dev.commitFollow
      | 4 => s.dev.hall.waits.foldl (fun d m => d.phaseMsg m 0x27) s.dev
      | _ => s.dev.commitAbort) :=
  s.doneTwin_pos (by simp [hen, hm, hw])

/-- Settles O17: each message and event is what the phase does with it. -/
theorem hallCommitCommandsComplete : Obligations.HallCommitCommandsComplete := by
  unfold Obligations.HallCommitCommandsComplete
  intro s
  dsimp only
  refine ⟨fun _ _ _ _ _ _ => rfl, fun _ => rfl, fun _ _ _ _ => rfl, fun _ _ _ => rfl, fun _ => rfl, fun _ => rfl, fun _ => rfl, fun _ => rfl,
    fun _ _ => rfl, fun _ => ⟨rfl, rfl, rfl⟩, exec_prepareAck_failed s, fun _ => rfl, fun hen hm hw hp => ?_, fun hen hm hw hp => ?_,
    fun hen hm hw hp => ?_, fun _ => rfl⟩
  all_goals
    rw [exec_phaseTimeout s hen hm hw, hp]
    rfl

/-! ### Bus locks and the Twin Hall -/

/-- Settles O18: each command acts under the conditions named. -/
theorem lockAndTwinCommandsComplete : Obligations.LockAndTwinCommandsComplete := by
  unfold Obligations.LockAndTwinCommandsComplete
  intro s
  dsimp only
  exact ⟨fun _ _ _ => rfl, rfl, fun _ _ _ => ⟨rfl, rfl, rfl⟩, fun _ => rfl, fun p ht hn => s.done_pos (by simp [ht, hn]), fun _ _ => rfl,
    fun _ _ => rfl, fun m who ht => s.done_neg (by simp [ht]), fun m who ht => s.done_pos (by simp [ht]), fun _ _ => rfl, rfl⟩

end Sys2Proof.Machine
end

section
/-! SUPPORT. Ring and descriptor commands of the Porters complete with their effects. -/

namespace Sys2Proof.Machine

/-! ### Completions at a Porter (R273) -/

/-- What Porter `n` finds of its tag slots by `f`, where no occupied slot answers to `f`. -/
theorem Dev.findTag_none {β : Type} (d : Dev) (n : Nat) (f : Nat × Option TagSt → TagSt → Option β)
    (h : ∀ e ∈ (d.porter n).tags, ∀ t : TagSt, e.2 = some t → f e t = none) :
    (d.porter n).tags.findSome? (fun e => e.2.bind (f e)) = none := by
  rw [List.findSome?_eq_none_iff]
  intro e he
  cases ht : e.2 with
  | none => rfl
  | some t => exact h e he t ht

/-- A completion that names no tag slot. -/
theorem Dev.cplArrive_unnamed (d : Dev) (n : Nat) (c : Tlp)
    (h : ∀ e ∈ (d.porter n).tags, ∀ t : TagSt, e.2 = some t → d.tagNamed n c t = false) :
    d.cplArrive n c = .ok (if d.porterSafe n then d.inc .staleCpl 1 n else d.unexpected n) := by
  have hhit := d.findTag_none n (fun e t => if d.tagNamed n c t = true ∧ t.quar = false then
    (d.badWord (78 + n / 32) (fun w => decide (w = .tag n e.1))).map (fun w => (w, e.1, t)) else none)
    (fun e he t ht => if_neg (by simp [h e he t ht]))
  have hmine := d.findTag_none n (fun e t => if d.tagNamed n c t then some (e.1, t) else none)
    (fun e he t ht => if_neg (by simp [h e he t ht]))
  unfold Dev.cplArrive
  dsimp only
  rw [hhit]
  unfold Dev.porterCpl
  dsimp only
  rw [hmine]

/-- A completion that names the first tag slot, where no word of the Porter's block is bad. -/
theorem Dev.cplArrive_named (d : Dev) (n : Nat) (c : Tlp) (slot : Nat) (t : TagSt) (rest : Tbl (Option TagSt))
    (hbad : (d.errs.look {} (78 + n / 32)).bad = []) (htags : (d.porter n).tags = (slot, some t) :: rest) (hname : d.tagNamed n c t = true)
    (hquar : t.quar = false) :
    d.cplArrive n c = if d.porterSafe n then .ok (d.staleIn n slot t c)
      else if d.staleTag t then .ok ((d.staleIn n slot t c).run n) else d.completionIn n slot t c := by
  have hword (p : BadWord → Bool) : d.badWord (78 + n / 32) p = none := by
    unfold Dev.badWord
    rw [hbad]
    rfl
  have hhit := d.findTag_none n (fun e t => if d.tagNamed n c t = true ∧ t.quar = false then
    (d.badWord (78 + n / 32) (fun w => decide (w = .tag n e.1))).map (fun w => (w, e.1, t)) else none)
    (fun e _ t _ => by simp [hword])
  unfold Dev.cplArrive
  dsimp only
  rw [hhit]
  unfold Dev.porterCpl
  simp [htags, hname, hquar]

/-- The data of a data read comes as it is expected. -/
theorem Dev.completionIn_data (d : Dev) (n slot : Nat) (t : TagSt) (c : Tlp) (hkind : t.kind = 0) (hst : c.status = .sc) (hep : c.ep = false)
    (hexp : t.expects c = true) : d.completionIn n slot t c = .ok (d.dataIn n slot t c) := by
  unfold Dev.completionIn
  simp [hst, hep, hexp, hkind]

/-! ### Reads that are answered -/

theorem exec_pollComplete (s : State) (n : Fin 64) (st : Fin 1024) (ok : Bool) (pis : List (BitVec 16)) (slot : Nat) (t : TagSt)
    (h : s.dev.outstanding n (fun t => t.kind == 3 && t.stall == st.val) = some (slot, t)) (hst : s.dev.staleTag t = false) :
    exec (.pollComplete n st ok pis) s = s.doneOr (if ok then (s.dev.answered n slot t).pollDone n st (pis.map BitVec.toNat)
      else .ok (((s.dev.answered n slot t).pollFail st).run n)) := by
  show execPollComplete n st ok pis s = _
  unfold execPollComplete
  simp only [h, hst]
  rfl

/-- A doorbell page whose values are all in their rings is taken. -/
theorem Dev.pollDone_ok (d : Dev) (n st : Nat) (pis : List Nat)
    (h : ∀ r : Nat, r < 8 → d.b F.RING_CTL_EN st r = true → pis.getD r 0 < d.rsize (8 * st + r)) : ∃ x : Dev, d.pollDone n st pis = .ok x := by
  have hin : (List.range 8).any (fun r => d.b F.RING_CTL_EN st r && decide (d.rsize (8 * st + r) ≤ pis.getD r 0)) = false := by
    rw [List.any_eq_false]
    intro r hr
    have := h r (List.mem_range.mp hr)
    simp only [Bool.and_eq_true, decide_eq_true_eq, not_and, Nat.not_le]
    exact this
  refine ⟨_, if_neg ?_⟩
  rw [hin]
  exact Bool.false_ne_true

theorem exec_descriptorFetch (s : State) (n : Fin 64) (k : Nat) (hr : (s.dev.porter n).ring = some k) (hon : s.dev.porterOn n = true)
    (ht : s.dev.tag14 = true) : exec (.descriptorFetch n) s = .next (s.after ((s.dev.issueFetch n k).run n)) := by
  show execDescriptorFetch n s = _
  unfold execDescriptorFetch
  simp only [hr]
  exact s.done_pos (by simp [hon, ht])

theorem exec_descriptorReadComplete (s : State) (n : Fin 64) (ok : Bool) (l : List (BitVec 512)) (slot : Nat) (t : TagSt)
    (h : s.dev.outstanding n (fun t => t.kind == 2) = some (slot, t)) (hst : s.dev.staleTag t = false) :
    exec (.descriptorReadComplete n ok l) s =
      .next (s.after (if ok then (s.dev.answered n slot t).fetched n t l else (s.dev.answered n slot t).readFail n t 0)) := by
  show execDescriptorReadComplete n ok l s = _
  unfold execDescriptorReadComplete
  simp only [h]
  exact s.done_neg (by simp [hst])

theorem exec_dataReadIssue (s : State) (n : Fin 64) (k : Nat) (hr : (s.dev.porter n).ring = some k) (hon : s.dev.porterOn n = true)
    (ht : s.dev.tag14 = true) : exec (.dataReadIssue n) s = .next (s.after ((s.dev.issueRead n k).run n)) := by
  show execDataReadIssue n s = _
  unfold execDataReadIssue
  simp only [hr]
  exact s.done_pos (by simp [hon, ht])

theorem exec_completionTimeout (s : State) (n : Fin 64) (slot : Fin 512) (t : TagSt) (h : s.dev.tagAt n slot = some t) (hq : t.quar = false) :
    exec (.completionTimeout n slot) s = .next (s.after (s.dev.timedOut n slot t)) := by
  show execCompletionTimeout n slot s = _
  unfold execCompletionTimeout
  simp only [h]
  exact s.done_neg (by simp [hq])

theorem exec_quarantineEnd (s : State) (n : Fin 64) (slot : Fin 512) (t : TagSt) (h : s.dev.tagAt n slot = some t) (hq : t.quar = true) :
    exec (.quarantineEnd n slot) s = .next (s.after ((s.dev.freeTag n slot).run n)) := by
  show execQuarantineEnd n slot s = _
  unfold execQuarantineEnd
  simp only [h]
  exact s.done_pos hq

theorem exec_flushReadComplete (s : State) (n : Fin 64) (slot : Fin 512) (t : TagSt) (ok : Bool) (h : s.dev.tagAt n slot = some t)
    (hq : t.quar = false) (hk : t.kind = 4) (hst : s.dev.staleTag t = false) :
    exec (.flushReadComplete n slot ok) s = .next (s.after (((s.dev.answered n slot t).flushed (8 * t.stall + t.ring) t ok).run n)) := by
  show execFlushReadComplete n slot ok s = _
  unfold execFlushReadComplete
  simp only [h]
  refine (s.done_neg (by simp [hq, hk])).trans ?_
  rw [if_neg (by simp [hst])]

theorem exec_preemptionDone (s : State) (n : Fin 64) (k : Nat) (hr : (s.dev.porter n).ring = some k) (hp : (s.dev.porter n).park = true)
    (hk : s.dev.parkReady k = true) : exec (.preemptionDone n) s = .next (s.after ((s.dev.parkDone n k).run n)) := by
  show execPreemptionDone n s = _
  unfold execPreemptionDone
  simp only [hr]
  exact s.done_pos (by simp [hp, hk])

theorem exec_ringResume (s : State) (st : Fin 1024) (r : Fin 8) (h : s.dev.takesStall st ⟨.ringCtl, st, r⟩) :
    exec (.ringResume st r) s = .next (s.after (s.dev.wrRingCtl st r (s.dev.poked ⟨.ringCtl, st, r⟩ 0x20000 0x20000)).twinUpdate) :=
  have hrsv : (0x20000 : Word) &&& RegKind.ringCtl.info.rsv = 0 := by decide
  s.pokeStall_takes st ⟨.ringCtl, st, r⟩ 0x20000 0x20000 h hrsv

/-- Settles O19: each command acts under the conditions named. -/
theorem ringCommandsComplete : Obligations.RingCommandsComplete := by
  unfold Obligations.RingCommandsComplete
  intro s
  dsimp only
  refine ⟨fun _ _ => rfl, fun n st pis slot t hout hst hpi => ?_, fun n st pis slot t hout hst => exec_pollComplete s n st false pis slot t hout hst,
    exec_descriptorFetch s, exec_descriptorReadComplete s, exec_dataReadIssue s,
    fun n c hno => congrArg s.doneOr (s.dev.cplArrive_unnamed n c hno), fun n c slot t rest hbad htags hname hquar => ?_, exec_completionTimeout s,
    exec_quarantineEnd s, exec_flushReadComplete s, fun n hon => s.done_pos hon, exec_preemptionDone s, fun _ _ => rfl,
    fun st r h => ⟨exec_ringEnable s st r h, exec_ringDisable s st r h, exec_ringResume s st r h⟩⟩
  · obtain ⟨x, hx⟩ := (s.dev.answered n slot t).pollDone_ok n st (pis.map BitVec.toNat) hpi
    exact ⟨x, hx, (exec_pollComplete s n st true pis slot t hout hst).trans (congrArg s.doneOr hx)⟩
  · have hrun : exec (.porterCompletion n c) s = s.doneOr _ :=
      congrArg s.doneOr (s.dev.cplArrive_named n c slot t rest hbad htags hname hquar)
    refine ⟨fun hsafe => ?_, fun hsafe hst => ?_, fun hsafe hst hkind hsc hep hexp => ?_⟩
    · rw [hrun, hsafe]
      rfl
    · rw [hrun, hsafe, hst]
      rfl
    · rw [hrun, hsafe, hst, s.dev.completionIn_data n slot t c hkind hsc hep hexp]
      rfl

/-- Settles O20: a descriptor's operation begins by its OP. -/
theorem descriptorOperationsComplete : Obligations.DescriptorOperationsComplete := by
  unfold Obligations.DescriptorOperationsComplete
  intro s n
  exact ⟨rfl, rfl, rfl, rfl, rfl, rfl, rfl⟩

end Sys2Proof.Machine
end

section
/-! SUPPORT. Commands of translation, Stalls, the Ledger and error injection complete with their effects. -/

namespace Sys2Proof.Machine

/-! ### Writes of words that the command puts together -/

theorem ofNat_zeroExtend (n : Nat) (h : n < 2 ^ 32) : (BitVec.ofNat 32 n).zeroExtend 64 = BitVec.ofNat 64 n := by
  apply BitVec.eq_of_toNat_eq
  simp only [BitVec.truncate_eq_setWidth, BitVec.toNat_setWidth, BitVec.toNat_ofNat]
  omega

/-- A write of the number `n` that is let through. -/
theorem State.write_ofNat (s : State) (r : RegId) (n : Nat) (hn : n < 2 ^ 32) (h : s.dev.takes r) (hrsv : BitVec.ofNat 64 n &&& r.kind.info.rsv = 0) :
    s.write r (BitVec.ofNat 64 n) = s.doneReg (s.dev.regAct .mgmtPf r (BitVec.ofNat 64 n)) := by
  rw [← ofNat_zeroExtend n hn] at hrsv ⊢
  exact s.write32_takes r (BitVec.ofNat 32 n) h hrsv

/-- A number below `2 ^ k` has no bit in common with a mask that starts there. -/
theorem ofNat_and_high (n k : Nat) (m : Word) (hn : n < 2 ^ k) (hm : ∀ i < k, m.getLsbD i = false) : BitVec.ofNat 64 n &&& m = 0 := by
  apply BitVec.eq_of_getLsbD_eq
  intro i _
  rw [BitVec.getLsbD_and, BitVec.getLsbD_ofNat]
  rcases Nat.lt_or_ge i k with hi | hi
  · simp [hm i hi]
  · simp [Nat.testBit_eq_false_of_lt (Nat.lt_of_lt_of_le hn (Nat.pow_le_pow_right (by decide) hi))]

/-! ### Answers to faults (R301) -/

theorem respWord_lt (st : Fin 1024) (r : Fin 8) (poll abort : Bool) : st.val + 1024 * r.val + 8192 * b2n poll + 16384 * b2n abort < 2 ^ 15 := by
  have := st.isLt
  have := r.isLt
  have hp : b2n poll ≤ 1 := by cases poll <;> decide
  have ha : b2n abort ≤ 1 := by cases abort <;> decide
  omega

/-- What the word of an answer names. -/
theorem respWord_fields (st : Fin 1024) (r : Fin 8) (poll abort : Bool) :
    getBits (respWord st r poll abort) 0 10 = st ∧ getBits (respWord st r poll abort) 10 3 = r
      ∧ (respWord st r poll abort).getLsbD 13 = poll ∧ (respWord st r poll abort).getLsbD 14 = abort := by
  have hst := st.isLt
  have hr := r.isLt
  have hlt := respWord_lt st r poll abort
  have hnat : (respWord st r poll abort).toNat = st.val + 1024 * r.val + 8192 * b2n poll + 16384 * b2n abort := by
    unfold respWord
    rw [BitVec.toNat_ofNat, Nat.mod_eq_of_lt (by omega)]
  have hbit (k : Nat) : (respWord st r poll abort).getLsbD k
      = decide ((st.val + 1024 * r.val + 8192 * b2n poll + 16384 * b2n abort) / 2 ^ k % 2 = 1) := by
    rw [← hnat, ← BitVec.testBit_toNat, Nat.testBit_eq_decide_div_mod_eq]
  unfold getBits
  rw [hnat, hbit, hbit, Nat.shiftRight_eq_div_pow, Nat.shiftRight_eq_div_pow]
  cases poll <;> cases abort <;> simp only [b2n, decide_eq_true_eq, decide_eq_false_iff_not, reduceIte, Bool.false_eq_true] <;> omega

/-- An answer to a fault that is let through. -/
theorem State.write_resp (s : State) (h : Fin 2) (st : Fin 1024) (r : Fin 8) (poll abort : Bool) (ht : s.dev.takes ⟨.xlatResp, h, 0⟩) :
    s.write ⟨.xlatResp, h, 0⟩ (respWord st r poll abort) =
      .next (s.after (if abort then s.dev.respAbort h st r poll else s.dev.faultResume h st r poll).twinUpdate) := by
  have hlt := respWord_lt st r poll abort
  have hrsv : respWord st r poll abort &&& RegKind.xlatResp.info.rsv = 0 := ofNat_and_high _ 15 _ hlt (by decide)
  have hact : s.dev.wrXlatResp h (respWord st r poll abort) = if abort then s.dev.respAbort h st r poll else s.dev.faultResume h st r poll := by
    obtain ⟨hst, hr, hpoll, habort⟩ := respWord_fields st r poll abort
    unfold Dev.wrXlatResp
    rw [hst, hr, hpoll, habort]
  rw [← hact]
  exact s.write_ofNat ⟨.xlatResp, h, 0⟩ _ (by omega) ht hrsv

/-- Settles O21: each command is a write of its register, or what its event does. -/
theorem translationCommandsComplete : Obligations.TranslationCommandsComplete := by
  unfold Obligations.TranslationCommandsComplete
  intro s
  dsimp only
  exact ⟨fun st v h hv => s.write64_takes ⟨.stallXlat, st, 0⟩ v rfl h hv, fun _ _ _ _ => rfl, fun _ _ _ _ _ _ _ _ => rfl, fun _ _ _ => rfl,
    fun _ => rfl, fun h v ht hv => s.write32_takes ⟨.fqCi, h, 0⟩ v ht hv, fun h v ht hv => s.write64_takes ⟨.fqBase, h, 0⟩ v rfl ht hv,
    fun h st r poll ht => ⟨s.write_resp h st r poll false ht, s.write_resp h st r poll true ht⟩, fun _ _ _ _ => rfl,
    fun v ht hv => s.write32_takes ⟨.xlatInvCtl, 0, 0⟩ v ht hv, rfl, fun _ _ _ _ _ => rfl⟩

/-! ### Stalls (R309-R321) -/

theorem exec_mailboxAck (s : State) (st : Fin 1024) (h : s.dev.takesStall st ⟨.mbCtl, st, 0⟩) :
    exec (.mailboxAck st) s = .next (s.after (s.dev.wrMbCtl st (s.dev.poked ⟨.mbCtl, st, 0⟩ 0x400 0x400)).twinUpdate) :=
  have hrsv : (0x400 : Word) &&& RegKind.mbCtl.info.rsv = 0 := by decide
  s.pokeStall_takes st ⟨.mbCtl, st, 0⟩ 0x400 0x400 h hrsv

/-- Settles O22: each command is a write of its register, or what its event does. -/
theorem stallCommandsComplete : Obligations.StallCommandsComplete := by
  unfold Obligations.StallCommandsComplete
  intro s
  dsimp only
  exact ⟨fun st v h hv => s.write32_takes ⟨.stallBind, st, 0⟩ v h hv, fun st v h hv => s.write64_takes ⟨.stallShare, st, 0⟩ v rfl h hv,
    fun _ => rfl, fun st len h => exec_mailboxSend s st len h, fun st h => exec_mailboxAck s st h,
    fun st len h => s.poke_kind .mbMgrCtl st 0 0xFF (BitVec.ofNat 64 (2 * len.toNat + 1)) h (by decide),
    fun st h => ⟨exec_mailboxMgrAck s st h, s.poke_kind .mbMgrCtl st 0 0x80000 0x80000 h (by decide)⟩,
    fun _ => rfl, fun _ => rfl, fun _ _ => rfl, rfl, fun _ => rfl⟩

/-! ### The Ledger (R322-R334) -/

/-- What the commands of a Ledger context do, and the clearing of its faults. -/
theorem Dev.wrLedgerCmd_bits (d : Dev) (c : Nat) :
    d.wrLedgerCmd c 1 = ((d.storeReg ⟨.ledgerCmd, c, 0⟩ 1).ledgerFlush c).syncsRun c
      ∧ d.wrLedgerCmd c 2 = ((d.storeReg ⟨.ledgerCmd, c, 0⟩ 2).ledgerSwap c).syncsRun c
      ∧ d.wrLedgerCmd c 0x20 = (d.storeReg ⟨.ledgerCmd, c, 0⟩ 0x20).syncsRun c := by
  unfold Dev.wrLedgerCmd
  dsimp only
  refine ⟨?_, ?_, ?_⟩
  · rw [if_neg (by decide), if_pos (by decide)]
  · rw [if_pos (by decide), if_neg (by decide)]
  · rw [if_neg (by decide), if_neg (by decide)]

/-- A command of a Ledger context that is let through. -/
theorem State.write_ledgerCmd (s : State) (c : Fin 256) (n : Nat) (hn : n < 2 ^ 32) (h : s.dev.takes ⟨.ledgerCmd, c, 0⟩)
    (hrsv : BitVec.ofNat 64 n &&& RegKind.ledgerCmd.info.rsv = 0) :
    s.write ⟨.ledgerCmd, c, 0⟩ (BitVec.ofNat 64 n) = .next (s.after (s.dev.wrLedgerCmd c (BitVec.ofNat 64 n)).twinUpdate) :=
  s.write_ofNat ⟨.ledgerCmd, c, 0⟩ n hn h hrsv

/-- Settles O23: each command is a write of its register, or what its event does. -/
theorem ledgerCommandsComplete : Obligations.LedgerCommandsComplete := by
  unfold Obligations.LedgerCommandsComplete
  intro s
  dsimp only
  refine ⟨fun _ => rfl, fun _ _ _ _ => rfl, fun c hst hno => s.done_pos (by simp [hst, hno]), fun _ => rfl, fun c h => ?_,
    fun c v h hv => s.write64_takes ⟨.ledgerCtx, c, 0⟩ (v ||| 1) rfl h hv, fun c h => s.poke_kind .ledgerCtx c 0 1 0 h (by decide)⟩
  obtain ⟨hflush, hswap, hclear⟩ := s.dev.wrLedgerCmd_bits c
  rw [← hflush, ← hswap, ← hclear]
  exact ⟨s.write_ledgerCmd c 1 (by decide) h (by decide), s.write_ledgerCmd c 2 (by decide) h (by decide),
    s.write_ledgerCmd c 0x20 (by decide) h (by decide)⟩

/-! ### Injections (R350) -/

/-- An offset of a register and the bit of a parity injection name no reserved bit. -/
theorem injectWord_rsv (q : Nat) : BitVec.ofNat 64 (64 * q + 1) &&& RegKind.errInject.info.rsv = 0 := by
  have hmask : ∀ i < 64, RegKind.errInject.info.rsv.getLsbD i = decide (i = 4 ∨ i = 5) := by decide
  apply BitVec.eq_of_getLsbD_eq
  intro i hi
  rw [BitVec.getLsbD_and, BitVec.getLsbD_ofNat, hmask i hi]
  rcases Classical.em (i = 4 ∨ i = 5) with h | h
  · have hlow : (64 * q + 1).testBit i = (1 : Nat).testBit i := by
      have := Nat.testBit_mod_two_pow (64 * q + 1) 6 i
      rw [show (64 * q + 1) % 2 ^ 6 = 1 by omega, decide_eq_true (by omega), Bool.true_and] at this
      exact this.symm
    rcases h with rfl | rfl <;> simp [hlow] <;> decide
  · simp [h]

/-- Settles O24: each command is a write of its register, or what its event does. -/
theorem errorCommandsComplete : Obligations.ErrorCommandsComplete := by
  unfold Obligations.ErrorCommandsComplete
  intro s
  dsimp only
  refine ⟨fun _ _ => rfl, fun _ _ _ => rfl, fun b off h => ?_, fun b h => ⟨?_, ?_, exec_injectSafe s b h⟩, rfl, fun _ _ => rfl, fun _ _ => rfl⟩
  · have hoff := off.isLt
    exact s.write_ofNat ⟨.errInject, b, 0⟩ (64 * (off.toNat / 4) + 1) (by omega) h (injectWord_rsv _)
  · have hrsv : (2 : Word) &&& RegKind.errInject.info.rsv = 0 := by decide
    exact s.write_ofNat ⟨.errInject, b, 0⟩ 2 (by omega) h hrsv
  · have hrsv : (4 : Word) &&& RegKind.errInject.info.rsv = 0 := by decide
    exact s.write_ofNat ⟨.errInject, b, 0⟩ 4 (by omega) h hrsv

end Sys2Proof.Machine
end

section
/-! SUPPORT. Commands of clocks, power domains, resets, roles, the lifecycle and the boot complete with their effects. -/

namespace Sys2Proof.Machine

/-! ### Clocks and power domains (R366-R384) -/

theorem exec_domainWrite (s : State) (n : Fin 208) (h : s.dev.takes ⟨.domainCtl, n, 0⟩) :
    exec (.domainPowerOff n) s = .next (s.after (s.dev.wrDomain n (s.dev.poked ⟨.domainCtl, n, 0⟩ 1 0)).twinUpdate)
      ∧ exec (.domainClockStop n) s = .next (s.after (s.dev.wrDomain n (s.dev.poked ⟨.domainCtl, n, 0⟩ 2 0)).twinUpdate)
      ∧ exec (.domainClockStart n) s = .next (s.after (s.dev.wrDomain n (s.dev.poked ⟨.domainCtl, n, 0⟩ 2 2)).twinUpdate) :=
  ⟨s.poke_kind .domainCtl n 0 1 0 h (by decide), s.poke_kind .domainCtl n 0 2 0 h (by decide), s.poke_kind .domainCtl n 0 2 2 h (by decide)⟩

/-- Settles O25: each command acts under the conditions named. -/
theorem clockAndDomainCommandsComplete : Obligations.ClockAndDomainCommandsComplete := by
  unfold Obligations.ClockAndDomainCommandsComplete
  intro s
  dsimp only
  exact ⟨fun h hl => s.done_pos hl, fun h hh => s.done_pos hh, fun _ => rfl, fun _ _ => ⟨rfl, rfl, rfl, rfl⟩, fun _ => rfl,
    fun h v ht hv => s.write32_takes ⟨.droopCtl, h, 0⟩ v ht hv, fun n h => ⟨exec_domainPowerOn s n h, exec_domainWrite s n h⟩,
    fun _ => ⟨rfl, rfl, rfl⟩⟩

/-! ### Resets, roles, the lifecycle (R386-R401) -/

/-- A low of PERST_IN_N by its length; a glitch is no low. -/
theorem exec_perstInAssert_glitch (s : State) : exec (.perstInAssert .glitch) s = .next s := by
  show execPerstInAssert .glitch s = _
  unfold execPerstInAssert
  cases s.dev.rst.perstLow <;> rfl

theorem exec_perstInAssert_short (s : State) (h : s.dev.rst.perstLow = false) :
    exec (.perstInAssert .short) s = .next (if s.dev.freeVal.getLsbD 0 then ({ s with dev := s.dev.useFree } : State).perstTaken
      else { s with dev := s.dev.useFree }) := by
  show execPerstInAssert .short s = _
  unfold execPerstInAssert
  rw [h]

theorem exec_perstInAssert_long (s : State) (h : s.dev.rst.perstLow = false) : exec (.perstInAssert .long) s = .next s.perstTaken := by
  show execPerstInAssert .long s = _
  unfold execPerstInAssert
  rw [h]

/-- The word of a block reset is within RESET_CTL. -/
theorem blockResetWord_rsv : ∀ b : Fin 128, BitVec.ofNat 64 (2 * b.val + 0x100) &&& RegKind.resetCtl.info.rsv = 0 := by decide

/-- Settles O26: each command acts under the conditions named. -/
theorem resetAndRoleCommandsComplete : Obligations.ResetAndRoleCommandsComplete := by
  unfold Obligations.ResetAndRoleCommandsComplete
  intro s
  dsimp only
  exact ⟨exec_perstInAssert_long s, exec_perstInAssert_glitch s, exec_perstInAssert_short s, fun _ h => s.done_pos h, fun _ => rfl, rfl,
    fun _ _ => rfl, fun _ => rfl, fun _ _ _ => rfl, rfl, fun _ => rfl, fun h => s.poke_kind .resetCtl 0 0 1 1 h (by decide),
    fun b h => s.write_ofNat ⟨.resetCtl, 0, 0⟩ (2 * b + 0x100) (by omega) h (blockResetWord_rsv b), fun _ h => congrArg s.doneReg h, rfl,
    fun _ _ _ => ⟨fun h => congrArg s.doneReg h, fun h => congrArg s.doneReg h⟩, rfl, fun h => if_pos h⟩

/-! ### Boot (R395-R398) -/

theorem exec_write32 (s : State) (r : List Byte) (h : s.dev.recordOf 1 = some r) :
    exec .write32 s = s.doneReg ((s.dev.recordWrite r false).bind Dev.recordDone) := by
  show execWrite32 s = _
  unfold execWrite32
  rw [h]

theorem exec_write64 (s : State) (r : List Byte) (h : s.dev.recordOf 2 = some r) :
    exec .write64 s = s.doneReg ((s.dev.recordWrite r true).bind Dev.recordDone) := by
  show execWrite64 s = _
  unfold execWrite64
  rw [h]

theorem exec_poll32 (s : State) (r : List Byte) (h : s.dev.recordOf 3 = some r) : exec .poll32 s = s.doneReg (s.dev.poll r) := by
  show execPoll32 s = _
  unfold execPoll32
  rw [h]

/-- A poll that times out fails the boot, or ends its record in a replay after a block reset. -/
theorem exec_poll32Timeout (s : State) (r : List Byte) (h : s.dev.recordOf 3 = some r) : exec .poll32Timeout s = s.doneReg s.dev.pollFailed := by
  show execPoll32Timeout s = _
  unfold execPoll32Timeout
  rw [h]

theorem exec_delay (s : State) (r : List Byte) (h : s.dev.recordOf 4 = some r) :
    exec .delay s = .next (s.after { s.dev with rst := { s.dev.rst with delaying := true } }) := by
  show execDelay s = _
  unfold execDelay
  simp only [h]
  rfl

theorem exec_delayExpired (s : State) (h : s.dev.rst.delaying = true) (hs : s.dev.served = true) :
    exec .delayExpired s = s.doneReg ({ s.dev with rst := { s.dev.rst with delaying := false } } : Dev).recordDone := by
  show execDelayExpired s = _
  unfold execDelayExpired
  dsimp only
  rw [h, hs]
  rfl

theorem exec_endRecord (s : State) (r : List Byte) (h : s.dev.recordOf 0 = some r) : exec .endRecord s = .next (s.after s.dev.sectionDone) := by
  show execEndRecord s = _
  unfold execEndRecord
  rw [h]
  rfl

theorem exec_badRecord (s : State) (r : List Byte) (h : s.dev.record = some r) (hop : 4 < recOp r) :
    exec .badRecord s = .next (s.after (s.dev.bootFail 3 s.dev.rst.recIdx).twinUpdate) := by
  show execBadRecord s = _
  unfold execBadRecord
  rw [h]
  exact congrArg s.doneTwin (if_pos hop)

/-- Settles O27: each record does what its OP says. -/
theorem bootCommandsComplete : Obligations.BootCommandsComplete := by
  unfold Obligations.BootCommandsComplete
  intro s
  dsimp only
  refine ⟨fun _ _ => rfl, fun r x h hx => (exec_write32 s r h).trans (congrArg s.doneReg hx),
    fun r x h hx => (exec_write64 s r h).trans (congrArg s.doneReg hx), fun r x h hx => (exec_poll32 s r h).trans (congrArg s.doneReg hx),
    fun r h hno => ?_, fun r x h hreplay hx => ?_, exec_delay s, fun x h hs hx => (exec_delayExpired s h hs).trans (congrArg s.doneReg hx),
    exec_endRecord s, exec_badRecord s⟩
  · have hfail : s.dev.pollFailed = .ok (s.dev.bootFail 2 s.dev.rst.recIdx) := if_neg (by simp [hno])
    exact (exec_poll32Timeout s r h).trans (congrArg s.doneReg hfail)
  · have hdone : s.dev.pollFailed = s.dev.recordDone := if_pos hreplay
    exact (exec_poll32Timeout s r h).trans (congrArg s.doneReg (hdone.trans hx))

end Sys2Proof.Machine
end

section
/-! SUPPORT. Commands of the management doors and of device time complete with their effects. -/

namespace Sys2Proof.Machine

/-! ### The management doors (R404-R420) -/

/-- The Provisional ID as a number: the manufacturer above bit 33, the serial number's low half below. -/
theorem Dev.provisionalId_toNat (d : Dev) :
    d.provisionalId.toNat = 0x1F6A * 2 ^ 33 + (d.reg .dieSerial (if d.served then d.ic else 0)).toNat % 2 ^ 32 := by
  unfold Dev.provisionalId
  generalize d.reg .dieSerial (if d.served then d.ic else 0) = x
  have hlow : x.toNat % 2 ^ 32 < 2 ^ 33 := Nat.lt_trans (Nat.mod_lt _ (by decide)) (by decide)
  have hhigh : ((0x1F6A : BitVec 48) <<< 33).toNat = 0x1F6A <<< 33 := by decide
  have hserial : ((x.truncate 32).zeroExtend 48 : BitVec 48).toNat = x.toNat % 2 ^ 32 := by
    simp only [BitVec.truncate_eq_setWidth, BitVec.toNat_setWidth]
    omega
  rw [BitVec.toNat_or, hhigh, hserial, ← Nat.shiftLeft_add_eq_or_of_lt hlow, Nat.shiftLeft_eq]

/-- The two commands of EVQ_CMD. -/
theorem Dev.wrEvqCmd_bits (d : Dev) : d.wrEvqCmd 1 = d.evqDropRest ∧ d.wrEvqCmd 2 = d.evqFlush := by
  unfold Dev.wrEvqCmd
  dsimp only
  refine ⟨?_, ?_⟩
  · rw [if_neg (by decide), if_pos (by decide)]
  · rw [if_pos (by decide), if_neg (by decide)]

theorem exec_evqCmd (s : State) (h : s.dev.takes ⟨.evqCmd, 0, 0⟩) :
    exec .dropRest s = .next (s.after s.dev.evqDropRest.twinUpdate) ∧ exec .evqFlush s = .next (s.after s.dev.evqFlush.twinUpdate) := by
  obtain ⟨hdrop, hflush⟩ := s.dev.wrEvqCmd_bits
  rw [← hdrop, ← hflush]
  exact ⟨s.write_ofNat ⟨.evqCmd, 0, 0⟩ 1 (by decide) h (by decide), s.write_ofNat ⟨.evqCmd, 0, 0⟩ 2 (by decide) h (by decide)⟩

/-- Settles O28: each command acts under the conditions named. -/
theorem managementCommandsComplete : Obligations.ManagementCommandsComplete := by
  unfold Obligations.ManagementCommandsComplete
  intro s
  dsimp only
  refine ⟨fun adr a h => ⟨fun hadr => ?_, fun hadr => s.done_neg ?_, s.done_pos (by simp [h])⟩, s.dev.provisionalId_toNat,
    fun _ _ _ => rfl, fun _ _ => rfl, fun h => s.done_pos h, exec_evqCmd s, fun _ _ h => s.done_pos h, fun _ h => congrArg s.doneReg h,
    fun h => ⟨s.done_pos h, s.done_pos h, fun _ => s.done_pos h⟩, rfl, fun h => ⟨s.poke_kind .tallyCtl 0 0 4 4 h (by decide),
      s.poke_kind .tallyCtl 0 0 8 8 h (by decide), s.poke_kind .tallyCtl 0 0 2 2 h (by decide)⟩, fun h => s.doneTwin_pos h, fun _ _ _ => rfl,
    fun _ => rfl⟩
  · exact s.done_pos (by simp [h, hadr, i3cStatic])
  · have hother : (adr == i3cStatic) = false := beq_eq_false_iff_ne.mpr hadr
    simp [hother]

/-! ### Device time (R421-R424) -/

theorem exec_timeAlign (s : State) : exec .timeAlign s = s.done { s.dev with time :=
    if s.dev.ic = 0 then { s.dev.time with te := s.dev.time.tw } else { s.dev.time with tw := s.dev.time.te } } := rfl

/-- An edge of PPS_IN corrects device time; the first after a loss is posted. -/
theorem exec_ppsEdge (s : State) (h : s.dev.timeSrc = 2) : exec .ppsEdge s = .next (s.after (
    let d1 := s.dev.correct s.dev.nearestSecond s.dev.nowNs
    if s.dev.time.lost then d1.postTime 1 else d1)) :=
  s.done_pos h

theorem exec_ptmDialogComplete (s : State) (master delay : BitVec 64) (t0 : Nat) (hsrc : s.dev.timeSrc = 1) (h : s.dev.time.dialog = some t0) :
    let d1 := s.dev.correct (master.toNat - delay.toNat) t0
    exec (.ptmDialogComplete master delay) s = .next (s.after { d1 with time := { d1.time with dialog := none } }) := by
  show execPtmDialogComplete master delay s = _
  unfold execPtmDialogComplete
  dsimp only
  rw [h]
  exact s.done_pos hsrc

/-- Settles O29: each command acts under the conditions named. -/
theorem timeCommandsComplete : Obligations.TimeCommandsComplete := by
  unfold Obligations.TimeCommandsComplete
  intro s
  dsimp only
  refine ⟨exec_timeSet s, fun v h hv => s.write32_takes ⟨.timeCtl, 0, 0⟩ v h hv, fun h => ?_, fun h => ?_, fun hsrc hlost => ?_, fun hsrc hlost => ?_,
    fun hsrc hlost => s.done_pos ⟨hsrc, hlost⟩, fun hen hout hlt => s.done_pos ?_, fun hout hend => s.done_pos ?_,
    fun hsrc hen hrole hup => s.done_pos ⟨hsrc, hen, hrole, hup⟩, fun master delay t0 => exec_ptmDialogComplete s master delay t0,
    fun hsrc hdialog => s.done_pos ⟨hsrc, hdialog⟩, fun p hup hrole hon => s.done_pos (by simp [hup, hrole, hon])⟩
  · rw [exec_timeAlign, if_pos h]
    rfl
  · rw [exec_timeAlign, if_neg h]
    rfl
  · rw [exec_ppsEdge s hsrc, hlost]
    rfl
  · rw [exec_ppsEdge s hsrc, hlost]
    rfl
  · simp [Dev.ppsTurns, hen, hout, hlt]
  · unfold Dev.ppsTurns
    rw [if_neg Bool.false_ne_true, hout, Bool.true_and, Bool.or_eq_true, decide_eq_true_eq, Bool.not_eq_true']
    exact hend

end Sys2Proof.Machine
end

section
/-! SUPPORT. The register map: the dword after the lower half of a 64-bit register is its upper half. -/

namespace Sys2Proof.Machine

/-! ### Where the registers of a kind lie -/

/-- The strides and the base of a 64-bit kind are multiples of 8. -/
theorem RegKind.wide_aligned (k : RegKind) (h : k.info.wide = true) : k.info.base % 8 = 0 ∧ k.info.s1 % 8 = 0 ∧ k.info.s2 % 8 = 0 := by
  revert h
  cases k <;> decide

theorem RegKind.lane_base (k : RegKind) (h : k.info.form = .lane) : 0x4000 ≤ k.info.base := by
  revert h
  cases k <;> decide

/-- `n1` rows of `n2` registers of `bytes` bytes each, with strides `s1` and `s2`. -/
structure Grid where
  start : Nat
  n1 : Nat
  s1 : Nat
  n2 : Nat
  s2 : Nat
  bytes : Nat

/-- An offset lies in a register of the grid. -/
def Grid.covers (a : Grid) (x : Nat) : Prop :=
  ∃ i j r : Nat, i < a.n1 ∧ j < a.n2 ∧ r < a.bytes ∧ x = a.start + i * a.s1 + j * a.s2 + r

/-- The bytes of a register of a kind. -/
def RegKind.bytes (k : RegKind) : Nat := if k.info.wide then 8 else 4

/-- The registers of a kind in management PF BAR0. Of a Row's 17 lanes 16 lie in its first 0x8000 bytes and the shadow lane at 0x1C000, so that
counted from 0x1C000 of the Row before they are 24 registers of a row. -/
def RegKind.grid (k : RegKind) : Grid :=
  match k.info.form with
  | .plain => ⟨k.info.base, k.info.n1, k.info.s1, k.info.n2, k.info.s2, k.bytes⟩
  | .portSlot => ⟨k.info.base, 32, 0x20000, 16, 0x1000, k.bytes⟩
  | .lane => ⟨k.info.base - 0x4000, 33, 0x20000, 24, 0x800, k.bytes⟩
  | .stall => ⟨k.info.base, 0, 0, 0, 0, k.bytes⟩

/-- Index of an offset in an array of stride `s`. -/
def strideIndex (s d : Nat) : Nat := if s = 0 then 0 else d / s

theorem strideIndex_mul_le (s d : Nat) : strideIndex s d * s ≤ d := by
  unfold strideIndex
  split
  · omega
  · exact Nat.div_mul_le_self d s

/-- The register of a plain kind at an offset past its base. -/
theorem RegKind.hit_plain (k : RegKind) (off : Nat) (hform : k.info.form = .plain) (hbase : ¬ off < k.info.base) :
    k.hit none off =
      let d := off - k.info.base
      let i := strideIndex k.info.s1 d
      let j := strideIndex k.info.s2 (d - i * k.info.s1)
      let rest := d - i * k.info.s1 - j * k.info.s2
      if i < k.info.n1 ∧ j < k.info.n2 then if rest < k.bytes then some (⟨k, i, j⟩, decide (4 ≤ rest)) else none else none := by
  unfold RegKind.hit RegKind.bytes
  simp only [hform, hbase, if_false]
  rfl

/-- The register of a port slot kind at an offset past its base. -/
theorem RegKind.hit_portSlot (k : RegKind) (off : Nat) (hform : k.info.form = .portSlot) (hbase : ¬ off < k.info.base) :
    k.hit none off =
      let d := off - k.info.base
      if d / 0x20000 < 32 ∧ d % 0x20000 / 0x1000 < 16 then
        if d % 0x1000 < k.bytes then some (⟨k, 16 * (d / 0x20000) + d % 0x20000 / 0x1000, 0⟩, decide (4 ≤ d % 0x1000)) else none
      else none := by
  unfold RegKind.hit RegKind.bytes
  simp only [hform, hbase, if_false]

/-- The register of a lane kind at an offset past its base. -/
theorem RegKind.hit_lane (k : RegKind) (off : Nat) (hform : k.info.form = .lane) (hbase : ¬ off < k.info.base) :
    k.hit none off =
      let d := off - k.info.base
      if 32 ≤ d / 0x20000 then none
      else if d % 0x20000 < 0x8000 then
        if d % 0x20000 % 0x800 < k.bytes then
          some (⟨k, d / 0x20000, d % 0x20000 / 0x800⟩, decide (4 ≤ d % 0x20000 % 0x800)) else none
      else if 0x1C000 ≤ d % 0x20000 ∧ d % 0x20000 < 0x1C800 then
        if d % 0x20000 - 0x1C000 < k.bytes then some (⟨k, d / 0x20000, 16⟩, decide (4 ≤ d % 0x20000 - 0x1C000)) else none
      else none := by
  unfold RegKind.hit RegKind.bytes
  simp only [hform, hbase, if_false]

theorem RegKind.hit_stall (k : RegKind) (off : Nat) (hform : k.info.form = .stall) : k.hit none off = none := by
  unfold RegKind.hit
  simp only [hform, ite_self]

theorem RegKind.hit_below (k : RegKind) (off : Nat) (h : off < k.info.base) : k.hit none off = none := by
  unfold RegKind.hit
  simp only [h, if_true]

/-- A register that lies at an offset is of the kind's grid. -/
theorem RegKind.grid_of_hit (k : RegKind) (off : Nat) (y : RegId × Bool) (h : k.hit none off = some y) : k.grid.covers off := by
  by_cases hbase : off < k.info.base
  · rw [k.hit_below off hbase] at h
    cases h
  · cases hform : k.info.form with
    | plain =>
      rw [k.hit_plain off hform hbase] at h
      have hi := strideIndex_mul_le k.info.s1 (off - k.info.base)
      have hj := strideIndex_mul_le k.info.s2 (off - k.info.base - strideIndex k.info.s1 (off - k.info.base) * k.info.s1)
      simp only [Option.ite_none_right_eq_some] at h
      obtain ⟨⟨hi1, hj1⟩, hrest, -⟩ := h
      unfold Grid.covers RegKind.grid
      rw [hform]
      exact ⟨_, _, _, hi1, hj1, hrest, by dsimp only; omega⟩
    | portSlot =>
      rw [k.hit_portSlot off hform hbase] at h
      simp only [Option.ite_none_right_eq_some] at h
      obtain ⟨⟨hr, hc⟩, hrest, -⟩ := h
      unfold Grid.covers RegKind.grid
      rw [hform]
      exact ⟨_, _, _, hr, hc, hrest, by dsimp only; omega⟩
    | lane =>
      have hlane := k.lane_base hform
      rw [k.hit_lane off hform hbase] at h
      dsimp only at h
      unfold Grid.covers RegKind.grid
      rw [hform]
      dsimp only
      split at h
      · cases h
      · split at h
        · simp only [Option.ite_none_right_eq_some] at h
          exact ⟨(off - k.info.base) / 0x20000, 8 + (off - k.info.base) % 0x20000 / 0x800, _, by omega, by omega, h.1, by omega⟩
        · simp only [Option.ite_none_right_eq_some] at h
          exact ⟨(off - k.info.base) / 0x20000 + 1, 0, _, by omega, by omega, h.2.1, by omega⟩
    | stall =>
      rw [k.hit_stall off hform] at h
      cases h

/-! ### Grids that lie apart -/

/-- How far the places of `n` registers reach modulo `g`: a stride that `g` divides adds nothing. -/
def reach (g n s : Nat) : Nat := if s % g = 0 then 0 else (n - 1) * s

/-- The length of a grid modulo `g`. -/
def Grid.foot (a : Grid) (g : Nat) : Nat := reach g a.n1 a.s1 + reach g a.n2 a.s2 + a.bytes

/-- From the start of `a` to that of `b`, modulo `g`. -/
def Grid.gap (a b : Grid) (g : Nat) : Nat := (b.start % g + g - a.start % g) % g

/-- The grids lie apart modulo `g`. -/
def Grid.apartAt (a b : Grid) (g : Nat) : Bool := decide (a.foot g ≤ a.gap b g ∧ a.gap b g + b.foot g ≤ g)

/-- A grid of two registers in each row as two of one. -/
def Grid.columns (a : Grid) : List Grid :=
  if a.n2 = 2 then [{ a with n2 := 1 }, { a with start := a.start + a.s2, n2 := 1 }] else [a]

/-- The grids lie apart modulo one of the strides of the register map. -/
def Grid.apart (a b : Grid) : Bool :=
  a.columns.all (fun x => b.columns.all (fun y => [27, 17, 12, 11, 10, 9, 8, 7, 6, 5, 4].any (fun e => x.apartAt y (2 ^ e))))

theorem mul_modEq_reach (g n s i : Nat) (h : i < n) : ∃ e : Nat, e ≤ reach g n s ∧ i * s ≡ e [MOD g] := by
  unfold reach
  split
  · next hs => exact ⟨0, Nat.le_refl 0, (Nat.modEq_zero_iff_dvd.mpr ((Nat.dvd_of_mod_eq_zero hs).mul_left i))⟩
  · exact ⟨i * s, Nat.mul_le_mul_right s (by omega), rfl⟩

/-- What a grid covers lies within its length modulo `g`. -/
theorem Grid.covers_foot (a : Grid) (g x : Nat) (h : a.covers x) : ∃ e : Nat, e < a.foot g ∧ x ≡ a.start + e [MOD g] := by
  obtain ⟨i, j, r, hi, hj, hr, rfl⟩ := h
  obtain ⟨e1, he1, hm1⟩ := mul_modEq_reach g a.n1 a.s1 i hi
  obtain ⟨e2, he2, hm2⟩ := mul_modEq_reach g a.n2 a.s2 j hj
  refine ⟨e1 + e2 + r, by unfold Grid.foot; omega, ?_⟩
  have := (((Nat.ModEq.refl a.start).add hm1).add hm2).add_right r
  rwa [Nat.add_assoc a.start e1, Nat.add_assoc a.start (e1 + e2)] at this

theorem Grid.start_modEq (a b : Grid) (g : Nat) (hg : 0 < g) : b.start ≡ a.start + a.gap b g [MOD g] := by
  have ha := Nat.mod_lt a.start hg
  have hsum : a.start % g + (b.start % g + g - a.start % g) = b.start % g + g := by omega
  have hmod : (a.start % g + (b.start % g + g - a.start % g)) % g = b.start % g := by rw [hsum, Nat.add_mod_right, Nat.mod_mod]
  unfold Nat.ModEq Grid.gap
  rw [Nat.add_mod a.start, Nat.mod_mod, ← Nat.add_mod_mod (a.start % g), Nat.mod_mod, Nat.add_mod_mod, hmod]

/-- No offset lies in both of two grids that lie apart modulo `g`. -/
theorem Grid.apartAt_covers (a b : Grid) (g x : Nat) (h : a.apartAt b g = true) (ha : a.covers x) : ¬ b.covers x := by
  intro hb
  obtain ⟨hlo, hhi⟩ := of_decide_eq_true h
  obtain ⟨e, he, hxe⟩ := a.covers_foot g x ha
  obtain ⟨f, hf, hxf⟩ := b.covers_foot g x hb
  have hstart := a.start_modEq b g (by omega)
  have hef : a.start + e ≡ a.start + (a.gap b g + f) [MOD g] := by
    rw [← Nat.add_assoc]
    exact hxe.symm.trans (hxf.trans (hstart.add_right f))
  have := Nat.ModEq.eq_of_lt_of_lt (Nat.ModEq.add_left_cancel' _ hef) (by omega) (by omega)
  omega

theorem Grid.columns_cover (a : Grid) (x : Nat) (h : a.covers x) : ∃ c ∈ a.columns, c.covers x := by
  unfold Grid.columns
  split
  · next htwo =>
    obtain ⟨i, j, r, hi, hj, hr, rfl⟩ := h
    have hcase : j = 0 ∨ j = 1 := by omega
    rcases hcase with rfl | rfl
    · exact ⟨{ a with n2 := 1 }, by simp, i, 0, r, hi, Nat.zero_lt_one, hr, rfl⟩
    · exact ⟨{ a with start := a.start + a.s2, n2 := 1 }, by simp, i, 0, r, hi, Nat.zero_lt_one, hr, by dsimp only; omega⟩
  · exact ⟨a, by simp, h⟩

theorem Grid.apart_covers (a b : Grid) (x : Nat) (h : a.apart b = true) (ha : a.covers x) : ¬ b.covers x := by
  intro hb
  obtain ⟨c, hc, hcx⟩ := a.columns_cover x ha
  obtain ⟨d, hd, hdx⟩ := b.columns_cover x hb
  obtain ⟨e, -, he⟩ := List.any_eq_true.mp (List.all_eq_true.mp (List.all_eq_true.mp h c hc) d hd)
  exact Grid.apartAt_covers c d (2 ^ e) x he hcx hdx

/-- No 64-bit register overlaps a 32-bit one. -/
theorem RegKind.wide_apart : RegKind.all.all (fun k => !k.info.wide || k.info.form == .stall || RegKind.all.all (fun k' =>
    k'.info.wide || k'.info.form == .stall || k.grid.apart k'.grid)) = true := by decide +kernel

end Sys2Proof.Machine
end

section
/-! SUPPORT. Accesses to any register complete with their effects. -/

namespace Sys2Proof.Machine

/-! ### The upper half of a 64-bit register -/

theorem strideIndex_add_four (s d : Nat) (hs : s % 8 = 0) (hd : d % 8 = 0) : strideIndex s (d + 4) = strideIndex s d := by
  unfold strideIndex
  split
  · rfl
  · have hs8 : s = 8 * (s / 8) := by omega
    rw [hs8, ← Nat.div_div_eq_div_mul, ← Nat.div_div_eq_div_mul, show (d + 4) / 8 = d / 8 by omega]

theorem strideIndex_mul_mod (s d : Nat) (hs : s % 8 = 0) : strideIndex s d * s % 8 = 0 := by
  rw [Nat.mul_mod, hs, Nat.mul_zero]

/-- Four bytes on from the lower half of a 64-bit register lies its upper half; from another offset no register of the kind. -/
theorem RegKind.hit_add_four (k : RegKind) (off : Nat) (hw : k.info.wide = true) (h8 : off % 8 = 0) :
    k.hit none (off + 4) = (k.hit none off).map (fun x => (x.1, true)) := by
  obtain ⟨hb8, hs1, hs2⟩ := k.wide_aligned hw
  have hbytes : k.bytes = 8 := if_pos hw
  by_cases hbase : off < k.info.base
  · rw [k.hit_below off hbase, k.hit_below (off + 4) (by omega)]
    rfl
  · have hbase4 : ¬ off + 4 < k.info.base := by omega
    have hd : off + 4 - k.info.base = off - k.info.base + 4 := by omega
    have hd8 : (off - k.info.base) % 8 = 0 := by omega
    generalize hdd : off - k.info.base = d at *
    cases hform : k.info.form with
    | plain =>
      rw [k.hit_plain off hform hbase, k.hit_plain (off + 4) hform hbase4, hd, hdd, hbytes]
      dsimp only
      have hi := strideIndex_mul_le k.info.s1 d
      have hi8 := strideIndex_mul_mod k.info.s1 d hs1
      rw [strideIndex_add_four _ _ hs1 hd8]
      generalize strideIndex k.info.s1 d = i at *
      generalize i * k.info.s1 = is at *
      rw [show d + 4 - is = d - is + 4 by omega, strideIndex_add_four _ _ hs2 (by omega)]
      have hj := strideIndex_mul_le k.info.s2 (d - is)
      have hj8 := strideIndex_mul_mod k.info.s2 (d - is) hs2
      generalize strideIndex k.info.s2 (d - is) = j at *
      generalize j * k.info.s2 = js at *
      rw [show d - is + 4 - js = d - is - js + 4 by omega]
      split
      · by_cases hrest : d - is - js < 8
        · rw [if_pos hrest, if_pos (by omega)]
          simp
        · rw [if_neg hrest, if_neg (by omega)]
          rfl
      · rfl
    | portSlot =>
      rw [k.hit_portSlot off hform hbase, k.hit_portSlot (off + 4) hform hbase4, hd, hdd, hbytes]
      dsimp only
      rw [show (d + 4) / 0x20000 = d / 0x20000 by omega, show (d + 4) % 0x20000 / 0x1000 = d % 0x20000 / 0x1000 by omega,
        show (d + 4) % 0x1000 = d % 0x1000 + 4 by omega]
      split
      · by_cases hrest : d % 0x1000 < 8
        · rw [if_pos hrest, if_pos (by omega)]
          simp
        · rw [if_neg hrest, if_neg (by omega)]
          rfl
      · rfl
    | lane =>
      rw [k.hit_lane off hform hbase, k.hit_lane (off + 4) hform hbase4, hd, hdd, hbytes]
      dsimp only
      rw [show (d + 4) / 0x20000 = d / 0x20000 by omega, show (d + 4) % 0x20000 = d % 0x20000 + 4 by omega]
      generalize d / 0x20000 = row
      have hx8 : d % 0x20000 % 8 = 0 := by omega
      generalize d % 0x20000 = x at *
      by_cases hrow : 32 ≤ row
      · rw [if_pos hrow, if_pos hrow]
        rfl
      · rw [if_neg hrow, if_neg hrow]
        by_cases hx : x < 0x8000
        · rw [if_pos hx, if_pos (by omega), show (x + 4) / 0x800 = x / 0x800 by omega, show (x + 4) % 0x800 = x % 0x800 + 4 by omega]
          by_cases hrest : x % 0x800 < 8
          · rw [if_pos hrest, if_pos (by omega)]
            simp
          · rw [if_neg hrest, if_neg (by omega)]
            rfl
        · rw [if_neg hx, if_neg (show ¬ x + 4 < 0x8000 by omega)]
          by_cases hs : 0x1C000 ≤ x ∧ x < 0x1C800
          · rw [if_pos hs, if_pos (by omega), show x + 4 - 0x1C000 = x - 0x1C000 + 4 by omega]
            by_cases hrest : x - 0x1C000 < 8
            · rw [if_pos hrest, if_pos (by omega)]
              simp
            · rw [if_neg hrest, if_neg (by omega)]
              rfl
          · rw [if_neg hs, if_neg (show ¬ (0x1C000 ≤ x + 4 ∧ x + 4 < 0x1C800) by omega)]
            rfl
    | stall =>
      rw [k.hit_stall off hform, k.hit_stall (off + 4) hform]
      rfl

/-- A kind that has a register in management PF BAR0 is no kind of a Stall's BAR0. -/
theorem RegKind.form_of_hit (k : RegKind) (off : Nat) (y : RegId × Bool) (h : k.hit none off = some y) : (k.info.form == .stall) = false := by
  by_contra hform
  rw [Bool.not_eq_false, beq_iff_eq] at hform
  rw [k.hit_stall off hform] at h
  cases h

/-- Where a 64-bit register lies, no 32-bit one does. -/
theorem RegKind.narrow_misses (k k' : RegKind) (off : Nat) (y : RegId × Bool) (hk : k ∈ RegKind.all) (hk' : k' ∈ RegKind.all)
    (hw : k.info.wide = true) (hn : k'.info.wide = false) (h : k.hit none off = some y) : k'.hit none off = none := by
  by_contra hhit
  obtain ⟨z, hz⟩ := Option.ne_none_iff_exists'.mp hhit
  have hrow := List.all_eq_true.mp RegKind.wide_apart k hk
  rw [hw, k.form_of_hit off y h, Bool.not_true, Bool.or_false, Bool.false_or] at hrow
  have hapart := List.all_eq_true.mp hrow k' hk'
  rw [hn, k'.form_of_hit off z hz, Bool.or_false, Bool.false_or] at hapart
  exact Grid.apart_covers _ _ off hapart (k.grid_of_hit off y h) (k'.grid_of_hit off z hz)

/-- The tables of double-buffered words begin and end at multiples of 8. -/
theorem tblAt_add_four (off : Nat) (h8 : off % 8 = 0) (h : tblAt off = none) : tblAt (off + 4) = none := by
  unfold tblAt at h ⊢
  dsimp only at h ⊢
  by_cases hlow : off < 0x1D00000
  · rw [if_pos (by omega)]
  · have hmid : ¬ off < 0x1DE0000 := by
      intro hmid
      rw [if_neg hlow] at h
      by_cases hwin : off < 0x1D80000
      · rw [if_pos hwin] at h
        cases h
      · by_cases hvdsp : off < 0x1DC0000
        · rw [if_neg hwin, if_pos hvdsp] at h
          cases h
        · rw [if_neg hwin, if_neg hvdsp, if_pos hmid] at h
          cases h
    rw [if_neg (by omega), if_neg (by omega), if_neg (by omega), if_neg (by omega)] at h ⊢
    by_cases hroute : off < 0x1DE2000
    · rw [if_pos (by omega)] at h ⊢
      have hplace : ¬ (off - 0x1DE0000) % 0x1000 < 0x600 := by
        intro hplace
        split at h
        · cases h
        · cases h
      have hnext : (off + 4 - 0x1DE0000) % 0x1000 = (off - 0x1DE0000) % 0x1000 + 4 := by omega
      rw [hnext, if_neg (by omega), if_neg (by omega)]
    · rw [if_neg (by omega)] at h ⊢
      repeat' split at h
      all_goals cases h
      repeat rw [if_neg (by omega)]

/-- Four bytes on from the lower half of a 64-bit register of management PF BAR0 lies its upper half. -/
theorem targetMgmt_add_four (off : Nat) (r : RegId) (h8 : off % 8 = 0) (h : targetMgmt off = .reg r false) (hw : r.kind.info.wide = true) :
    targetMgmt (off + 4) = .reg r true := by
  unfold targetMgmt at h ⊢
  by_cases hold : 0x3FFF000 ≤ off
  · rw [if_pos hold] at h
    cases h
  · rw [if_neg hold] at h
    rw [if_neg (by omega)]
    cases htbl : tblAt off with
    | some x =>
      rw [htbl] at h
      cases h
    | none =>
      rw [htbl] at h
      rw [tblAt_add_four off h8 htbl]
      dsimp only at h ⊢
      cases hfind : RegKind.all.findSome? (fun k => k.hit none off) with
      | none =>
        rw [hfind] at h
        cases h
      | some y =>
        rw [hfind] at h
        obtain ⟨r', hi⟩ := y
        cases h
        obtain ⟨before, k, after, hall, hhit, hmiss⟩ := List.findSome?_eq_some_iff.mp hfind
        have hkind := k.hit_kind off r false hhit
        have hk : k ∈ RegKind.all := hall ▸ List.mem_append_right before List.mem_cons_self
        have hhit4 : k.hit none (off + 4) = some (r, true) := by
          rw [k.hit_add_four off (hkind ▸ hw) h8, hhit]
          rfl
        have hmiss4 : ∀ x ∈ before, x.hit none (off + 4) = none := by
          intro x hx
          cases hxw : x.info.wide with
          | true => rw [x.hit_add_four off hxw h8, hmiss x hx]; rfl
          | false => exact k.narrow_misses x (off + 4) (r, true) hk (hall ▸ List.mem_append_left _ hx) (hkind ▸ hw) hxw hhit4
        have hfind4 : RegKind.all.findSome? (fun k => k.hit none (off + 4)) = some (r, true) :=
          List.findSome?_eq_some_iff.mpr ⟨before, k, after, hall, hhit4, hmiss4⟩
        rw [hfind4]

/-! ### A write of a register (R7, R9) -/

/-- A write of management PF BAR0. -/
def writeAt (off : Nat) (wide : Bool) (v : Word) : Access := { door := .mgmtPf, bar := .mgmt, off := off, write := true, wide := wide, v := v }

/-- A dword of a register has the register's gate. -/
theorem Dev.gateAt_reg (d : Dev) (off : Nat) (r : RegId) (hi : Bool) (h : targetMgmt off = .reg r hi) :
    (d.gateAt .mgmtPf .mgmt off).1 = d.gateOf .mgmtPf r := by
  have htarget : d.targetGate .mgmt off false = (d.regGate r false, some (d.blockOf r)) := by
    unfold Dev.targetGate
    simp only [targetOf, h]
  have hdoor : (Door.mgmtPf == Door.controller) = false := rfl
  unfold Dev.gateAt Dev.gateOf
  simp only [hdoor, htarget]
  split <;> rfl

/-- An aligned access begins at a dword. -/
theorem aligned_dword (off : Nat) (wide : Bool) (h : off % (if wide then 8 else 4) = 0) : off % 4 = 0 ∧ off / 4 * 4 = off := by
  cases wide with
  | false =>
    rw [if_neg Bool.false_ne_true] at h
    omega
  | true =>
    rw [if_pos rfl] at h
    omega

/-- An aligned access of 32 or 64 bits covers its own dwords. -/
theorem writeAt_dwords (off : Nat) (wide : Bool) (v : Word) (h : off % (if wide then 8 else 4) = 0) :
    (writeAt off wide v).dwords = if wide then [off, off + 4] else [off] := by
  obtain ⟨hoff, hdiv⟩ := aligned_dword off wide h
  cases wide <;> simp [Access.dwords, writeAt, Access.bytes, hoff, hdiv, List.range_succ]

theorem writeAt_not_odd (off : Nat) (wide : Bool) (v : Word) (h : off % (if wide then 8 else 4) = 0) : (writeAt off wide v).isOdd = false := by
  unfold Access.isOdd alignedAccess
  cases wide with
  | false => simpa [writeAt, Access.bytes] using h
  | true => simpa [writeAt, Access.bytes] using h

/-- With a slot free and the clocks of its dwords running it is made, and answers nothing. -/
theorem Dev.request_writeAt (d : Dev) (off : Nat) (wide : Bool) (v : Word) (h : off % (if wide then 8 else 4) = 0)
    (hgate : (d.gateAt .mgmtPf .mgmt off).1 = .act) (hhigh : wide = true → (d.gateAt .mgmtPf .mgmt (off + 4)).1 = .act)
    (hslot : d.freeSlot.isSome = true) : d.request (writeAt off wide v) = d.writeAccess .mgmtPf .mgmt off wide v := by
  obtain ⟨k, hk⟩ := Option.isSome_iff_exists.1 hslot
  obtain ⟨-, hoff⟩ := aligned_dword off wide h
  have hacc : d.accessGate (writeAt off wide v) = .act := by
    unfold Dev.accessGate
    rw [writeAt_dwords off wide v h]
    cases wide with
    | false => simp [writeAt, hoff, hgate]
    | true => simp [writeAt, hoff, hgate, hhigh rfl]
  have hperform : d.perform (writeAt off wide v) = d.writeAccess .mgmtPf .mgmt off wide v := by
    have hdone : ∀ e : Except Fault Dev, e.bind (fun t => .ok t) = e := fun e => by cases e <;> rfl
    unfold Dev.perform
    rw [writeAt_not_odd off wide v h]
    simp only [writeAt, hoff, hgate, Bool.false_eq_true, if_false, if_true, Dev.answer]
    exact hdone _
  unfold Dev.request
  rw [hacc]
  simp only [writeAt, hk]
  exact hperform

/-- A write of a whole register whose gate is open. -/
theorem Dev.writeAccess_reg (d : Dev) (off : Nat) (v : Word) (r : RegId) (hgate : (d.gateAt .mgmtPf .mgmt off).1 = .act)
    (htarget : targetMgmt off = .reg r false) :
    d.writeAccess .mgmtPf .mgmt off r.kind.info.wide v = d.regWrite .mgmtPf r (v &&& r.width) r.width := by
  unfold Dev.writeAccess RegId.width
  cases hw : r.kind.info.wide with
  | true =>
    simp only [if_true, targetOf, htarget, hgate, hw]
    exact congrArg (fun x => d.regWrite .mgmtPf r x 0xFFFFFFFFFFFFFFFF) BitVec.and_allOnes.symm
  | false =>
    obtain ⟨b, hb⟩ : ∃ b, d.gateAt .mgmtPf .mgmt off = (.act, b) := ⟨_, Prod.ext hgate rfl⟩
    simp only [Bool.false_eq_true, if_false, d.writeDword_reg off _ r b hb htarget, zeroExtend_truncate]

/-- REGISTER_WRITE of a register that is let through. -/
theorem Dev.request_register (d : Dev) (off : Nat) (v : Word) (r : RegId) (htarget : targetMgmt off = .reg r false)
    (h : off % (if r.kind.info.wide then 8 else 4) = 0) (ht : d.takes r) (hrsv : v &&& r.width &&& r.kind.info.rsv = 0) :
    d.request (writeAt off r.kind.info.wide v) = d.regAct .mgmtPf r (v &&& r.width) := by
  obtain ⟨hg, hslot, hport, hsafe, hpar⟩ := ht
  have hgate : (d.gateAt .mgmtPf .mgmt off).1 = .act := (d.gateAt_reg off r false htarget).trans hg
  have hhigh : r.kind.info.wide = true → (d.gateAt .mgmtPf .mgmt (off + 4)).1 = .act := by
    intro hw
    rw [hw] at h
    exact (d.gateAt_reg (off + 4) r true (targetMgmt_add_four off r h htarget hw)).trans hg
  have hwidth : v &&& r.width &&& r.width = v &&& r.width := by rw [BitVec.and_assoc, BitVec.and_self]
  rw [d.request_writeAt off _ v h hgate hhigh hslot, d.writeAccess_reg off v r hgate htarget,
    d.regWrite_whole .mgmtPf r (v &&& r.width) hport hsafe hpar (by rw [hwidth]; exact hrsv), hwidth]

/-! ### Accesses of the wrong width or alignment (R9) -/

theorem Dev.accessGate_ne_gone (d : Dev) (a : Access) (h : (d.gateAt a.door a.bar (a.off / 4 * 4)).1 ≠ .gone) : d.accessGate a ≠ .gone := by
  unfold Dev.accessGate
  dsimp only
  split
  · exact Gate.noConfusion
  · exact h

/-- Once made it sets internal errors, and a read answers all ones. -/
theorem Dev.perform_odd (d : Dev) (a : Access) (h : (d.gateAt a.door a.bar (a.off / 4 * 4)).1 ≠ .gone) (hodd : a.isOdd = true) :
    d.perform a = .ok ((d.oddErrs a).answerOdd a) := by
  unfold Dev.perform
  split
  · next hgone => exact absurd hgone h
  · rw [if_pos hodd]

/-- On the register path it is made, holds its slot or waits for one; in the other spaces it is made. -/
theorem Dev.request_perform (d : Dev) (a : Access) (hgone : d.accessGate a ≠ .gone)
    (h : a.bar = .mgmt → d.accessGate a ≠ .wait ∧ d.freeSlot.isSome = true) : d.request a = d.perform a := by
  unfold Dev.request
  cases hbar : a.bar with
  | mgmt =>
    obtain ⟨hwait, hslot⟩ := h hbar
    obtain ⟨k, hk⟩ := Option.isSome_iff_exists.1 hslot
    simp only [hgone, hwait, hk, if_false]
  | mgmtMsix => rfl
  | stall st => rfl

theorem Dev.request_holds (d : Dev) (a : Access) (k : Nat) (hbar : a.bar = .mgmt) (hwait : d.accessGate a = .wait) (hslot : d.freeSlot = some k) :
    d.request a = .ok { d with mgmt := { d.mgmt with slots := d.mgmt.slots.put none k (some a) } } := by
  unfold Dev.request
  simp only [hbar, hwait, hslot, if_true]
  rfl

theorem Dev.request_waits (d : Dev) (a : Access) (hbar : a.bar = .mgmt) (hgone : d.accessGate a ≠ .gone) (hslot : d.freeSlot = none) :
    d.request a = .ok { d with mgmt := { d.mgmt with waiting := d.mgmt.waiting ++ [a] } } := by
  unfold Dev.request
  simp only [hbar, hgone, hslot, if_false]

/-! ### A read that held its slot (R21) -/

/-- A read changes no more than internal errors and the count of free values. -/
theorem Dev.readAccess_mgmt (d : Dev) (door : Door) (bar : Bar) (off : Nat) (wide : Bool) :
    (d.readAccess door bar off wide).1.mgmt = d.mgmt ∧ (d.readAccess door bar off wide).1.rst = d.rst := by
  have hdword (x : Dev) (o : Nat) : (x.readDword door bar o).1.mgmt = x.mgmt ∧ (x.readDword door bar o).1.rst = x.rst := by
    unfold Dev.readDword Dev.intErrOf Dev.intErr
    repeat' split
    all_goals exact ⟨rfl, rfl⟩
  have hlow := hdword d off
  have hboth : ((d.readDword door bar off).1.readDword door bar (off + 4)).1.mgmt = d.mgmt
      ∧ ((d.readDword door bar off).1.readDword door bar (off + 4)).1.rst = d.rst :=
    ⟨(hdword _ _).1.trans hlow.1, (hdword _ _).2.trans hlow.2⟩
  unfold Dev.readAccess
  cases wide with
  | false =>
    dsimp only
    split
    · exact hlow
    · exact hlow
  | true =>
    dsimp only
    split
    · exact hboth
    · exact hboth

/-- The request slots are no part of a gate. -/
theorem Dev.gateAt_slots (d : Dev) (m : MgmtSt) (door : Door) (bar : Bar) (off : Nat) :
    ({ d with mgmt := m } : Dev).gateAt door bar off = d.gateAt door bar off := rfl

/-- A read by the management PF is answered. -/
theorem Dev.perform_read (d : Dev) (a : Access) (hgone : (d.gateAt a.door a.bar (a.off / 4 * 4)).1 ≠ .gone) (hodd : a.isOdd = false)
    (hread : a.write = false) (hdoor : a.door = .mgmtPf) :
    d.perform a = .ok ((d.readAccess a.door a.bar a.off a.wide).1.emit (.readData (d.readAccess a.door a.bar a.off a.wide).2)) := by
  unfold Dev.perform
  split
  · next h => exact absurd h hgone
  · simp [hodd, hread, hdoor, Dev.answer]

/-- A read of the management PF that held slot `k`, while no other access waits and no POLL32 has read. -/
theorem Dev.slotDone_read (d : Dev) (k : Nat) (a : Access) (hslot : d.mgmt.slots.look none k = some a) (hread : a.write = false)
    (hdoor : a.door = .mgmtPf) (hwaiting : d.mgmt.waiting = []) (hodd : a.isOdd = false) (hpolled : d.rst.polled = none)
    (hwait : d.accessGate a ≠ .wait) (hgone : (d.gateAt a.door a.bar (a.off / 4 * 4)).1 ≠ .gone) :
    let d' : Dev := { d with mgmt := { d.mgmt with slots := d.mgmt.slots.put none k none } }
    let x := d'.readAccess a.door a.bar a.off a.wide
    d.slotDone k = .ok (x.1.emit (.readData x.2)) := by
  intro d' x
  obtain ⟨hm, hr⟩ := d'.readAccess_mgmt a.door a.bar a.off a.wide
  have hread' : d'.perform a = .ok (x.1.emit (.readData x.2)) := d'.perform_read a (by rw [d.gateAt_slots]; exact hgone) hodd hread hdoor
  have hadmit : (x.1.emit (.readData x.2)).admitAccesses (x.1.emit (.readData x.2)).mgmt.waiting.length = .ok (x.1.emit (.readData x.2)) := by
    have hnone : (x.1.emit (.readData x.2)).mgmt.waiting = [] := (congrArg MgmtSt.waiting hm).trans hwaiting
    rw [hnone]
    rfl
  have hcomplete : d.slotComplete k = .ok (x.1.emit (.readData x.2)) := by
    unfold Dev.slotComplete
    rw [hslot]
    dsimp only
    rw [if_neg hwait]
    exact (congrArg (fun e => Except.bind e _) hread').trans hadmit
  have hnopoll : (x.1.emit (.readData x.2)).rst.polled = none := (congrArg ResetSt.polled hr).trans hpolled
  unfold Dev.slotDone
  rw [hcomplete]
  show (match (x.1.emit (.readData x.2)).recordOf 3 with
    | some r => (x.1.emit (.readData x.2)).pollTake r
    | none => .ok (x.1.emit (.readData x.2))) = _
  split
  · unfold Dev.pollTake
    rw [hnopoll]
  · rfl

/-! ### The commands -/

/-- Settles O4: each access is what `request` makes of it, by its gate and the free slot. -/
theorem registerAccessCommandsComplete : Obligations.RegisterAccessCommandsComplete := by
  unfold Obligations.RegisterAccessCommandsComplete
  intro s
  refine ⟨fun off wide v r d htarget hwide halign ht hrsv hact => ?_, ?_, fun k a hslot hread hdoor hwaiting hodd hpolled hwait hgone => ?_⟩
  · subst hwide
    exact congrArg s.doneReg ((s.dev.request_register off.toNat v r htarget halign ht hrsv).trans hact)
  · intro bar off bytes write hodd a hgone
    have hexec : exec (.misalignedRegisterAccess bar off bytes write) s = s.doneReg (s.dev.request a) :=
      congrArg s.doneReg (if_neg (by rw [hodd]; exact Bool.false_ne_true))
    have hodd' : a.isOdd = true := congrArg not hodd
    have hne : s.dev.accessGate a ≠ .gone := s.dev.accessGate_ne_gone a hgone
    rw [hexec]
    refine ⟨fun h => ?_, fun k hbar hwait hslot => ?_, fun hbar hslot => ?_⟩
    · rw [s.dev.request_perform a hne h, s.dev.perform_odd a hgone hodd']
      rfl
    · rw [s.dev.request_holds a k hbar hwait hslot]
      rfl
    · rw [s.dev.request_waits a hbar hne hslot]
      rfl
  · exact congrArg s.doneReg (s.dev.slotDone_read k a hslot hread hdoor hwaiting hodd hpolled hwait hgone)

end Sys2Proof.Machine
end
